-- ==== Sys2Proof/Word.lean ====
section
/-!
DEFINITION. The word types of the hub: a register word (R7), a half of it (R25), a byte and the 128-bit word that the indirect
windows and the tables hold (R43).
-/

namespace Sys2Proof

/-- A register, 64 bits wide (R7). -/
abbrev Word := BitVec 64

/-- One half of a register, as a 32-bit BAR0 access sees it (R25). -/
abbrev Half := BitVec 32

/-- One byte of a frame, of the image store or of a buffer. -/
abbrev Byte := BitVec 8

/-- One word of an indirect window's table (R43). -/
abbrev Wide := BitVec 128

end Sys2Proof
end

