-- ==== Sys2Proof/Syntax.lean ====
section
/-!
DEFINITION. The commands of the hub: one constructor of `Instr` for each row of the operation table, with the operands that the
row's rule names, and the types of those operands. A command is what reaches the hub from outside (an access, a frame, a pin, a
measurement of the analogue part) or the hub's own clock bringing a named moment about.
-/

namespace Sys2Proof

/-- Who reaches the register spine (R25). -/
inductive Requester | recto | verso | bar0 | spi
  deriving DecidableEq, Repr

/-- A request: who makes it, and the DCLK cycle, counted from the latest strike, on which the spine serves it. -/
structure Req where
  who : Requester
  cyc : Nat
  deriving DecidableEq, Repr

/-- What a strike finds at the pins: the channels whose comparator trips (R52), the voltages of the two pins of a channel in mV
(R56), the sensor-line levels of AC channels in mV (R57), the groups whose reference buffer is settled (R53), and the microseconds since
the release of PORST_N (R376, R379). A channel that is not listed is found inside every limit. -/
structure StrikeEnv where
  trips : List Nat
  pins : List (Nat × Int × Int)
  lines : List (Nat × Nat)
  settled : List Nat
  us : Nat := 0
  deriving DecidableEq, Repr

/-- What the trim solver found for one nib (R101, R102): its offset, gain and linearity residue, and its 22 weights. -/
structure NibResult where
  nib : Nat
  ofs : Nat
  gain : Nat
  lin : Nat
  weights : List Nat
  deriving DecidableEq, Repr

/-- What a lane calibration found for one excitation source (R104): its current, and whether it stayed in compliance. -/
structure ExcResult where
  src : Nat
  iNa : Nat
  compl : Bool
  deriving DecidableEq, Repr

/-- A grandmaster data set, as an Announce carries it (R142, R162). -/
structure GmData where
  prio1 : Nat
  cls : Nat
  accuracy : Nat
  variance : Nat
  prio2 : Nat
  timeSource : Nat
  id : Nat
  deriving DecidableEq, Repr

/-- How a frame's start-of-frame delimiter reached the clock: the DCLK cycle of the present stroke, the time past it in 2⁻¹⁶ ns,
whether its time-stamp event survived the crossing of R15, and the DCLK cycles that the computation then took (R144). -/
structure PtpAt where
  cyc : Nat
  sub : Nat
  timed : Bool
  work : Nat
  deriving DecidableEq, Repr

/-- The header of a received PTP message (R139, R141). -/
structure PtpHdr where
  /-- The hub's port. -/
  port : Nat
  /-- 0 Ethernet, 1 UDP/IPv4, 2 UDP/IPv6. -/
  transport : Nat
  domain : Nat
  version : Nat
  /-- Shorter than its messageLength, or messageLength too short for the type. -/
  short : Bool
  alt : Bool
  unicast : Bool
  srcId : Nat
  srcPort : Nat
  seq : Nat
  /-- correctionField in 2⁻¹⁶ ns. -/
  corr : Int
  logInt : Int
  deriving DecidableEq, Repr

/-- The requestingPortIdentity of a response. -/
structure PtpReq where
  id : Nat
  port : Nat
  deriving DecidableEq, Repr

/-- Where an Inkline frame came in: the lane and the frame's SEQ (R164, R169). -/
structure IlkRx where
  lane : Nat
  seq : Nat
  deriving DecidableEq, Repr

/-- The payload of a HELLO (R168), and the lane's recovered rate less the hub's own in 0.01 ppm (R16). -/
structure Hello where
  domain : Nat
  hubId : Nat
  depth : Nat
  role : Nat
  state : Nat
  accept : Bool
  hold : Bool
  epoch : Nat
  mMinus1 : Nat
  txLat : Nat
  anc : List Nat
  ppm : Int
  deriving DecidableEq, Repr

/-- The payload of a JOIN (R168), and what its route tells: the joining hub's parent and upstream lane, and the HUB_ID under which
that hub was joined before, if it was (R182). -/
structure Join where
  hubId : Nat
  depth : Nat
  lastBseq : Nat
  pathPs : Nat
  parent : Nat
  upLane : Nat
  before : Option Nat
  deriving DecidableEq, Repr

/-- The payload of a TIME frame (R168, R183). -/
structure TimeFrame where
  stroke : Nat
  seconds : Nat
  ns : Nat
  frac : Nat
  rate : Nat
  rootState : Nat
  steps : Nat
  deriving DecidableEq, Repr

/-- The payload of a BCAST frame (R168, R185). -/
structure Bcast where
  cmd : Nat
  set : Nat
  page : Nat
  bseq : Nat
  stroke : Nat
  deriving DecidableEq, Repr

/-- The payload of a TRIG frame (R168, R184). -/
structure TrigFrame where
  stroke40 : Nat
  cycle : Nat
  edge : Nat
  hops : Nat
  origin : Nat
  tu : Nat
  deriving DecidableEq, Repr

/-- An uncorrectable burst (R283, R284): the channel, the requester of R281, whether a scrub met it, its byte address, the ECC
syndrome, the device suspected (31 unknown), whether the other channel's copy is bad too, and the ring strokes whose items lay in
it, as ring, first and last stroke. -/
structure DdrErr where
  ch : Nat
  req : Nat
  scrub : Bool
  addr : Nat
  syndrome : Nat
  dev : Nat
  otherBad : Bool
  hits : List (Nat × Nat × Nat)
  deriving DecidableEq, Repr


/-- A control request of a subscriber (R236): the hub's port it came in on, its sender, the session it names, REQ_TAG, the arguments,
and, where it has a trailer, its counter C and its tag (R217). -/
structure DucReq where
  eth : Nat
  ipv6 : Bool
  addr : Nat
  udp : Nat
  session : Nat
  tag : Nat
  arg0 : Nat
  arg1 : Nat
  trailer : Option (Nat × Nat)
  deriving DecidableEq, Repr

/-- A violation met on an Ethernet port (R243): FCS error, runt, oversize, PAUSE, IPv4 header checksum, fragment, options or IPv6
extension header, UDP to a port that is not the hub's, an SMD error, more than one VLAN tag, or a full receive queue (R15). -/
inductive EthBad | fcs | runt | oversize | pause | csum | fragment | options | udpPort | smd | multiTag | queueFull
  deriving DecidableEq, Repr

/-- An ARP or neighbour message (R231, R246): whether it is an answer, the sender's address and the address asked for, and the low
bits of the source MAC address. -/
structure ArpMsg where
  ipv6 : Bool
  answer : Bool
  sender : Nat
  target : Nat
  mac : Nat
  deriving DecidableEq, Repr

/-- A PTP message that the bridge carries: whether it is Sync or Delay_Req, whether both its instants were caught, its correctionField and
its residence time in 2⁻¹⁶ ns (R153). -/
structure PtpBridged where
  event : Bool
  timed : Bool
  corr : Int
  residence : Int
  deriving DecidableEq, Repr

/-- A violation on the PCI Express link (R317): a malformed TLP, an ECRC mismatch, a BAR0 request of another size or misaligned (a read
or a write), a poisoned write, an unexpected completion, receiver errors above the limits. -/
inductive TlpBad | malformed | ecrc | bar0Read | bar0Write | poisoned | unexpected | receiver
  deriving DecidableEq, Repr

/-- How a hub read went without its data (R311, R317): completion timeout, UR, CA or a poisoned completion. -/
inductive CplBad | timeout | ur | ca | poisoned
  deriving DecidableEq, Repr

/-- One of the two halves (R343). -/
inductive Side | recto | verso
  deriving DecidableEq, Repr

/-- One copy of the pen arbiter: HOLDER, EPOCH and GEN (R348). -/
structure PenCopy where
  holder : Nat := 0
  epoch : Nat := 0
  gen : Nat := 0
  deriving DecidableEq, Repr

/-- The place of a scribe command: the half, the DCLK cycle on which its access is served or on which it ends, whether a memory
word that it reads fails its parity (R355), and whether a queue word that it pops does (R256). -/
structure ScrAt where
  side : Side
  cyc : Nat := 0
  bad : Bool := false
  blot : Bool := false
  deriving DecidableEq, Repr

/-- The address, UDP port and hub port of a boot message's sender (R375). -/
structure BootFrom where
  eth : Nat
  addr : Nat
  udp : Nat
  deriving DecidableEq, Repr

/-- A JTAG instruction (R407). -/
inductive JtagIns | bypass | idcode | sample | extest | extestPulse | extestTrain | clamp | highz
  deriving DecidableEq, Repr

/-- A received Ethernet frame: its length in bytes and whether it carries one VLAN tag (R247). -/
structure EthRx where
  len : Nat
  tagged : Bool
  deriving DecidableEq, Repr

/-- How bytes reach the image store (R372): a BAR4 write of bytes at an address with the requester's identity, or OP 2 on the SYS_IMGW
window. -/
inductive ImgBy where
  | bar4 (addr rid : Nat) (bytes : List Byte)
  | imgw (r : Req)
  deriving DecidableEq, Repr

/-- What the solver has computed (R100, R104): the reference deviation in 0.01 ppm, the largest deviation of an injection level in ppm, the
nibs' results, the lanes' by 4 × lane + range with offset and gain, and the excitation sources'. -/
structure Solved where
  ref : Int
  inj : Nat
  nibs : List NibResult
  lanes : List (Nat × Int × Nat)
  exc : List ExcResult
  deriving DecidableEq, Repr

/-- The commands, one for each row of the operation table. Register numbers, pages, offsets and indices are as in the
register tables; `cyc` is a DCLK cycle counted from the latest strike. -/
inductive Instr where
  /-- PORST_N_RELEASE: PORST_N is released with the strap BOOT_NET as given (R366). -/
  | porstNRelease (bootNet : Bool)
  /-- BROWNOUT_RESET: A rail stays below 90 % of nominal for 1 µs with PORST_N high; `rails` has a bit per rail that fell (R365). -/
  | brownoutReset (rails : Nat)
  /-- PLL_LOCK: The stroke PLL locks, `us` microseconds after the release of PORST_N (R376). -/
  | pllLock (us : Nat)
  /-- STRIKE: The strike: every track-and-hold closes and the next stroke begins (R45). -/
  | strike (e : StrikeEnv)
  /-- AC_OPEN_TRIP: The sensor line of AC channel `c` has stood at `mV` outside its window for 4 µs (R56). -/
  | acOpenTrip (c mV : Nat)
  /-- OPEN_CLEAR: Channel `c` has been inside its window for 16 strikes in a row (R56). -/
  | openClear (c : Nat)
  /-- COMMIT_SEAL: The last 64 DCLK cycles before the armed commit of set `k` begin (R39). -/
  | commitSeal (k : Nat)
  /-- CONVERSION_END: Nib `nib` ends slot `k` of the stroke with the decisions `d` (22 bits, the first on top); `rdo`: they left the redundancy range; `parity`: its weights failed their parity; `uv`: VREFG in µV of the group concerned, held on the same strike (R48, R79, R84). -/
  | conversionEnd (nib k d : Nat) (rdo parity : Bool) (uv : Nat)
  /-- DX_RESULT: The mean of 2^AVG conversions of a DX channel is in, and the trigger units have compared it on cycle `cyc` (R93). -/
  | dxResult (cyc : Nat)
  /-- STROKE_CLOSURE: DCLK cycle 64 of the next stroke: the oldest stroke not closed is closed; `full`: the DDR4 channels whose queue cannot take it, `held`: the Ethernet ports whose fine queue is full (R199, R274). -/
  | strokeClosure (full held : List Nat)
  /-- HALF_WRITE_LOW: A 32-bit BAR0 write to the low half of the register at `off` (R25). -/
  | halfWriteLow (off v : Nat)
  /-- HALF_WRITE_HIGH: A 32-bit BAR0 write to the high half of the register at `off` (R25). -/
  | halfWriteHigh (cyc off v : Nat)
  /-- HALF_READ_LOW: A 32-bit BAR0 read of the low half of the register at `off`; `bad`: a queue word that it pops fails its parity (R25, R256). -/
  | halfReadLow (cyc off : Nat) (bad : Bool)
  /-- HALF_READ_HIGH: A 32-bit BAR0 read of its high half (R25). -/
  | halfReadHigh (cyc off : Nat) (bad : Bool)
  /-- REGISTER_WRITE: A 64-bit write to the register at `off` (R25, R34). -/
  | registerWrite (r : Req) (off v : Nat)
  /-- SPI_WRITE_FRAME: An SPI write frame; `served`: the spine has served the frames before it (R28). -/
  | spiWriteFrame (off v : Nat) (crcOk served : Bool) (cyc : Nat)
  /-- SPI_READ_FRAME: An SPI read frame (R28). -/
  | spiReadFrame (off : Nat) (crcOk bad : Bool) (cyc : Nat)
  /-- SPI_STATUS_FRAME: An SPI status-only frame (R28). -/
  | spiStatusFrame (crcOk : Bool) (cyc : Nat)
  /-- SPI_CS_RELEASED_MID_FRAME: Chip select is released in the middle of a frame of command byte `cmd` (R28). -/
  | spiCsReleasedMidFrame (cmd : Nat)
  /-- CLR_STATUS: 1 is written to PAGE_CTRL.CLR_STATUS of page `p`; `v` has the word's other bits (R29). -/
  | clrStatus (r : Req) (p v : Nat)
  /-- EVT_PEND_CLEAR: EVT_PEND of page `p` is written (R29). -/
  | evtPendClear (r : Req) (p v : Nat)
  /-- EVT_FORCE: EVT_FORCE of page `p` is written (R29). -/
  | evtForce (r : Req) (p v : Nat)
  /-- SHADOW_DISCARD: 1 is written to SHADOW_CTRL.DISCARD of page `p` (R31). -/
  | shadowDiscard (r : Req) (p v : Nat)
  /-- COMMIT_NEXT: 1 is written to SHADOW_CTRL.COMMIT_NEXT of page `p` (R31). -/
  | commitNext (r : Req) (p v : Nat)
  /-- COMMIT_STROKE_ARM: COMMIT_STROKE of page `p` is written with stroke `n` (R38). -/
  | commitStrokeArm (r : Req) (p n : Nat)
  /-- COMMIT_DISARM: COMMIT_STROKE of page `p` is written with all ones (R40). -/
  | commitDisarm (r : Req) (p : Nat)
  /-- LOCK_SET: 1 is written to LOCK.LOCKED of page `p` (R36). -/
  | lockSet (r : Req) (p : Nat)
  /-- LOCK_KEY: 0xC1A5 is written to LOCK.KEY of page `p` (R36). -/
  | lockKey (r : Req) (p : Nat)
  /-- LOCK_CLEAR: 1 is written to LOCK.CLEAR of page `p` (R36). -/
  | lockClear (r : Req) (p : Nat)
  /-- WINDOW_READ: GO with OP read on window `w` (R43). -/
  | windowRead (r : Req) (w : Nat)
  /-- WINDOW_WRITE: GO with OP write on window `w` (R43). -/
  | windowWrite (r : Req) (w : Nat)
  /-- WINDOW_INVALIDATE: GO with OP invalidate on window `w` (R43). -/
  | windowInvalidate (r : Req) (w : Nat)
  /-- WINDOW_OP_DONE: The operation of window `w` ends (R43). -/
  | windowOpDone (w : Nat)
  /-- SLOW_MUX_STEP_END: The mux step of slow lane `k` ends (R60). -/
  | slowMuxStepEnd (k : Nat)
  /-- SLOW_OPEN_CHECK_END: The open check of slow lane `k` ends with an apparent resistance in mΩ (R63). -/
  | slowOpenCheckEnd (k mOhm : Nat)
  /-- SLOW_SETTLE_END: The settle time of slow lane `k` ends (R60). -/
  | slowSettleEnd (k : Nat)
  /-- SLOW_WINDOW1_END: Window 1 of slow lane `k` ends (R60). -/
  | slowWindow1End (k : Nat)
  /-- SLOW_SENSE_SWITCH_END: The sense switch of slow lane `k` ends (R60). -/
  | slowSenseSwitchEnd (k : Nat)
  /-- SLOW_WINDOW2_END: Window 2 of slow lane `k` ends (R59). -/
  | slowWindow2End (k : Nat)
  /-- EXC_COMPLIANCE_LOSS: Excitation source `src` leaves compliance (R63). -/
  | excComplianceLoss (src : Nat)
  /-- NIB_RETIRE_EFFECT: The decided change of nib `nib` takes effect on the coming stroke (R85). -/
  | nibRetireEffect (nib : Nat)
  /-- LEDGER_WRITE_DONE: A wear-ledger write ends; `stored` is what the slot now holds (R89). -/
  | ledgerWriteDone (stored : Nat)
  /-- NIB_RETIRE: NIB_RETIRE is written with OP 0b01 (R87). -/
  | nibRetire (r : Req) (nib key : Nat)
  /-- NIB_PARK: NIB_RETIRE is written with OP 0b10 (R87). -/
  | nibPark (r : Req) (nib key : Nat)
  /-- NIB_UNPARK: NIB_RETIRE is written with OP 0b11 (R87). -/
  | nibUnpark (r : Req) (nib key : Nat)
  /-- TRIM_GO: 1 is written to TRIM_CTRL.GO (R98). -/
  | trimGo (r : Req) (v : Nat)
  /-- LANE_CAL_WINDOW_END: A window of the calibration step of slow lane `k` ends (R104). -/
  | laneCalWindowEnd (k : Nat)
  /-- TRIM_SOLVER_DONE: The solver ends with what it has computed (R102, R105, R107). -/
  | trimSolverDone (v : Solved) (cyc : Nat)
  /-- TRIM_ABORT: 1 is written to TRIM_CTRL.ABORT (R110). -/
  | trimAbort (r : Req) (v : Nat)
  /-- FLT_SYNC_ARM: FLT_SYNC is written with stroke `n` (R125). -/
  | fltSyncArm (r : Req) (n : Nat)
  /-- FLT_SYNC_DISARM: FLT_SYNC is written with all ones (R125). -/
  | fltSyncDisarm (r : Req)
  /-- SYNC_NEXT: 1 is written to FLT_CTRL.SYNC_NEXT (R125). -/
  | syncNext (r : Req) (v : Nat)
  /-- SYNC_N_EDGE: A falling edge on SYNC_N, held for 4 DCLK cycles, has reached the stroke domain on cycle `cyc` (R125). -/
  | syncNEdge (cyc : Nat)
  /-- FLR_REQUEST: FLT_FLR_REQ is written (R129). -/
  | flrRequest (r : Req) (v : Nat)
  /-- FLOURISH_DONE: The last fade output of channel `c` has left (R130). -/
  | flourishDone (c : Nat)
  /-- PEEK_ARM: 1 is written to FAST_PEEK_SEL.ARM (R133). -/
  | peekArm (r : Req) (v : Nat)
  /-- SYNC_RECEIVE: A PTP Sync, with its originTimestamp `t1` in 2⁻¹⁶ ns (R143). -/
  | syncReceive (h : PtpHdr) (a : PtpAt) (x : EthRx) (twoStep : Bool) (t1 : Int)
  /-- FOLLOW_UP_RECEIVE: A Follow_Up, with its preciseOriginTimestamp (R143). -/
  | followUpReceive (h : PtpHdr) (a : PtpAt) (x : EthRx) (t1 : Int)
  /-- DELAY_RESP_RECEIVE: A Delay_Resp, with its receiveTimestamp (R143). -/
  | delayRespReceive (h : PtpHdr) (q : PtpReq) (x : EthRx) (t4 : Int)
  /-- ANNOUNCE_RECEIVE: An Announce: the grandmaster's data set, stepsRemoved, the UTC offset and the leap, UTC-valid and two-step flags (R142). -/
  | announceReceive (h : PtpHdr) (x : EthRx) (gm : GmData) (steps utc : Nat) (l61 l59 uv two : Bool) (cyc : Nat)
  /-- PDELAY_REQ_RECEIVE: A Pdelay_Req, answered on `tx` (R154). -/
  | pdelayReqReceive (h : PtpHdr) (x : EthRx) (rx tx : PtpAt)
  /-- PDELAY_RESP_RECEIVE: A Pdelay_Resp, with its requestReceiptTimestamp (R143). -/
  | pdelayRespReceive (h : PtpHdr) (a : PtpAt) (q : PtpReq) (x : EthRx) (twoStep : Bool) (t2 : Int)
  /-- PDELAY_RESP_FOLLOW_UP_RECEIVE: A Pdelay_Resp_Follow_Up, with its responseOriginTimestamp (R143). -/
  | pdelayRespFollowUpReceive (h : PtpHdr) (q : PtpReq) (x : EthRx) (t3 : Int)
  /-- PTP_OTHER_MESSAGE: A management, signalling or unknown PTP message (R141). -/
  | ptpOtherMessage (h : PtpHdr) (x : EthRx) (typ : Nat)
  /-- DELAY_REQ_SEND: A Delay_Req is due (R143). -/
  | delayReqSend (a : PtpAt)
  /-- PDELAY_REQ_SEND: A Pdelay_Req is due (R154). -/
  | pdelayReqSend (a : PtpAt)
  /-- FOREIGN_MASTER_TIMEOUT: ANN_TIMEOUT intervals have passed without an Announce of foreign master `k` (R142). -/
  | foreignMasterTimeout (k cyc : Nat)
  /-- SYNC_TIMEOUT: Four Sync intervals have passed without a Sync (R145). -/
  | syncTimeout (cyc : Nat)
  /-- TSU_STEP_ACCEPT: 1 is written to TSU_STEP_CTRL.ACCEPT (R147). -/
  | tsuStepAccept (r : Req) (v : Nat)
  /-- TSU_STEP_REJECT: 1 is written to TSU_STEP_CTRL.REJECT (R147). -/
  | tsuStepReject (r : Req) (v : Nat)
  /-- BRIDGE_FORWARD: A frame received on E2 or E3, for the other of the two; `fits`: its queue has room, `window`: a window of the stroke fits it (R15, R153). -/
  | bridgeForward (p : Nat) (ptp : Option PtpBridged) (x : EthRx) (fits window : Bool)
  /-- TOUT_EDGE: The leading edge of time output `n` falls due (R155). -/
  | toutEdge (n : Nat)
  /-- TOUT_PULSE_END: The pulse of time output `n` has lasted WIDTH (R155). -/
  | toutPulseEnd (n : Nat)
  /-- SCHEDULED_LAUNCH: Launch entry `e` falls due, and leaves `late` 2⁻¹⁶ ns after its time; `behind`: a coarse round frame was on the wire (R158). -/
  | scheduledLaunch (e late : Nat) (behind : Bool)
  /-- LQ_FLUSH: 1 is written to TSU_LQ_CTRL.FLUSH (R161). -/
  | lqFlush (r : Req) (v : Nat)
  /-- MARK_RECEIVE: A MARK on lane `k`: its SN and HOLD, its phase against this hub's strike in 2⁻¹⁶ ns, and whether it is mistimed by more than one word (R165). -/
  | markReceive (k sn : Nat) (hold : Bool) (phase : Int) (mistimed : Bool)
  /-- MARK_MISSED: The MARK that lane `k` expects has not come, or has come out of sequence (R178). -/
  | markMissed (k : Nat) (came : Bool)
  /-- ACK_RECEIVE: An ACK word on lane `k` (R169). -/
  | ackReceive (k : Nat) (express : Bool) (seq : Nat) (nak : Bool)
  /-- ACK_TIMEOUT: No ACK has come for a frame of lane `k` (R169). -/
  | ackTimeout (k : Nat) (express : Bool) (seq : Nat)
  /-- HELLO_SEND: A HELLO is due on lane `k` (R168). -/
  | helloSend (k : Nat)
  /-- HELLO_RECEIVE: A HELLO (R171). -/
  | helloReceive (x : IlkRx) (h : Hello)
  /-- JOIN_RECEIVE: A JOIN (R172). -/
  | joinReceive (x : IlkRx) (j : Join)
  /-- JOIN_ACK_RECEIVE: A JOIN_ACK for hub `hub` (R172). -/
  | joinAckReceive (x : IlkRx) (hub result : Nat)
  /-- DELAY_SEND: A DELAY is due on lane `k` (R168). -/
  | delaySend (k : Nat)
  /-- DELAY_RECEIVE: A DELAY: the parent's φ, CARRY, PATH and the stroke of the mark (R174). -/
  | delayReceive (x : IlkRx) (phi carry : Int) (path strokeLo : Nat)
  /-- SLEW_STEP: 2^SLEW DCLK cycles have passed in a slew (R176). -/
  | slewStep (cyc : Nat)
  /-- LANE_DOWN: Lane `k` goes down (R178). -/
  | laneDown (k : Nat)
  /-- LANE_UP: Lane `k` comes up (R171). -/
  | laneUp (k : Nat)
  /-- LANE_RETRAIN: 1 is written to ILK_LCFG.RETRAIN of lane `k` (R189). -/
  | laneRetrain (r : Req) (k v : Nat)
  /-- TIME_SEND: A TIME frame is due, for a stroke `ahead` strokes on (R183). -/
  | timeSend (ahead : Nat)
  /-- TIME_RECEIVE: A TIME frame (R183). -/
  | timeReceive (x : IlkRx) (f : TimeFrame)
  /-- BCAST_RECEIVE: A BCAST at DCLK cycle `cyc` (R185). -/
  | bcastReceive (x : IlkRx) (b : Bcast) (cyc : Nat)
  /-- TRIG_RECEIVE: A TRIG frame (R184). -/
  | trigReceive (x : IlkRx) (f : TrigFrame)
  /-- TEST_FRAME_RECEIVE: A TEST frame with its payload (R404). -/
  | testFrameReceive (x : IlkRx) (crcOk : Bool) (words : List Nat)
  /-- TEST_FRAME_SEND: Four strokes have passed since the last TEST frame of lane `k` (R404). -/
  | testFrameSend (k : Nat)
  /-- TRG_ARM: TRG_ARM is written: bit n arms unit n (R194). -/
  | trgArm (r : Req) (v : Nat)
  /-- TRG_DISARM: TRG_DISARM is written (R194). -/
  | trgDisarm (r : Req) (v : Nat)
  /-- CAP_RELEASE: 1 is written to CAP_RELEASE.GO with SLOT (R208). -/
  | capRelease (r : Req) (slot : Nat)
  /-- SUBSCRIBE: A SUBSCRIBE (R238). -/
  | subscribe (q : DucReq) (x : EthRx) (cyc : Nat)
  /-- UNSUBSCRIBE: An UNSUBSCRIBE (R238). -/
  | unsubscribe (q : DucReq) (x : EthRx) (cyc : Nat)
  /-- KEEPALIVE: A KEEPALIVE (R238). -/
  | keepalive (q : DucReq) (x : EthRx)
  /-- REPLAY: A REPLAY of strokes ARG0 to ARG1 (R239). -/
  | replay (q : DucReq) (x : EthRx)
  /-- CANCEL: A CANCEL of the replay ARG0 (R240). -/
  | cancel (q : DucReq) (x : EthRx)
  /-- STATUS: A STATUS (R236). -/
  | status (q : DucReq) (x : EthRx)
  /-- DUCTUS_MALFORMED: A request that R236 does not lay out, or that fails authentication or the rate (R243). -/
  | ductusMalformed (q : DucReq) (x : EthRx) (op : Nat)
  /-- SESSION_BIND_APPLY: The stroke of a binding or unbinding of session `n` (R238). -/
  | sessionBindApply (n : Nat)
  /-- LEASE_EXPIRY: LEASE_S seconds have passed since the last request of session `n`'s subscriber (R238). -/
  | leaseExpiry (n cyc : Nat)
  /-- REPLAY_START: An active slot is free for the first queued replay of session `n` (R240). -/
  | replayStart (n : Nat)
  /-- REPLAY_COMPLETE: The active replay of session `n` has sent its last item (R239). -/
  | replayComplete (n : Nat)
  /-- COPY_CATCHUP: Copy `k` of session `n`, which is behind, can be served (R241). -/
  | copyCatchup (n k : Nat)
  /-- MAXWAIT_EXPIRY: The oldest item of the open frame of copy `k` of session `n` has waited MAXWAIT (R224). -/
  | maxwaitExpiry (n k : Nat)
  /-- ANCHOR_PERIOD: PERIOD_MS of stamps have passed for a tap in a stream (R151). -/
  | anchorPeriod (n k chan tap : Nat)
  /-- MAP_FRAME_PERIOD: PERIOD_MS have passed for coarse session `n` (R228). -/
  | mapFramePeriod (n : Nat)
  /-- ETH_RX_VIOLATION: A frame that port `p` drops, from a source MAC address; `sess`: byte 1 of its payload (R243). -/
  | ethRxViolation (p : Nat) (bad : EthBad) (mac sess : Nat)
  /-- ETH_LINK_CHANGE: The link of port `p` goes down (0), trains (1) or is up (2) (R231). -/
  | ethLinkChange (p v : Nat) (fec : Bool)
  /-- ARP_RECEIVE: An ARP or neighbour message on port `p` (R231). -/
  | arpReceive (p : Nat) (m : ArpMsg) (x : EthRx)
  /-- QUE_POP: QUE_q_DATA of queue `q` is read; `bad`: the head word fails its parity (R256). -/
  | quePop (r : Req) (q : Nat) (bad : Bool)
  /-- QUE_PEEK: QUE_q_DATA_END of queue `q` is read (R256). -/
  | quePeek (r : Req) (q : Nat)
  /-- CMDQ_PUSH: CMDQ's DATA is written (R249). -/
  | cmdqPush (r : Req) (v : Nat)
  /-- CMDQ_PUSH_END: CMDQ's DATA_END is written (R250). -/
  | cmdqPushEnd (r : Req) (v : Nat)
  /-- QUE_FLUSH: 1 is written to FLUSH of queue `q` (R259). -/
  | queFlush (r : Req) (q : Nat)
  /-- QUE_FLUSH_ALL: QUE_CTRL is written: bit q flushes queue `q` (R259). -/
  | queFlushAll (r : Req) (m : Nat)
  /-- CMDQ_INVALID: The executor reaches an item that is no command; `blot`: a word of it failed its parity (R254). -/
  | cmdqInvalid (blot : Bool)
  /-- ROW_HAMMER: The activations of the row at `addr` reach RH_THR, by requester `req` (R281). -/
  | rowHammer (c addr req : Nat)
  /-- PATROL_SCRUB: Patrol scrub reads the burst at `addr`; `ce`: it was corrected, in device `dev`; `wrap`: the pass ends with it (R282). -/
  | patrolScrub (c addr dev : Nat) (ce wrap : Bool)
  /-- UNCORRECTABLE_ERROR: An uncorrectable burst (R283, R284). -/
  | uncorrectableError (e : DdrErr)
  /-- DDR_ALERT: ALERT_N of channel `c`: CA parity or write CRC; `same`: for the command or burst of the alert before; `sec`: the number of the second (R286). -/
  | ddrAlert (c : Nat) (wcrc same : Bool) (sec req addr : Nat)
  /-- FREEZE_RESUME: INKW_FREEZE is written with OP 1 and GO (R285). -/
  | freezeResume (r : Req) (v : Nat)
  /-- FREEZE_RETIRE: INKW_FREEZE is written with OP 2 and GO (R285). -/
  | freezeRetire (r : Req) (v : Nat)
  /-- FREEZE_HARD_REPAIR: INKW_FREEZE is written with OP 3 and GO (R285). -/
  | freezeHardRepair (r : Req) (v : Nat)
  /-- RT_GO: 1 is written to INKW_CTRL.RT_GO (R287). -/
  | rtGo (r : Req) (v : Nat)
  /-- HPPR_GO: 1 is written to INKW_CTRL.HPPR_GO (R290). -/
  | hpprGo (r : Req) (v : Nat)
  /-- RETRAIN_PERIOD: PERIOD_S seconds have passed since the last training of channel `c` (R287). -/
  | retrainPeriod (c : Nat)
  /-- DDR_RETRAIN_DONE: Retraining of channel `c` ends: 1 a setting found, with its eyes in ps and Vref, 2 the previous one kept, 3 neither (R288). -/
  | ddrRetrainDone (c result rd wr vref : Nat)
  /-- DDR_RETRAIN_TIMEOUT: RT_MAX_MS has passed; `pass`: the previous settings still pass the check pattern (R288). -/
  | ddrRetrainTimeout (c : Nat) (pass : Bool)
  /-- DDR_RETRY_TIMER: RETRY_S seconds have passed for the FAILED channel `c` (R288). -/
  | ddrRetryTimer (c : Nat)
  /-- HPPR_DONE: hPPR of a row of channel `c` completes; `src`: what the row was listed for (R290, R292). -/
  | hpprDone (c src : Nat)
  /-- CHANNEL_COPY_DONE: The copy of channel `c` ends (R274). -/
  | channelCopyDone (c : Nat)
  /-- DDR_TRAIN_DONE: Boot training of channel `c` passes (R376). -/
  | ddrTrainDone (c : Nat)
  /-- BAR2_READ: A BAR2 read of up to 512 bytes; `bad`: uncorrectable wherever it could be served; `ce`: the channel on which a burst was corrected (R299). -/
  | bar2Read (ofs len : Nat) (bad : Bool) (ce : Option Nat)
  /-- DMA_TAIL_WRITE: DMA_TAILk is written (R302). -/
  | dmaTailWrite (r : Req) (k v : Nat)
  /-- DESCRIPTOR_READ_DONE: The descriptor that ring `k` has asked for: its buffer, length and IRQ bit (R302). -/
  | descriptorReadDone (k buf len : Nat) (irq : Bool)
  /-- RECORD_PLACE: A frame that waits for ring `k` can be placed; `pre`: pre-emptions on its way (R303, R307). -/
  | recordPlace (k pre : Nat)
  /-- CLOSE_US_EXPIRY: CLOSE_US have passed since the first record of ring `k`'s open buffer (R303). -/
  | closeUsExpiry (k : Nat)
  /-- DESCRIPTOR_COMPLETE: Every record of ring `k`'s head descriptor is written (R304). -/
  | descriptorComplete (k : Nat)
  /-- RING_ENABLE: Word 0 of the entry of ring `k` is written with EN = 1 through DMA_RING (R301). -/
  | ringEnable (r : Req) (k v : Nat)
  /-- RING_DISABLE: Word 0 of the entry of ring `k` is written with EN = 0 through DMA_RING (R306). -/
  | ringDisable (r : Req) (k v : Nat)
  /-- PAGE_WALK_READ: The page-table entry that the walk has asked for, `ns` nanoseconds after the walk began (R309). -/
  | pageWalkRead (entry ns : Nat)
  /-- DMA_FAULT: A walk has found no leaf, or a hub read of a site (1 page walk, 2 descriptor, 4 image) went without its data (R311). -/
  | dmaFault (bad : Option CplBad) (site ring rid : Nat)
  /-- RESUME_RETRY: DMA_RESUME is written with OP 1 and GO (R313). -/
  | resumeRetry (r : Req) (cls id : Nat)
  /-- RESUME_DROP: DMA_RESUME is written with OP 2 and GO (R313). -/
  | resumeDrop (r : Req) (cls id : Nat)
  /-- PCIE_LINK_UP: The data link comes up at a rate and a width (R385). -/
  | pcieLinkUp (speed width : Nat)
  /-- BME_CLEAR: Bus Master Enable is cleared (R315). -/
  | bmeClear (rid : Nat)
  /-- DMA_LINK_RESUME: 1 is written to DMA_CTRL.RESUME (R315). -/
  | dmaLinkResume (r : Req) (v : Nat)
  /-- ATU_INVALIDATE: 1 is written to ATU_INV.GO with SCOPE (R310). -/
  | atuInvalidate (r : Req) (scope : Nat)
  /-- ATU_PROBE: ATU_PROBE is written (R320). -/
  | atuProbe (r : Req) (v : Nat)
  /-- ATU_ENABLE_CHANGE: ATU_CTRL.EN is written (R320). -/
  | atuEnableChange (r : Req) (en : Bool)
  /-- IMAGE_FETCH_GO: 1 is written to DMA_IMG_CTRL.GO with LEN (R316). -/
  | imageFetchGo (r : Req) (len : Nat)
  /-- IMAGE_FETCH_ABORT: 1 is written to DMA_IMG_CTRL.ABORT (R316). -/
  | imageFetchAbort (r : Req) (v : Nat)
  /-- IMAGE_FETCH_DONE: Every byte of the image fetch has come (R316). -/
  | imageFetchDone (bytes : List Byte)
  /-- PCIE_TLP_VIOLATION: A TLP that the hub drops, with the low bits of its requester's identity (R317). -/
  | pcieTlpViolation (bad : TlpBad) (rid : Nat)
  /-- PCIE_COMPLETION_TIMEOUT: A hub read of a site has no completion in time (R317). -/
  | pcieCompletionTimeout (site ring rid : Nat)
  /-- PCIE_RETRAIN: 1 is written to PCIE_CTRL.RETRAIN (R321). -/
  | pcieRetrain (r : Req) (v : Nat)
  /-- LDU_PTURN_ARM: 1 is written to LDU_PTURN_CTRL.ARM with PAGE and DOMAIN (R332). -/
  | lduPturnArm (r : Req) (v : Nat)
  /-- LDU_SLOT_COMPUTE: The drives of line slot `l` are computed; `turn`: it is the first slot after the armed turn (R326). -/
  | lduSlotCompute (l : Nat) (turn : Bool)
  /-- LDU_SLOT_START: Line slot `l` starts (R325). -/
  | lduSlotStart (l : Nat)
  /-- LDU_ON_TIME_END: The on-time of string `n` ends (R328). -/
  | lduOnTimeEnd (n : Nat)
  /-- LDU_OBSERVE: LCLK cycle 192 of an on-time of string `n`: the sense code, VS in mV, and whether the current is in regulation (R334). -/
  | lduObserve (n code v : Nat) (reg : Bool)
  /-- OVERCURRENT: OCP of string `n` in 8 switching cycles in a row (R334). -/
  | overcurrent (n : Nat)
  /-- CELL_RETRY: RETRY_S have passed since the fault of cell `e` (R334). -/
  | cellRetry (e : Nat)
  /-- STRING_CLEAR: 1 is written to LDU_SCTL.CLEAR of string `n` (R334). -/
  | stringClear (r : Req) (n v : Nat)
  /-- STRING_RETIRE_HOST: LDU_CTRL.RET_GO is written for string `n` (R335). -/
  | stringRetireHost (r : Req) (n key : Nat)
  /-- ARBITRATION_WINDOW: An arbitration window ends on DCLK cycle `cyc` after the latest strike (R345). -/
  | arbitrationWindow (cyc : Nat)
  /-- HEARTBEAT_TIMEOUT: HB_TIMEOUT_US have passed without a toggle of the holder's heartbeat (R346). -/
  | heartbeatTimeout (cyc : Nat)
  /-- PEN_COPY_DISAGREE: The arbiter copies are found as given (R348). -/
  | penCopyDisagree (a b c : PenCopy)
  /-- PEN_UNLOCK_KEY: PEN_UNLOCK is written with KEY 0x3C5A and GO 0 (R350). -/
  | penUnlockKey (r : Req) (who : Nat)
  /-- PEN_UNLOCK_GO: PEN_UNLOCK is written with GO (R350). -/
  | penUnlockGo (r : Req) (key who : Nat)
  /-- PEN_XFER_ARM: PEN_XFER is written with TO and GO (R358). -/
  | penXferArm (r : Req) (who : Nat)
  /-- PEN_XFER_DISARM: PEN_XFER is written with TO = 0 and GO (R358). -/
  | penXferDisarm (r : Req)
  /-- SLOT_START: A half's scribe starts its next slot; `bad`: the entry word fails its parity (R352). -/
  | slotStart (h : Side) (bad : Bool)
  /-- SCRIBE_TIMER: TIMER_US have passed on a half (R351). -/
  | scribeTimer (h : Side)
  /-- NOP: The scribe carries out NOP (R353). -/
  | scrNop (a : ScrAt)
  /-- END: The scribe carries out END (R353). -/
  | scrEnd (a : ScrAt)
  /-- JMP: The scribe carries out JMP (R353). -/
  | scrJmp (a : ScrAt)
  /-- JCC: The scribe carries out JCC (R353). -/
  | scrJcc (a : ScrAt)
  /-- CALL: The scribe carries out CALL (R353). -/
  | scrCall (a : ScrAt)
  /-- RET: The scribe carries out RET (R353). -/
  | scrRet (a : ScrAt)
  /-- LDI: The scribe carries out LDI (R353). -/
  | scrLdi (a : ScrAt)
  /-- LDIH: The scribe carries out LDIH (R353). -/
  | scrLdih (a : ScrAt)
  /-- ALU: The scribe carries out ALU (R353). -/
  | scrAlu (a : ScrAt)
  /-- ADDI: The scribe carries out ADDI (R353). -/
  | scrAddi (a : ScrAt)
  /-- RD: The scribe carries out RD (R353). -/
  | scrRd (a : ScrAt)
  /-- WR: The scribe carries out WR (R353). -/
  | scrWr (a : ScrAt)
  /-- WRI: The scribe carries out WRI (R353). -/
  | scrWri (a : ScrAt)
  /-- RMW: The scribe carries out RMW (R353). -/
  | scrRmw (a : ScrAt)
  /-- POLL: The scribe carries out the first read of POLL (R353). -/
  | scrPoll (a : ScrAt)
  /-- LDM: The scribe carries out LDM (R353). -/
  | scrLdm (a : ScrAt)
  /-- STM: The scribe carries out STM (R353). -/
  | scrStm (a : ScrAt)
  /-- LDX: The scribe carries out LDX (R353). -/
  | scrLdx (a : ScrAt)
  /-- STX: The scribe carries out STX (R353). -/
  | scrStx (a : ScrAt)
  /-- WAITS: The scribe carries out WAITS (R353). -/
  | scrWaits (a : ScrAt)
  /-- WAITS_DONE: The stroke mirror has reached the value that a WAITS waits for (R353). -/
  | scrWaitsDone (h : Side)
  /-- WAITT: The scribe carries out WAITT (R353). -/
  | scrWaitt (a : ScrAt)
  /-- WAITT_DONE: The MCLK cycles of a WAITT have passed (R353). -/
  | scrWaittDone (h : Side)
  /-- WAITE: The scribe carries out WAITE (R353). -/
  | scrWaite (a : ScrAt)
  /-- WAITE_DONE: The source of a WAITE is up, or its limit has passed (R353). -/
  | scrWaiteDone (h : Side)
  /-- MBXS: The scribe carries out MBXS (R353). -/
  | scrMbxs (a : ScrAt)
  /-- MBXG: The scribe carries out MBXG (R353). -/
  | scrMbxg (a : ScrAt)
  /-- HBEAT: The scribe carries out HBEAT (R353). -/
  | scrHbeat (a : ScrAt)
  /-- CLAIM: The scribe carries out CLAIM (R353). -/
  | scrClaim (a : ScrAt)
  /-- RELEASE: The scribe carries out RELEASE (R353). -/
  | scrRelease (a : ScrAt)
  /-- EVT: The scribe carries out EVT (R353). -/
  | scrEvt (a : ScrAt)
  /-- FAULT: The scribe carries out FAULT, or meets an undefined OP (R353, R355). -/
  | scrFault (a : ScrAt)
  /-- HALT: The scribe carries out HALT (R353). -/
  | scrHalt (a : ScrAt)
  /-- WATCHDOG_EXPIRY: WD_MS have passed on a half without HBEAT (R356). -/
  | watchdogExpiry (h : Side) (cyc : Nat)
  /-- HALF_BOOT: 1 is written to SCRx_CTRL.BOOT (R356). -/
  | halfBoot (r : Req) (h : Side) (v : Nat)
  /-- MBIN_PUSH: SCRx_MBIN_DATA is written (R357). -/
  | mbinPush (r : Req) (h : Side) (v : Nat)
  /-- MBIN_SEND: 1 is written to SCRx_MBIN_CTRL.SEND (R357). -/
  | mbinSend (r : Req) (h : Side)
  /-- MBIN_CLEAR: 1 is written to SCRx_MBIN_CTRL.CLEAR (R357). -/
  | mbinClear (r : Req) (h : Side)
  /-- BOOT_SELFTEST_DONE: SELFTEST of a half ends; `bad`: the ROM's CRC fails (R367). -/
  | bootSelftestDone (h : Side) (bad : Bool)
  /-- BOOT_LEDGER_DONE: A half has read the wear ledger (R89). -/
  | bootLedgerDone (h : Side)
  /-- BOOT_VERIFY_DONE: VERIFY of a half ends; `parity`: a word of the store failed its parity (R371). -/
  | bootVerifyDone (h : Side) (parity : Bool)
  /-- BOOT_APPLY_DONE: APPLY ends (R376). -/
  | bootApplyDone (h : Side) (parity : Bool)
  /-- BOOT_LOAD_DONE: LOAD of a half ends (R367). -/
  | bootLoadDone (h : Side) (cyc : Nat) (parity : Bool)
  /-- IMAGE_WINDOW_WRITE: Bytes are written to the image store by BAR4 or SYS_IMGW (R372). -/
  | imageWindowWrite (w : ImgBy)
  /-- IMAGE_SEAL: 1 is written to SYS_IMG_CTRL.SEAL (R372). -/
  | imageSeal (r : Req) (v : Nat)
  /-- IMAGE_OPEN: 1 is written to SYS_IMG_CTRL.OPEN (R372). -/
  | imageOpen (r : Req) (v : Nat)
  /-- EBOOT_DATA: A DATA message (R375). -/
  | ebootData (f : BootFrom) (x : EthRx) (xid ofs : Nat) (bytes : List Byte)
  /-- EVA_SOURCE_RISE: EVA serves source `n` (R384 to R387). -/
  | evaSourceRise (n : Nat)
  /-- VEC_GAP_EXPIRY: VEC_GAP_US have passed since a message of vector `v` (R385). -/
  | vecGapExpiry (v : Nat)
  /-- EVA_PEND_CLEAR: EVA_PEND`j` is written (R384). -/
  | evaPendClear (r : Req) (j m : Nat)
  /-- EVA_FORCE: EVA_FORCE`j` is written (R388). -/
  | evaForce (r : Req) (j m : Nat)
  /-- EVA_VEC_WRITE: EVA_EN`j` or EVA_VEC`j` is written (R385). -/
  | evaVecWrite (r : Req) (en : Bool) (j v : Nat)
  /-- TEST_GO: 1 is written to TEST_CFG.GO of instance `n` (R403). -/
  | testGo (r : Req) (n v : Nat)
  /-- TEST_STOP: 1 is written to TEST_CFG.STOP of instance `n`; `bits` and `errs`: what its checker has compared and found since the last count (R402). -/
  | testStop (r : Req) (n v bits errs : Nat)
  /-- STOP_ALL: 1 is written to TEST_CTRL.STOP_ALL (R409). -/
  | stopAll (r : Req) (v : Nat)
  /-- TEST_DURATION_END: DURATION_MS of instance `n` have passed (R402). -/
  | testDurationEnd (n bits errs : Nat)
  /-- EYE_SCAN_GO: 1 is written to TEST_EYE.GO (R409). -/
  | eyeScanGo (r : Req) (v : Nat)
  /-- SPI_UNKNOWN_COMMAND: An SPI frame whose command byte is not 0x02, 0x03 or 0x05 (R28). -/
  | spiUnknownCommand (cmd : Nat)
  /-- TSU_NOW_READ: TSU_NOW_S is read (R161). -/
  | tsuNowRead (r : Req)
  /-- CODE_VIOLATION: A code violation on lane `k` in its span number `span` of 2²⁰ words; `idle`: 256 words without an IDLE (R186). -/
  | codeViolation (k span : Nat) (idle : Bool)
  /-- CRC_FAILURE: A frame on lane `k` that fails its CRC (1), its length (2) or its TYPE (3) (R169). -/
  | crcFailure (k : Nat) (express : Bool) (seq reason : Nat)
  /-- POLL_DONE: A POLL ends after `n` further reads, or by POLL_US (R353). -/
  | scrPollDone (n : Nat) (a : ScrAt)
  /-- PCIE_RECOVERY: The link passes through Recovery (R317). -/
  | pcieRecovery (rid : Nat)
  /-- MSIX_UNMASK: The host unmasks a vector, or the function (R385). -/
  | msixUnmask (vec : Option Nat)
  /-- PCS_LOCK_LOSS: Port `p` loses block lock, or its bit error rate is high (R243). -/
  | pcsLockLoss (p : Nat) (hiBer : Bool) (errs : Nat)
  /-- PREEMPT_VERIFY_FAIL: 802.3br verification of port `p` fails or lapses (R235). -/
  | preemptVerifyFail (p : Nat)
  /-- PREEMPT_VERIFY_OK: 802.3br verification of port `p` succeeds (R235). -/
  | preemptVerifyOk (p : Nat)
  /-- ARP_RETRY: A next hop has not answered for ARP_RETRY_S (R246). -/
  | arpRetry (p : Nat) (ipv6 : Bool) (addr : Nat)
  /-- DRAM_REFRESH: A refresh of channel `c` falls due (R277). -/
  | dramRefresh (c : Nat)
  /-- MPR_TEMP_READ: MPR page 2 of channel `c` is read: the temperature status of ranks 0 and 1 (R277). -/
  | mprTempRead (c r0 r1 : Nat)
  /-- POWER_DOWN_ENTRY: A rank has been idle for PD_IDLE cycles (R278). -/
  | powerDownEntry (c rank : Nat)
  /-- SELF_REFRESH_ENTRY: Channel `c` begins self-refresh entry (R279). -/
  | selfRefreshEntry (c : Nat)
  /-- SELF_REFRESH_ENTRY_DONE: Self-refresh entry of channel `c` is complete (R280). -/
  | selfRefreshEntryDone (c : Nat)
  /-- SELF_REFRESH_EXIT: Self-refresh of channel `c` ends, `delay` DCLK cycles after a held request (R280). -/
  | selfRefreshExit (c delay : Nat)
  /-- REFRESH_WINDOW_END: A refresh window of channel `c` ends (R281). -/
  | refreshWindowEnd (c : Nat)
  /-- BAR2_WRITE: A BAR2 write (R285). -/
  | bar2Write (ofs len v rid : Nat)
  /-- PARK_TIMEOUT: PARK_MAX_MS have passed for class `c`, or 3 the image fetch (R314). -/
  | parkTimeout (c : Nat)
  /-- STARVE_TIMEOUT: STARVE_S have passed without a judgeable on-time of cell `e` (R336). -/
  | starveTimeout (e : Nat)
  /-- DIAG_PULSE: A diagnostic pulse of cell `e`, with its observation (R337). -/
  | diagPulse (e code v : Nat) (reg : Bool)
  /-- TIN_STALE_TIMEOUT: TIN_STALE_S have passed without a result of temperature input `k` (R329). -/
  | tinStaleTimeout (k : Nat)
  /-- EBOOT_SPEED_TRY: A second of link search ends; `ports` has a bit per port with block lock (R375). -/
  | ebootSpeedTry (ports : Nat)
  /-- EBOOT_OFFER: An OFFER of an image of `len` bytes (R375). -/
  | ebootOffer (f : BootFrom) (x : EthRx) (xid len : Nat)
  /-- EBOOT_READ_TIMEOUT: 10 ms have passed since the READ of offset `ofs` (R375). -/
  | ebootReadTimeout (ofs : Nat)
  /-- EYE_SCAN_DONE: The dwell of an eye-scan point ends (R409). -/
  | eyeScanDone (mismatch : Nat)
  /-- JTAG_INSTRUCTION: A JTAG instruction is loaded, of code `ir` (R407). -/
  | jtagInstruction (ins : JtagIns) (ir : Nat)
  /-- CHECKER_LOCK: The checker of instance `n` has had 64 bits in a row without error (R402). -/
  | checkerLock (n : Nat)
  /-- CHECKER_LOCK_LOSS: More than 32 of 256 bits of instance `n` were in error (R402). -/
  | checkerLockLoss (n bits errs : Nat)
  /-- ERR_STOP: ERRORS of instance `n` has reached ERR_STOP (R402). -/
  | errStop (n bits errs : Nat)
  /-- ARP_AGE_EXPIRY: A resolved next hop is ARP_AGE_S old (R246). -/
  | arpAgeExpiry (ipv6 : Bool) (addr : Nat)
  /-- PORST_N_ASSERT: PORST_N is pulled low for 10 µs or longer: the whole hub is reset and stays so until its release (R365). -/
  | porstNAssert
  /-- REFIN_LOSS: REFIN is lost (R417). -/
  | refinLoss
  /-- REFIN_RETURN: A valid REFIN returns (R417). -/
  | refinReturn
  /-- ACQUISITION_WINDOW: The acquisition window opens, 16 DCLK cycles before a strike (R45, R54, R100). -/
  | acquisitionWindow
  /-- STROKE_FRAME_LAUNCH: DCLK cycle 32 + 32R: the coarse stroke frames leave (R229). -/
  | strokeFrameLaunch
  /-- HALF_DISCARD_TIMEOUT: 1,024 DCLK cycles have passed since a low half was held (R25). -/
  | halfDiscardTimeout
  /-- TRIM_SCHEDULE: PERIOD_S seconds of strokes have passed (R98). -/
  | trimSchedule
  /-- TRIM_MIN_GAP_EXPIRY: MIN_GAP_S seconds have passed since the end of the last run (R98). -/
  | trimMinGapExpiry
  /-- TRIM_INITIAL_RUN: The initial trim run is due on the coming stroke (R377). -/
  | trimInitialRun
  /-- TRIM_RUN_START: The stroke after a trigger: the run starts (R98 to R100). -/
  | trimRunStart
  /-- TRIM_FE_PART_END: The front-end part has run its strokes (R100). -/
  | trimFePartEnd
  /-- TRIM_RUN_END: NIB_DONE has reached W and the front-end part is done (R100). -/
  | trimRunEnd
  /-- PEEK_CAPTURE: The values that an armed peek waits for are there (R133). -/
  | peekCapture
  /-- JOIN_RETRY: 2²⁰ strokes have passed since a refusal (R172). -/
  | joinRetry
  /-- ILK_LOCK_ACQUIRED: The stroke PLL has acquired the chosen lane's clock (R173). -/
  | ilkLockAcquired
  /-- ILK_MEASURE_DONE: 2^AVG marks and a DELAY have been averaged (R173). -/
  | ilkMeasureDone
  /-- PLACEMENT_UPDATE: 2^AVG strokes have passed in JOINED (R176). -/
  | placementUpdate
  /-- REVERT_TIMER: PREF_LANE has been acceptable for 2²⁰ strokes (R180). -/
  | revertTimer
  /-- BACKUP_TAKEOVER: A backup root has looked for a parent for WAIT_MS (R181). -/
  | backupTakeover
  /-- TIME_FRAME_TIMEOUT: Two intervals have passed without a TIME frame (R183). -/
  | timeFrameTimeout
  /-- CMDQ_NOP: The executor reaches a NOP (R254). -/
  | cmdqNop
  /-- CMDQ_REPLAY: The executor reaches a REPLAY (R254). -/
  | cmdqReplay
  /-- CMDQ_CANCEL: The executor reaches a CANCEL (R254). -/
  | cmdqCancel
  /-- CMDQ_STATUS: The executor reaches a STATUS (R254). -/
  | cmdqStatus
  /-- FREEZE_TIMEOUT: FREEZE_S seconds have passed since a freeze (R285). -/
  | freezeTimeout
  /-- PCIE_LINK_DOWN: The data link goes down (R315). -/
  | pcieLinkDown
  /-- PCIE_HOT_RESET: A hot reset (R300). -/
  | pcieHotReset
  /-- PCIE_FLR: A function-level reset (R300). -/
  | pcieFlr
  /-- PCIE_D3HOT_ENTRY: The function enters D3hot (R315). -/
  | pcieD3hotEntry
  /-- ATU_INVALIDATE_DONE: The invalidation in progress ends (R310). -/
  | atuInvalidateDone
  /-- IMAGE_FETCH_PARK_TIMEOUT: A parked fetch has waited LOAD_MS (R372). -/
  | imageFetchParkTimeout
  /-- EBOOT_SOLICIT: A second of soliciting has passed (R375). -/
  | ebootSolicit
  /-- MON_SECOND: A second passes (R395). -/
  | monSecond
  /-- LOOPBACK_FOLLOWER_ENTRY: The PCIe partner directs Loopback (R403). -/
  | loopbackFollowerEntry
  /-- LOOPBACK_FOLLOWER_EXIT: The PCIe partner ends Loopback (R408). -/
  | loopbackFollowerExit
  /-- BME_SET: Bus Master Enable is set (R385). -/
  | bmeSet
  /-- CONVENTIONAL_RESET: PCIE_PERST_N asserts (R300). -/
  | conventionalReset
  deriving DecidableEq, Repr

end Sys2Proof
end

