-- ==== Sys2Proof/Config.lean ====
section
/-!
DEFINITION. What the spec leaves to the part or leaves open, as constants without a body: nothing can be proved of their values,
so a statement about the hub holds for every one of them. Each is named in a log entry.
-/

namespace Sys2Proof.Config

/-- A fresh free value each time: the model applies it to a counter of the state (log entry 3). -/
opaque freeWord : Nat → Word

/-- A coefficient of a ROM response, signed Q1.23: response, index. The spec gives the responses' characteristics and not their
coefficients, but for the boxcars (R119; log entry 4). -/
opaque romCoef : Nat → Nat → BitVec 24

/-- The pseudo-random signs of the front-end correlation: channel, stroke; true for −1 (R100; log entry 5). -/
opaque swapSign : Nat → Nat → Bool

/-- The second, independent sign. -/
opaque injSign : Nat → Nat → Bool

/-- The SHA-384 digest of a run of bytes (R371; log entry 6). -/
opaque sha384 : List Byte → BitVec 384

/-- What a fuse key slot holds: the SHA-384 of a public key (R371; log entry 6). -/
opaque fuseKey : Nat → BitVec 384

/-- ECDSA P-384 verification: public key X ‖ Y, digest, signature r ‖ s (R371; log entry 6). -/
opaque ecdsaVerify : List Byte → BitVec 384 → List Byte → Bool

/-- The AES-GMAC tag of a frame under a key and a nonce (R217; log entry 6). -/
opaque gmac : Wide → Nat → List Byte → BitVec 128

end Sys2Proof.Config
end

