-- ==== Sys2Proof/Machine/Bits.lean ====
section
/-!
DEFINITION. Bit fields, signed readings and saturation over natural numbers below a power of two.
-/

namespace Sys2Proof.Machine

/-- `w` bits of `v` from bit `lo` on. -/
def slice (lo w v : Nat) : Nat := (v >>> lo) % 2 ^ w

/-- Bit `i` of `v`, 0 or 1. -/
def bit (v i : Nat) : Nat := slice i 1 v

/-- Whether bit `i` of `v` is 1. -/
def bitSet (v i : Nat) : Bool := bit v i == 1

/-- `v` with bit `i` made 1. -/
def setBit (v i : Nat) : Nat := v ||| (1 <<< i)

/-- `v` with bit `i` made 0. -/
def clrBit (v i : Nat) : Nat := if bitSet v i then v - 1 <<< i else v

/-- `v` with the bits of `m` made 0. -/
def clrBits (v m : Nat) : Nat := v - (v &&& m)

/-- The `w`-bit number `v` read as two's complement. -/
def asInt (w v : Nat) : Int := if bitSet v (w - 1) then (v % 2 ^ w : Nat) - (2 ^ w : Nat) else (v % 2 ^ w : Nat)

/-- The `w`-bit two's complement of an integer, its bits above dropped. -/
def ofInt (w : Nat) (x : Int) : Nat := (x % (2 ^ w : Nat)).toNat

/-- An integer held to `lo … hi`. -/
def clampInt (lo hi x : Int) : Int := if x < lo then lo else if hi < x then hi else x

/-- An integer held to the signed `w`-bit range. -/
def clampSigned (w : Nat) (x : Int) : Int := clampInt (-(2 ^ (w - 1) : Nat)) ((2 ^ (w - 1) : Nat) - 1) x

/-- A number held to the span a field states (R7). -/
def clampSpan (sp : Option (Nat × Nat)) (v : Nat) : Nat :=
  match sp with
  | none => v
  | some (lo, hi) => if v < lo then lo else if hi < v then hi else v

/-- The largest `w`-bit number, where saturating counters stop. -/
def ones (w : Nat) : Nat := 2 ^ w - 1

/-- A `w`-bit counter that saturates at all ones. -/
def satAdd (w v n : Nat) : Nat := if v + n < ones w then v + n else ones w

/-- Round to nearest, ties away from zero, of `x / 2 ^ n`. -/
def roundShift (n : Nat) (x : Int) : Int :=
  if n = 0 then x else
  let h : Int := (2 ^ (n - 1) : Nat)
  if x < 0 then -((-x + h) / (2 ^ n : Nat)) else (x + h) / (2 ^ n : Nat)

/-- The smallest number of units of `b` that covers `a`; 0 where `b` is 0. -/
def ceilDiv (a b : Nat) : Nat := if b = 0 then 0 else (a + b - 1) / b

/-- The positions below `n` at which `p` holds. -/
def indicesWhere (n : Nat) (p : Nat → Bool) : List Nat := (List.range n).filter p

/-- How many bits of the low `n` of `v` are 1. -/
def popCount (n v : Nat) : Nat := (indicesWhere n (bitSet v)).length

/-- The number whose set bits are those in the list. -/
def bitsOf : List Nat → Nat
  | [] => 0
  | i :: rest => setBit (bitsOf rest) i

/-- The `i`th element, or `d` past the end. -/
def nth (d : β) : List β → Nat → β
  | [], _ => d
  | a :: _, 0 => a
  | _ :: rest, i + 1 => nth d rest i

/-- The list with `f` done to its `i`th element. -/
def modNth (f : β → β) : List β → Nat → List β
  | [], _ => []
  | a :: rest, 0 => f a :: rest
  | a :: rest, i + 1 => a :: modNth f rest i

end Sys2Proof.Machine
end

