-- ==== Sys2Proof/Machine/Map.lean ====
section
/-!
DEFINITION. Sparse tables. A table from a Nat key to a value is a list of (key, value) pairs with the keys strictly rising and
no entry equal to what an unlisted key reads as (`d`), so that equal tables are equal lists.
`mget` and `mput` keep that form; `mwf` says that it holds.
-/

namespace Sys2Proof.Machine

/-- A sparse table: pairs of a key and a value, keys rising. -/
abbrev Table (β : Type) := List (Nat × β)

/-- What the table holds at a key; `d` says what an unlisted key reads as. -/
def mget (d : Nat → β) : Table β → Nat → β
  | [], k => d k
  | (a, b) :: rest, k => if k < a then d k else if k = a then b else mget d rest k

/-- The entries past a key. -/
def mdrop (k : Nat) : Table β → Table β
  | [] => []
  | (a, b) :: rest => if a ≤ k then mdrop k rest else (a, b) :: rest

/-- The table with `v` at `k`; the entry goes when `v` is what an unlisted key reads as. -/
def mput [DecidableEq β] (d : Nat → β) (k : Nat) (v : β) : Table β → Table β
  | [] => if v = d k then [] else [(k, v)]
  | (a, b) :: rest =>
    if a < k then (a, b) :: mput d k v rest
    else
      let tail := if a = k then mdrop k rest else (a, b) :: rest
      if v = d k then tail else (k, v) :: tail

/-- The keys rise from `lo` on and no entry equals what an unlisted key reads as. -/
def mwfFrom [DecidableEq β] (d : Nat → β) : Nat → Table β → Bool
  | _, [] => true
  | lo, (a, b) :: rest => decide (lo ≤ a) && decide (b ≠ d a) && mwfFrom d (a + 1) rest

/-- The canonical form of a table. -/
def mwf [DecidableEq β] (d : Nat → β) (m : Table β) : Bool := mwfFrom d 0 m

/-- What an unlisted key of a table of natural numbers reads as, where nothing else is said. -/
def zeroAt (_ : Nat) : Nat := 0

/-- What an unlisted entry of a table of 128-bit words reads as. -/
def wideZero (_ : Nat) : Wide := 0

/-- What a byte that nothing has written reads as (log entry 2). -/
def byteZero (_ : Nat) : Byte := 0

end Sys2Proof.Machine
end

