-- ==== Sys2Proof/Machine/State.lean ====
section
/-!
DEFINITION. The state of the hub, as plain data: every register field in a sparse table (`regs`; `live` for the live values of the
fields that commit on a stroke; `shad` for shadows),
and beside it, block by block, the state the spec gives the hub that no register shows. `State.reset` is the hub right after
the release of PORST_N.
-/

namespace Sys2Proof.Machine

/-- A named register field: the bit address of its lowest bit in BAR0 (past a base of its own where the field commits on a
stroke), and its width. -/
structure Fld where
  key : Nat
  width : Nat
  deriving DecidableEq, Repr

/-- The reasons for which a step of the hub stops. The spec gives every command of the table an effect, so no meaning raises
one; the type is here because the interface asks for it. -/
inductive Fault where
  /-- Raised by no meaning. Safe: it would only stop a run. -/
  | stuck
  deriving DecidableEq, Repr

/-- The reasons for which a command has no meaning here. -/
inductive Refusal where
  /-- A command whose arm has no meaning yet, by its mnemonic. Safe: nothing is proved of it. -/
  | notModelled (mnemonic : String)
  deriving DecidableEq, Repr

/-! ### Samples and words -/

/-- One value on its way through the hub: a signed number on the Q1.31 scale (R51), the flags of the tagged word
(bit 0 OVR, 1 NBR, 2 OPEN, 3 SETTLE, 4 FILL, 5 SKIP: R70) and the range it was taken in. -/
structure Samp where
  v : Int := 0
  fl : Nat := 0
  rng : Nat := 0
  deriving DecidableEq, Repr

/-- A fine or coarse word with its channel, tap, index and stamp (R62, R93, R115, R120, R128). -/
structure TagWord where
  chan : Nat
  tap : Nat
  seq : Nat
  s : Samp
  /-- The input instant in 1/65,536 ns of TAI. -/
  stamp : Nat
  deriving DecidableEq, Repr

/-! ### The register spine (R25, R28, R36 to R40) -/

/-- The half-access state of BAR0 (R25) and the SPI target's queue and counts (R28). -/
structure Spine where
  /-- A held low half: the register's offset and the half. -/
  hold : Option (Nat × Nat) := none
  /-- A latched high half: the register's offset and the half. -/
  latch : Option (Nat × Nat) := none
  /-- SPI writes accepted and not yet served: offset and value. -/
  spiQueue : List (Nat × Nat) := []
  served : Nat := 0
  refused : Nat := 0
  /-- REFUSED at the previous status-only frame. -/
  refusedSeen : Nat := 0
  /-- Open key windows: page, requester and the DCLK cycle at which the window ends (R36). -/
  keys : List (Nat × Requester × Nat) := []
  deriving DecidableEq, Repr

/-- A shadow write that a seal holds (R39). -/
structure HeldWrite where
  off : Nat
  val : Nat
  deriving DecidableEq, Repr

/-- One of the commit sets CS0 to CS7 (R37 to R40). -/
structure CommitSet where
  armed : Option Nat := none
  isSealed : Bool := false
  /-- The stroke of the last commit. -/
  last : Nat := 0
  /-- A write to COMMIT_STROKE made while sealed, applied after the commit; with the page it came through. -/
  deferred : List (Nat × Nat) := []
  held : List HeldWrite := []
  deriving DecidableEq, Repr

/-! ### Front end (R52 to R57) and slow lanes (R58 to R63) -/

/-- What the monitor of a fast channel remembers. -/
structure ChanFe where
  /-- Consecutive strikes that found a pin outside its window. -/
  outRun : Nat := 0
  /-- Consecutive strikes inside the window while OPEN. -/
  inRun : Nat := 0
  /-- The first stroke whose words carry OPEN. -/
  openFrom : Nat := 0
  /-- Words of strokes below this one carry SETTLE. -/
  settleUntil : Nat := 0
  deriving DecidableEq, Repr

/-- How the fast channels' inputs are switched (R54, R100): the range of each PGA, and the channels swapped and injected for trim. -/
structure Acq where
  gains : Table Nat := []
  swapped : List Nat := []
  injected : List Nat := []
  deriving DecidableEq, Repr

/-- What a front-end group remembers of its reference buffer and its VREFG. -/
structure GroupFe where
  /-- Bit i: channel i of the group carries NBR. -/
  nbrMask : Nat := 0
  /-- The last stroke on which a channel of the group was overranged. -/
  lastOvr : Nat := 0
  /-- Whether a channel was overranged on the previous stroke. -/
  prevOvr : Bool := false
  /-- The stroke whose VREFG is in use. -/
  refgStroke : Nat := 0
  deriving DecidableEq, Repr

/-- The stage a slow lane's scan step is in (R60). -/
inductive ScanStage | idle | mux | check | settle | window1 | sense | window2 | cal
  deriving DecidableEq, Repr

/-- One of the four slow lanes. -/
structure Lane where
  stage : ScanStage := .idle
  /-- The channel being measured, 0 to 15 within the lane. -/
  ch : Nat := 0
  /-- Passes of the lane, for SLOW_TIME.EVERY. -/
  pass : Nat := 0
  /-- The stroke on which window 1 began. -/
  w1Start : Nat := 0
  /-- The stroke on which window 1 ended. -/
  w1End : Nat := 0
  /-- The window's integrators and combs, the conversions it has had, its last output and whether one overranged. -/
  ints : List Nat := []
  prevs : List Nat := []
  convs : Nat := 0
  sum : Int := 0
  sat : Bool := false
  /-- The result of window 1, on the Q1.31 scale, with OVR if it overranged. -/
  w1 : Samp := {}
  /-- Whether the source left compliance during a window of the step. -/
  compl : Bool := false
  /-- The outcome of the step's open check, as in SLOW_STATUS.CHECK. -/
  chk : Nat := 0
  /-- Windows of the calibration step still to run, and whether one is due after this step (R104). -/
  calLeft : Nat := 0
  calDue : Bool := false
  deriving DecidableEq, Repr

/-! ### Nib pool (R72 to R93) -/

/-- What the hub remembers of one nib beyond its registers. -/
structure NibSt where
  /-- Conversions made since power-up. -/
  convs : Nat := 0
  /-- The conversion numbers at which the decisions left the redundancy range, newest first (R84). -/
  rdoAt : List Nat := []
  /-- Parity failures of its weights since power-up. -/
  parity : Nat := 0
  /-- Its latest corrected DX00 result, once it has one. -/
  dx00 : Option Int := none
  /-- The stroke of its last passing check. -/
  lastPass : Nat := 0
  /-- Trim values it has converted in the run in progress (R100). -/
  trimVals : Nat := 0
  /-- Consecutive trim runs that rejected it. -/
  trimFails : Nat := 0
  deriving DecidableEq, Repr

/-- An entry on its way into the wear ledger: the entry, whether it is the retry, and the page that reports it. -/
structure LedgerReq where
  entry : Nat
  retry : Bool := false
  deriving DecidableEq, Repr

/-- The nib pool. -/
structure Nibs where
  st : Table NibSt := []
  /-- Requests decided and not yet in effect: the nib, the operation (1 retire, 2 park, 3 unpark) and the reason (R85, R87). -/
  retiring : List (Nat × Nat × Nat) := []
  /-- Whether the boot ROM has read the ledger and the pool stands (R89); whether a joining reserve with its seeds asks for a trim run. -/
  built : Bool := false
  joinSeeded : Bool := false
  /-- Whether NIB_ROT has been written since the last commit (R76). -/
  rotFresh : Bool := false
  /-- The randomised rotation's LFSR (R76). -/
  lfsr : Nat := 0xACE1
  /-- The nib that the next check takes, and whether the pass checks ground (R84). -/
  checkNext : Nat := 0
  checkGnd : Bool := false
  /-- Whether the check of the present stroke has been made. -/
  checkDone : Bool := false
  /-- The group from which the present stroke's REFG conversions start, and from which the next stroke's do (R78). -/
  refgFrom : Nat := 0
  refgNext : Nat := 0
  /-- First results of values converted twice, by channel, and whether it had sat = 1 (R82). -/
  firstY : Table Int := []
  firstSat : List Nat := []
  /-- Groups shed on the present slot table, bit g. -/
  shed : Nat := 0
  /-- The wear ledger's entries, and the writes on their way to it (R88, R89). -/
  ledger : Table Nat := []
  ledgerQ : List LedgerReq := []
  /-- DX averaging (R93): the channel being converted, how many conversions it has had, and their sum. -/
  dxCh : Nat := 0
  dxN : Nat := 0
  dxSum : Int := 0
  dxFirst : Nat := 0
  /-- Latest result of each DX channel on the Q1.31 scale, once it has one, and the results counted. -/
  dxVal : Table Int := []
  dxHas : Nat := 0
  dxCount : Table Nat := []
  deriving DecidableEq, Repr

/-! ### Trim (R97 to R110) -/

/-- The correlation sums of one channel (R100). -/
structure Corr where
  so : Int := 0
  st : Int := 0
  ss : Int := 0
  n : Nat := 0
  /-- The last two step-5 values, newest first, and whether they were free of flags. -/
  y1 : Int := 0
  y2 : Int := 0
  /-- Samples in a row without a flag. -/
  clean : Nat := 0
  deriving DecidableEq, Repr

/-- Results waiting for their commit (R107, R108). -/
structure Staged where
  /-- Nib, OFS, GAIN, LIN_RES. -/
  nibs : List (Nat × Nat × Nat × Nat) := []
  /-- Weight index (22 × nib + decision) and value. -/
  wts : List (Nat × Nat) := []
  /-- Front-end index (4 × entry + range), offset and gain. -/
  fe : List (Nat × Nat × Nat) := []
  /-- Excitation source and its measured current. -/
  exc : List (Nat × Nat) := []
  /-- Reference temperatures, as TRIM_TEMPREF holds them, and the board value. -/
  temps : List Nat := []
  board : Option Int := none
  /-- The start stroke of the run, for the schedule. -/
  start : Nat := 0
  /-- Its place in TRIM_HIST. -/
  hist : Nat := 0
  deriving DecidableEq, Repr

/-- Trim. -/
structure Trim where
  /-- Live decision weights by 22 × nib + decision. -/
  wt : Table Nat := []
  /-- Live front-end and lane offsets and gains by 4 × entry + range (TRIM_FE_DATA). -/
  feOfs : Table Nat := []
  feGain : Table Nat := []
  /-- Runs since measured, by 4 × entry + range; 255 for a seed. -/
  age : Table Nat := []
  /-- Runs started since power-up, and trim nib-slots used on the present stroke. -/
  runNo : Nat := 0
  used : Nat := 0
  /-- The trigger that waits to start a run on the next stroke, by cause. -/
  due : Option Nat := none
  /-- The held trigger behind TRIM_STATUS.PENDING. -/
  held : Nat := 0
  /-- Start stroke of the run in progress, and of the front-end part. -/
  start : Nat := 0
  /-- The stroke on which the last run ended, once one has. -/
  lastEnd : Option Nat := none
  /-- The later of the starts that cause 3 counts from, once a run has started (R98). -/
  schedFrom : Option Nat := none
  /-- Whether the front-end part of the run in progress runs, and how many strokes it lasts. -/
  feOn : Bool := false
  feLen : Nat := 0
  /-- HOLD and GRP_EN as they stood at its start (R112). -/
  hold : Bool := false
  grp : Nat := 0
  /-- Whether a run has committed since power-up. -/
  committed : Bool := false
  /-- The board value of the last committed run (R98). -/
  boardRef : Option Int := none
  /-- The run's own references (R99): temperatures as in TRIM_TEMPREF, 0x200 where there is none. -/
  temps : List Nat := [0x200, 0x200, 0x200, 0x200, 0x200, 0x200]
  board : Option Int := none
  corr : Table Corr := []
  staged : Option Staged := none
  deriving DecidableEq, Repr

/-! ### Filter engine (R113 to R131) -/

/-- One stage of a running chain. -/
structure StageSt where
  /-- CIC integrators and comb memories, 64-bit and wrapping. -/
  ints : List Nat := []
  prevs : List Nat := []
  /-- The newest inputs first, as many as the stage's span. -/
  hist : List Samp := []
  deriving DecidableEq, Repr

/-- A chain at work: its descriptor, the stroke it last started from zero state, and its stages. -/
structure Chain where
  desc : Nat := 0
  start : Nat := 0
  stages : List StageSt := []
  deriving DecidableEq, Repr

/-- A flourish in progress (R130): the incoming chain, its length, and its first fade output. -/
structure Flourish where
  inc : Chain
  len : Nat
  fade0 : Nat
  deriving DecidableEq, Repr

/-- The coarse window of a channel: its last samples, newest first, and the stroke of the newest. -/
structure Window where
  hist : List Samp := []
  last : Nat := 0
  deriving DecidableEq, Repr

/-- The filter engine. -/
structure Filt where
  /-- Running chains by channel. -/
  chains : Table Chain := []
  flour : Table (Option Flourish) := []
  /-- Queued requests: descriptor and length, by channel (R131). -/
  queued : Table (Option (Nat × Nat)) := []
  /-- Chain descriptors, live and shadow, by 4 × entry + word (R121). -/
  desc : Table Wide := []
  descSh : Table Wide := []
  /-- The armed synchronising reset, and the writes that its seal makes wait: whether for the domain, and the stroke (R125). -/
  syncArmed : Option Nat := none
  syncDeferred : List (Bool × Nat) := []
  /-- Whether FLT_FLR_REQ holds a fresh request (R129). -/
  fresh : Bool := false
  /-- The last samples of each channel, newest first, at most four (R115). -/
  coarse : Table Window := []
  /-- The stroke from which an armed peek captures (R133). -/
  peek : Option Nat := none
  /-- The words of the present stroke that wait for its closure. -/
  words : List TagWord := []
  deriving DecidableEq, Repr

/-! ### Time (R135 to R159) -/

/-- The time-stamp unit. -/
structure Tsu where
  /-- TSU time in 2⁻⁴⁸ ns since the PTP epoch at DCLK cycle `cyc` of the present stroke: SECONDS, NS, FRAC and the accumulator
  below FRAC as one number (R135). -/
  t : Nat := 0
  cyc : Nat := 0
  /-- t(s) of the latest strike (R136). -/
  strike : Nat := 0
  /-- Whether time has once been set (R145). -/
  valid : Bool := false
  /-- Offsets that await confirmation as a jump, in 2⁻¹⁶ ns (R146). -/
  cand : List Int := []
  /-- The servo's integrator in 2⁻³² ns, the applied rates, newest first, and samples in a row within LOCK_NS (R144, R145). -/
  integ : Int := 0
  rates : List Int := []
  lockRun : Nat := 0
  deriving DecidableEq, Repr

/-- A foreign master (R142). -/
structure Foreign where
  /-- The sender's clockIdentity and port number, and the hub's port it came in on. -/
  id : Nat
  num : Nat
  port : Nat
  gm : GmData
  steps : Nat
  twoStep : Bool
  logInt : Int
  /-- The stroke of its latest Announce. -/
  last : Nat
  qualified : Bool
  /-- Its currentUtcOffset, leap flags and whether the offset is valid. -/
  utc : Nat
  l61 : Bool
  l59 : Bool
  utcValid : Bool
  deriving DecidableEq, Repr

/-- The PTP clock. -/
structure Ptp where
  /-- Foreign masters by their entry 0 to 7. -/
  masters : Table (Option Foreign) := []
  sel : Option Nat := none
  /-- A Sync that awaits its Follow_Up: sequenceId, t2, correction, interval. -/
  sync : Option (Nat × Int × Int × Int) := none
  /-- The last Sync's t1, t2 and correction, for the end-to-end exchange. -/
  t1 : Int := 0
  t2 : Int := 0
  cs : Int := 0
  /-- A Delay_Req in flight: sequenceId and departure; and the next sequenceId. -/
  dreq : Option (Nat × Int) := none
  seq : Nat := 0
  /-- A Pdelay_Req in flight, and a two-step response's times and correction. -/
  pdreq : Option (Nat × Int) := none
  pdresp : Option (Nat × Int × Int × Int × Int) := none
  /-- Whether a path delay has been accepted (R143). -/
  hasD : Bool := false
  /-- PTP messages in the present second, and whether limiting has begun in it (R141). -/
  pps : Nat := 0
  limiting : Bool := false
  deriving DecidableEq, Repr

/-- A time output at work (R155 to R157). -/
structure Tout where
  /-- The next leading edge, in 2⁻¹⁶ ns. -/
  next : Nat := 0
  /-- A pulse in progress. -/
  high : Bool := false
  deriving DecidableEq, Repr

/-! ### Inkline (R164 to R190) -/

/-- A frame: its TYPE and its payload words (R168). -/
structure IlkFrame where
  typ : Nat
  words : List Nat
  deriving DecidableEq, Repr

/-- A frame that awaits its ACK, and how often it has been sent again (R169). -/
structure IlkTx where
  seq : Nat
  frame : IlkFrame
  resends : Nat
  deriving DecidableEq, Repr

/-- One class of frames on one lane: the next SEQ, what awaits its ACK, what waits for room, and the SEQs of the last eight frames
received. -/
structure IlkChan where
  next : Nat := 0
  unacked : List IlkTx := []
  waiting : List IlkFrame := []
  seen : List Nat := []
  deriving DecidableEq, Repr

/-- One lane. -/
structure IlkLane where
  express : IlkChan := {}
  bulk : IlkChan := {}
  /-- φ of the marks received since the last mean, their sum, and the stroke of the last. -/
  phiN : Nat := 0
  phiSum : Int := 0
  phiStroke : Nat := 0
  phiHas : Bool := false
  /-- The last SN received, and marks missed in a row (R178). -/
  lastSn : Option Nat := none
  miss : Nat := 0
  /-- The neighbour's last HELLO (R168). -/
  hello : Option Hello := none
  /-- HELLO frames in the present span of 1,024 strokes, and its number (R186). -/
  hellos : Nat := 0
  helloSpan : Nat := 0
  /-- CARRY and PATH of the last DELAY, once one has come. -/
  carry : Int := 0
  path : Nat := 0
  delayHas : Bool := false
  /-- Code violations in the present span of 2²⁰ words, and its number (R186). -/
  codes : Nat := 0
  codeSpan : Nat := 0
  deriving DecidableEq, Repr

/-- Inkline. -/
structure Ilk where
  lanes : Table IlkLane := []
  /-- The EPOCH of the last join, if the hub has ever joined (R171). -/
  lastEpoch : Option Nat := none
  /-- The placement that the coming join will take, in 2⁻¹⁶ ns: x of R175. -/
  x : Int := 0
  /-- Interpolator steps still to slew (R176), and the stroke on which ALIGNING began. -/
  slew : Int := 0
  alignFrom : Nat := 0
  /-- The topology table of the root by HUB_ID, and the lane behind which a hub was heard (R172). -/
  topo : Table Wide := []
  route : Table Nat := []
  /-- The root's last 16 broadcasts, newest first (R185). -/
  sent : List Bcast := []
  /-- The TIME frame that waits for its stroke (R183). -/
  load : Option TimeFrame := none
  deriving DecidableEq, Repr

/-! ### The record: rubrics, rings and captures (R192 to R208, R264 to R291) -/

/-- What a stroke hands to its closure (R199): its number, t(s) in 2⁻¹⁶ ns, STEPS and the state flags of its anchors (bit 0
HOLDOVER, 1 UNSET, 2 FREE), its rubric words in order, and its sample words. -/
structure Rec where
  stroke : Nat
  strike : Nat
  steps : Nat
  tfl : Nat
  rub : List Nat
  samples : List TagWord
  deriving DecidableEq, Repr

/-- The trigger units. -/
structure Trg where
  /-- Units primed for rising and for falling edges, bit n (R193). -/
  rise : Nat := 0
  fall : Nat := 0
  /-- Values still to come in a unit's hold-off (R194). -/
  hold : Table Nat := []
  /-- Rubric words of the present stroke, and remote ones since the last closure. -/
  here : List Nat := []
  /-- The anchor flags of the present stroke's strike (R150). -/
  tfl : Nat := 2
  remote : List Nat := []
  /-- Strokes that have been struck past and not closed yet, oldest first. -/
  closing : List Rec := []
  deriving DecidableEq, Repr

/-- What a capture slot remembers beyond its record: POST of its profile. -/
structure CapSlot where
  post : Nat := 0
  deriving DecidableEq, Repr

/-- A segment of a ring: its first and last stroke, the bytes in use, its lost ranges of strokes, and whether all of it is lost
(R268, R284). -/
structure Seg where
  first : Nat
  last : Nat
  used : Nat
  lost : List (Nat × Nat) := []
  whole : Bool := false
  deriving DecidableEq, Repr

/-- A ring: the stroke on which it started empty (R271), its segments, oldest first, the bytes written since then, its anchors by
16 × channel + tap (time in ns, STEPS), and the ranges marked as not accepted (R276). -/
structure Ring where
  start : Nat := 0
  segs : List Seg := []
  wptr : Nat := 0
  anch : Table (Nat × Nat) := []
  gaps : List (Nat × Nat) := []
  deriving DecidableEq, Repr

/-- A DRAM row, with the device suspected (R289). -/
structure DRow where
  rank : Nat
  bg : Nat
  ba : Nat
  row : Nat
  dev : Nat
  deriving DecidableEq, Repr

/-- A DDR4 channel beyond its registers. -/
structure DdrCh where
  /-- Write pointers of the rings when it left write service (R274), and whether it comes from FAILED (R288). -/
  left : List Nat := []
  failed : Bool := false
  /-- DX15 in °C at the last training, once there was one (R287). -/
  trainC : Option Int := none
  /-- Strokes of its freezes (R283), and the frozen row where the cause lies in one. -/
  freezes : List Nat := []
  row : Option DRow := none
  /-- Rows pending hPPR, and sPPR in use by rank, device and bank group (R289). -/
  pend : List DRow := []
  sppr : List (Nat × Nat × Nat) := []
  /-- Correctable errors of this pass by row (R282). -/
  ce : List (DRow × Nat) := []
  /-- Alerts in a row on one command or burst, and alerts in the present second (R286). -/
  alertRun : Nat := 0
  alertSec : Nat := 0
  alerts : Nat := 0
  /-- Self-refresh: 0 out, 1 entering, 2 in; whether a request is held; ranks in power-down (R278 to R280). -/
  sr : Nat := 0
  held : Bool := false
  pd : List Nat := []
  /-- Bytes written through the BAR2 window, by address (R285). -/
  mem : Table (Option Byte) := []
  deriving DecidableEq, Repr

/-- The Inkwell. -/
structure Ink where
  rings : Table Ring := []
  /-- What the rings hold, by stroke. -/
  log : Table (Option Rec) := []
  /-- INKW_RSEL, live and shadow, by 8 × ring + word (R297). -/
  rsel : Table Wide := []
  rselSh : Table Wide := []
  chans : Table DdrCh := []
  /-- A stroke that no channel has taken yet, and the first stroke of a loss in progress with its count (R276). -/
  waiting : Option Rec := none
  loss : Option (Nat × Nat) := none
  /-- Deferred actions: 0 retraining, 1 hPPR; and the channel (R275). -/
  deferred : List (Nat × Nat) := []
  /-- Throttles in force: channel, bank and requester (R281). -/
  throttles : List (Nat × Nat × Nat) := []
  deriving DecidableEq, Repr

/-! ### Ductus and Ethernet (R213 to R247) -/

/-- A packed block in the making (R222): first list position, tap, SEQ and full stamp of its first index, stride, number of channels,
and its values index by index. -/
structure Block where
  first : Nat
  tap : Nat
  seq : Nat
  full : Nat
  stride : Nat
  count : Nat
  vals : List (List Samp)
  deriving DecidableEq, Repr

/-- A closed frame with a fine header: TYPE, FIRST_STROKE, SPAN, SEQ and its words (R216). -/
structure OutFrame where
  typ : Nat
  first : Nat
  span : Nat
  seq : Nat
  words : List Nat
  deriving DecidableEq, Repr

/-- A stream of items on its way into frames: its anchors by tap of a channel, the open frame's words and block, the STAMP in force by
tap, its first and last sample stroke, the stroke of its first word, the next SEQ, a CONFIG word to come (CFG_GEN and stroke), and
the frames closed. -/
structure Strm where
  anch : Table (Nat × Nat) := []
  words : List Nat := []
  block : Option Block := none
  taps : Table Nat := []
  first : Nat := 0
  last : Nat := 0
  has : Bool := false
  fw : Nat := 0
  seq : Nat := 0
  config : Option (Nat × Nat) := none
  out : List OutFrame := []
  /-- GAP words placed since the last delivery, and the strokes they name. -/
  gapWords : Nat := 0
  gapStrokes : Nat := 0
  deriving DecidableEq, Repr

/-- One copy of a session. -/
structure Copy where
  strm : Strm := {}
  /-- The next SEQ of coarse frames, and the frame counters of the trailer by TYPE (R217). -/
  seqC : Nat := 0
  ctr : Table Nat := []
  /-- The first stroke not yet sent, while the copy is behind (R241). -/
  behind : Option Nat := none
  frames : Nat := 0
  drops : Nat := 0
  replays : Nat := 0
  deriving DecidableEq, Repr

/-- A network peer: IPv6, address, UDP port and the hub's port (R231, R238). -/
structure Peer where
  ipv6 : Bool
  addr : Nat
  udp : Nat
  eth : Nat
  deriving DecidableEq, Repr

/-- A replay, active or queued (R239, R240); no peer stands for the session's DMA ring. -/
structure Replay where
  id : Nat
  from' : Nat
  till : Nat
  peer : Option Peer
  active : Bool := false
  deriving DecidableEq, Repr

/-- What a session remembers beyond its entry. -/
structure Sess where
  /-- CFG_GEN (R230). -/
  gen : Nat := 0
  /-- none before the first binding; some none once unbound (R238). -/
  bound : Option (Option Peer) := none
  /-- A binding or unbinding that waits for its stroke. -/
  bind : Option (Option Peer × Nat) := none
  /-- The stroke of the binding in force. -/
  boundAt : Nat := 0
  /-- The last C accepted in a request (R217). -/
  lastC : Option Nat := none
  replays : List Replay := []
  nextId : Nat := 1
  /-- MAP_GEN and the channel list that the last map frame stated (R228). -/
  mapGen : Nat := 0
  mapList : Option (List Nat) := none
  deriving DecidableEq, Repr

/-- A source of control requests: its address, the second at hand, requests and authentication failures in it, and the second to which
it is shut out (R243). -/
structure DucSrc where
  addr : Nat
  sec : Nat
  reqs : Nat
  fails : Nat
  shut : Nat
  deriving DecidableEq, Repr

/-- Ductus. -/
structure Duc where
  /-- DUC_SESS and DUC_KEY, live and shadow: 8 × entry + word; key. -/
  sess : Table Wide := []
  sessSh : Table Wide := []
  keys : Table Wide := []
  keysSh : Table Wide := []
  /-- The table in force before the last commit, and that commit's stroke: it governs the closure of earlier strokes (R233). -/
  old : Option (Table Wide × Nat) := none
  st : Table Sess := []
  copies : Table Copy := []
  srcs : List DucSrc := []
  /-- Coarse values of the present stroke by channel, and first conversions done by round (R227). -/
  coarse : Table (Option Samp) := []
  rounds : Table Nat := []
  deriving DecidableEq, Repr

/-- Ethernet: next hops resolved and asked for, IPv6 flag and address (R231). -/
structure Eth where
  hops : List (Bool × Nat) := []
  asked : List (Bool × Nat) := []
  deriving DecidableEq, Repr

/-! ### Hardware queues (R248 to R260) -/

/-- A stored word with its side tags (R250). -/
structure QWord where
  data : Nat
  first : Bool
  last : Bool
  deriving DecidableEq, Repr

/-- One of the seven queues. -/
structure QueueSt where
  /-- Visible words, head first. -/
  words : List QWord := []
  /-- Words of an item that is not yet whole. -/
  pend : List Nat := []
  draining : Bool := false
  lastPop : Nat := 0
  /-- The next pop carries FLUSHED, or LOST. -/
  flushed : Bool := false
  lost : Bool := false
  deriving DecidableEq, Repr
/-! ### PCI Express, DMA and translation (R298 to R321) -/

/-- A frame on its way into a DMA ring as a record (R303, R305): class, session, REPLAY_ID (0 for none), whether it is late, the frame
it is made from, and its bytes. -/
structure DRec where
  cls : Nat
  sess : Nat
  rid : Nat
  late : Bool
  frame : OutFrame
  bytes : List Byte
  deriving DecidableEq, Repr

/-- A descriptor that the hub has read and not completed (R302): its index, buffer, length and IRQ bit, the bytes reserved, the
records reserved in it, whether it is closed, and with which STATUS. -/
structure Desc where
  idx : Nat
  buf : Nat
  len : Nat
  irq : Bool
  used : Nat := 0
  recs : List DRec := []
  isClosed : Bool := false
  status : Nat := 1
  /-- Its address cannot be translated, and it completes unseen. -/
  blind : Bool := false
  deriving DecidableEq, Repr

/-- One of the 32 rings: its descriptors in order, the next one to read, the frames that wait for it, completions since the last event
and the stroke of the first (R318), and whether it is being taken out of service (R306). -/
structure DmaRing where
  descs : List Desc := []
  next : Nat := 0
  wait : List DRec := []
  coal : Nat := 0
  coalFrom : Nat := 0
  leaving : Bool := false
  /-- A descriptor read is under way, or has failed and waits for the next TAIL write (R312). -/
  reading : Bool := false
  stall : Bool := false
  deriving DecidableEq, Repr

/-- A transfer of a class: the ring, the descriptor, the record's offset in the buffer, the record, the bytes written, and whether it has
been pre-empted (R304, R307). -/
structure Xfer where
  ring : Nat
  desc : Nat
  ofs : Nat
  rec' : DRec
  done : Nat
  pre : Bool := false
  deriving DecidableEq, Repr

/-- A page walk (R308, R309): the site, class and ring that need it, the IOVA, what it needs (0 nothing, 1 W, 2 RD), the level being read and the
table it is read from, and what ended it badly with the entry read. -/
structure Walk where
  site : Nat
  cls : Nat
  ring : Nat
  iova : Nat
  need : Nat
  level : Nat
  table : Nat
  cause : Nat := 0
  entry : Nat := 0
  stale : Bool := false
  deriving DecidableEq, Repr

/-- A cached leaf (R309, R320): its slot in ATU_TLB, size, permissions, IOVA and bus page numbers (by 4 KB), hits. -/
structure Tlb where
  slot : Nat
  size : Nat
  w : Bool
  rd : Bool
  iova : Nat
  bus : Nat
  hits : Nat := 0
  deriving DecidableEq, Repr

/-- A class parked on a fault (R312): the site and ring, by its FAULT_ID. -/
structure Park where
  id : Nat
  site : Nat
  ring : Nat
  deriving DecidableEq, Repr

/-- The DMA engine and the ATU. -/
structure Dma where
  /-- DMA_RING: 2 × ring + word. -/
  tab : Table Wide := []
  rings : Table DmaRing := []
  /-- The transfer of each class, and its park on a fault; entry 3 of the parks is the image fetch. -/
  xfer : Table (Option Xfer) := []
  parks : Table (Option Park) := []
  walks : List Walk := []
  /-- Most recently used first. -/
  tlb : List Tlb := []
  /-- FAULT_ID of the last fault. -/
  faultId : Nat := 0
  /-- Bytes of the image fetch that have come in. -/
  imgGot : Nat := 0
  /-- An invalidation in progress, and one held: scope, base and pages (R310). -/
  inv : Option (Nat × Nat × Nat) := none
  held : Option (Nat × Nat × Nat) := none
  /-- The IOVA of a probe in progress. -/
  probe : Option Nat := none
  deriving DecidableEq, Repr

/-- PCI Express beyond its page: the MSI-X function mask and vector masks, recoveries in the present second of MON_UPTIME, and the
millisecond of the last AER message. -/
structure Pcie where
  funcMask : Bool := false
  vecMask : Nat := 0xFFFFFFFF
  recovSec : Nat := 0
  recov : Nat := 0
  aerMs : Option Nat := none
  deriving DecidableEq, Repr

/-! ### Lamps (R322 to R341) -/

/-- A lamp cell's diagnosis (R334): open and short observations in a row, the cause of its fault, whether it is being driven again, and
failed retries in a row. -/
structure LampCell where
  opens : Nat := 0
  shorts : Nat := 0
  cause : Nat := 0
  retry : Bool := false
  fails : Nat := 0
  deriving DecidableEq, Repr

/-- What a string drives in a slot: the entry, the current code and the on-time. -/
structure Drive where
  entry : Nat
  cur : Nat
  time : Nat
  deriving DecidableEq, Repr

/-- The lamp drive unit. -/
structure Ldu where
  /-- LDU_LTAB, live and shadow: 2 × entry + word; the pages: 64 × page + lamp. -/
  tab : Table Wide := []
  tabSh : Table Wide := []
  pages : Table Nat := []
  /-- The armed turn: stroke and page; what the seal makes wait: armings (page, domain, stroke) and table words (R332). -/
  armed : Option (Nat × Nat) := none
  deferred : List (Nat × Bool × Nat) := []
  held : List (Nat × Nat) := []
  /-- Whether a page turn has come since EN was set (R322). -/
  runs : Bool := false
  /-- The drives computed for the coming slot and whether they are for the first slot of the armed turn; the drives of the slot in progress;
  the line that is active; gates that are on and strings stopped by overcurrent, by string. -/
  next : Table (Option Drive) := []
  nextTurn : Bool := false
  now : Table (Option Drive) := []
  line : Option Nat := none
  gates : Nat := 0
  ocp : Nat := 0
  cells : Table LampCell := []
  deriving DecidableEq, Repr


/-! ### Halves, scribes and the pen (R342 to R363) -/

/-- What a scribe waits for (R353): nothing, a stroke, a time, an event source, a POLL with the last value read, or a claim's window. -/
inductive Wait where
  | none
  | strokes (n : Nat)
  | time
  | event (x : Nat)
  | raised
  | poll (last : Nat)
  | claim
  deriving DecidableEq, Repr

/-- One half: its tablets, return addresses, the scribe memory by word, the slot that runs, what the scribe waits for, the words the host has
pushed, the DCLK cycles of its latest heartbeat and of the start of its watchdog period, the cause for which it leaves the pen at the
end of the window, its failed verifications in a row, whether it waits for a new seal (R373), and
whether this is its boot at power-up. -/
structure Half where
  tb : Table Nat := []
  stack : List Nat := []
  mem : Table Nat := []
  run : Option Nat := none
  wait : Wait := .none
  inbox : List Nat := []
  hbAt : Option Nat := none
  wdFrom : Nat := 0
  drop : Option Nat := none
  fails : Nat := 0
  newSeal : Bool := true
  cold : Bool := true
  deriving DecidableEq, Repr

/-- The pen arbiter: its copies A, B and C, whether the holder's heartbeat is lost, the DCLK cycle of the last change of holder, the open
unlock window, the armed hand-over (half and stroke), and the pages whose own arming by the hub waits for the unlock (R349). -/
structure Pen where
  copies : List PenCopy := [{}, {}, {}]
  withdraw : Bool := false
  since : Nat := 0
  key : Option (Requester × Nat) := none
  xfer : Option (Nat × Nat) := none
  heldArms : List Nat := []
  deriving DecidableEq, Repr

/-! ### The image and power-up (R364 to R381) -/

/-- A READ of the boot client that waits for its DATA: offset and length (R375). -/
structure BootRead where
  ofs : Nat
  len : Nat
  deriving DecidableEq, Repr

/-- Power-up: the image store, whether PORST_N is low, the half that applies the image, whether APPLY has ended, and the boot client:
the rate it tries, the ports locked, its XID, its server, the image's length, the next offset to ask for, the READs outstanding and
consecutive resends; the fuse bits burned since the part was made, placed as in SYS_FUSE. -/
structure Boot where
  store : Table Byte := []
  held : Bool := false
  fuses : Nat := 0
  applier : Option Nat := none
  applied : Bool := false
  fast : Bool := true
  locked : Nat := 0
  xid : Nat := 0
  server : Option BootFrom := none
  len : Nat := 0
  next : Nat := 0
  reads : List BootRead := []
  resends : Nat := 0
  deriving DecidableEq, Repr

/-! ### Events (R382 to R388) and die monitors -/

/-- What EVA remembers beyond its registers. -/
structure Eva where
  /-- Rises of unmasked page bits that EVA has not yet served: page, bit, detail word of the EVQ item. -/
  rises : List (Nat × Nat × Option Nat) := []
  /-- Pending page bits that a write of EVT_MASK has unmasked and EVA has not yet served: they make no EVQ item. -/
  shown : List (Nat × Nat) := []
  /-- Sources whose raw state EVA_FORCE holds at 1 for the present cycle. -/
  forced : List Nat := []
  /-- Vectors inside the gap after a message, and those with rises folded into the message at its end (R385). -/
  inGap : List Nat := []
  folded : List Nat := []
  deriving DecidableEq, Repr

/-- MON: which alarm levels stand, and the parts of its means that no register shows. -/
structure Mon where
  warm : Bool := false
  hot : Bool := false
  tjSum : Int := 0
  /-- EQ_S below the second, in 1/4096 s. -/
  eqFrac : Nat := 0
  deriving DecidableEq, Repr

/-! ### Link tests (R400 to R410) -/

/-- A pattern as a recurrence over the bits sent: the last `len` bits, the newest in bit 0; the next bit is the sum of the bits `len` and
`tap` back (`tap` 0: of the bit `len` back alone). -/
structure Prbs where
  len : Nat
  tap : Nat
  reg : Nat
  deriving DecidableEq, Repr

/-- A checker: its recurrence, the received bits still to come before it is seeded, bits without error since then, whether it is locked, and
the errors among its last 256 bits, newest in bit 0 (R402). -/
structure Checker where
  gen : Prbs
  need : Nat
  run : Nat := 0
  locked : Bool := false
  errs : Nat := 0
  deriving DecidableEq, Repr

/-- A test under way: whether it takes the link out of service, its loopback, and for framed Inkline tests the generator and the checker. -/
structure TestRun where
  intrusive : Bool
  loop : Nat
  gen : Option Prbs := none
  chk : Option Checker := none
  deriving DecidableEq, Repr

/-- TEST: the tests under way by instance, whether the hub follows a PCIe Loopback, the boundary-scan instruction that holds the balls, and
DDR4 retrainings that wait for a test's end. -/
structure Tst where
  runs : Table (Option TestRun) := []
  follower : Bool := false
  scan : Option JtagIns := none
  waits : List Nat := []
  deriving DecidableEq, Repr

/-- What the hub sends or drives, in order: the model's own record of its outputs. -/
inductive Emit where
  /-- An Inkline frame: lane, express, SEQ, TYPE and payload (R166, R168). -/
  | ilk (lane : Nat) (express : Bool) (seq typ : Nat) (words : List Nat)
  /-- A MARK: lane, SN and HOLD (R165). -/
  | mark (lane sn : Nat) (hold : Bool)
  /-- An ACK word: lane, class, SEQ, NAK and its reason (R164). -/
  | ack (lane : Nat) (express : Bool) (seq : Nat) (nak : Bool) (reason : Nat)
  /-- IRQ_N low or released (R384). -/
  | irqLevel (low : Bool)
  /-- An MSI-X message of a vector (R385). -/
  | msix (vec : Nat)
  /-- A time output's pin (R155). -/
  | tout (n level : Nat)
  /-- A scheduled frame, by port (R158). -/
  | launch (port : Nat) (frame : List Nat)
  /-- A PTP message: port, messageType, sequenceId, correction in 2⁻¹⁶ ns (R143, R154). -/
  | ptp (port typ seq : Nat) (corr : Int)
  /-- A datagram of Ductus: port, peer's address and UDP port, and the payload's bytes (R214). -/
  | datagram (port : Nat) (ipv6 : Bool) (addr udp : Nat) (bytes : List Byte)
  /-- An ARP or neighbour message: port, kind (0 request, 1 answer, 2 announcement) and address (R231, R246). -/
  | arp (port kind : Nat) (ipv6 : Bool) (addr : Nat)
  /-- A lamp string's gate (R325). -/
  | gate (string : Nat) (high : Bool)
  /-- A line driver's level (R325). -/
  | line (n : Nat) (high : Bool)
  /-- A bridged frame: the port it leaves on and its correctionField in 2⁻¹⁶ ns, if it has one (R15, R153). -/
  | bridged (port : Nat) (corr : Option Int)
  /-- A boot message: VERB and its words (R375). -/
  | eboot (verb : Nat) (words : List Nat)
  /-- The value that a register read returns (R25). -/
  | read (who : Requester) (off val : Nat)
  /-- What the SPI target shifts out: its words, low end first, and the status byte (R28). -/
  | spi (words : List Nat) (status : Nat)
  /-- A memory write to the host: its bus address and its bytes (R303, R304). -/
  | hostWrite (addr : Nat) (bytes : List Byte)
  /-- A memory read from the host: its bus address and its length (R302, R309, R316). -/
  | hostRead (addr len : Nat)
  /-- A completion to the host: its value, or none where it is poisoned, an unsupported request or discarded (R299, R317). -/
  | completion (val : Option Nat)
  deriving DecidableEq, Repr
structure State where
  pending : List Instr
  regs : Table Nat
  live : Table Nat
  shad : Table Nat
  out : List Emit
  free : Nat
  struck : Bool
  strikeDclk : Nat
  spine : Spine
  sets : Table CommitSet
  chanFe : Table ChanFe
  groupFe : Table GroupFe
  acq : Acq
  lanes : Table Lane
  nibs : Nibs
  trim : Trim
  filt : Filt
  queues : Table QueueSt
  tsu : Tsu
  ptp : Ptp
  touts : Table Tout
  lq : Table Wide
  eva : Eva
  mon : Mon
  trg : Trg
  caps : Table CapSlot
  ink : Ink
  duc : Duc
  dma : Dma
  ldu : Ldu
  pcie : Pcie
  halves : Table Half
  pen : Pen
  tst : Tst
  boot : Boot
  eth : Eth
  ilk : Ilk
  deriving DecidableEq, Repr

/-- The hub as PORST_N leaves it, before its release starts the boot ROMs: every register field at its reset value (the tables hold what
differs from reset), the halves in RESET, nothing waiting. -/
def State.reset : State where
  pending := []
  regs := []
  live := []
  shad := []
  out := []
  free := 0
  struck := false
  strikeDclk := 0
  spine := {}
  sets := []
  chanFe := []
  groupFe := []
  acq := {}
  lanes := []
  nibs := {}
  trim := {}
  filt := {}
  queues := []
  tsu := {}
  ptp := {}
  touts := []
  lq := []
  eva := {}
  mon := {}
  trg := {}
  caps := []
  ink := {}
  duc := {}
  dma := {}
  ldu := {}
  pcie := {}
  halves := []
  pen := {}
  tst := {}
  boot := {}
  eth := {}
  ilk := {}

end Sys2Proof.Machine
end

