-- ==== Sys2Proof/Machine/Fields.lean ====
section
/-!
DEFINITION. The named fields of the register pages, one `Fld` each (R7, R44 and the register tables of every chapter).
A field is named REGISTER.FIELD as the spec names it; an array of registers takes the index of the register, and a field that
repeats inside one register takes the index of the field as its last argument.
The page header's fields (R29 to R33) take the page number.
-/

namespace Sys2Proof.Machine

/-- Where the live values of the fields that commit on a stroke stand (R9, R37): a table of their own, keyed past this base. -/
abbrev strokeBase : Nat := 0x1000000

end Sys2Proof.Machine

namespace Sys2Proof.Machine.F

abbrev PAGE_STATUS.OWN_DENIED (p : Nat) : Fld := ⟨(p * 4096 + 0x18) * 8 + 0, 16⟩
abbrev PAGE_STATUS.LOCK_DENIED (p : Nat) : Fld := ⟨(p * 4096 + 0x18) * 8 + 16, 16⟩
abbrev PAGE_STATUS.UNIMPL (p : Nat) : Fld := ⟨(p * 4096 + 0x18) * 8 + 32, 16⟩
abbrev PAGE_STATUS.LAST_REQ (p : Nat) : Fld := ⟨(p * 4096 + 0x18) * 8 + 48, 3⟩
abbrev PAGE_STATUS.HALF_DROPPED (p : Nat) : Fld := ⟨(p * 4096 + 0x18) * 8 + 51, 8⟩
abbrev EVT_RAW.RAW (p : Nat) : Fld := ⟨(p * 4096 + 0x20) * 8 + 0, 17⟩
abbrev EVT_PEND.PEND (p : Nat) : Fld := ⟨(p * 4096 + 0x28) * 8 + 0, 17⟩
abbrev EVT_MASK.MASK (p : Nat) : Fld := ⟨(p * 4096 + 0x30) * 8 + 0, 17⟩
abbrev SHADOW_CTRL.READ_SHADOW (p : Nat) : Fld := ⟨(p * 4096 + 0x40) * 8 + 3, 1⟩
abbrev SHADOW_CTRL.HELD_CNT (p : Nat) : Fld := ⟨(p * 4096 + 0x40) * 8 + 16, 16⟩
abbrev COMMIT_SET.SET (p : Nat) : Fld := ⟨(p * 4096 + 0x50) * 8 + 0, 3⟩
abbrev COMMIT_SET.DOMAIN (p : Nat) : Fld := ⟨(p * 4096 + 0x50) * 8 + 3, 1⟩
abbrev COMMIT_SET.LATE (p : Nat) : Fld := ⟨(p * 4096 + 0x50) * 8 + 9, 1⟩
abbrev COMMIT_SET.STALE (p : Nat) : Fld := ⟨(p * 4096 + 0x50) * 8 + 10, 1⟩
abbrev COMMIT_SET.SHORT (p : Nat) : Fld := ⟨(p * 4096 + 0x50) * 8 + 11, 1⟩
abbrev COMMIT_SET.NOTROOT (p : Nat) : Fld := ⟨(p * 4096 + 0x50) * 8 + 12, 1⟩
abbrev LOCK.LOCKED (p : Nat) : Fld := ⟨(p * 4096 + 0x58) * 8 + 0, 1⟩
abbrev OWNER.HOST_GRANT (p : Nat) : Fld := ⟨(p * 4096 + 0x60) * 8 + 8, 1⟩
abbrev SCRATCH.SCRATCH (p : Nat) : Fld := ⟨(p * 4096 + 0x68) * 8 + 0, 64⟩

/-! SYS_ID (R381) -/
abbrev SYS_ID.REV : Fld := ⟨0x80 * 8, 8⟩
abbrev SYS_ID.DEVICE : Fld := ⟨0x80 * 8 + 8, 16⟩
abbrev SYS_ID.SERIAL : Fld := ⟨0x80 * 8 + 32, 32⟩

/-! SYS_FUSE (R381) -/
abbrev SYS_FUSE.KEY_VALID : Fld := ⟨0x88 * 8, 4⟩
abbrev SYS_FUSE.KEY_REVOKED : Fld := ⟨0x88 * 8 + 4, 4⟩
abbrev SYS_FUSE.SEC_VER : Fld := ⟨0x88 * 8 + 8, 6⟩
abbrev SYS_FUSE.BOOT_NET : Fld := ⟨0x88 * 8 + 16, 1⟩

/-! SYS_RST (R381) -/
abbrev SYS_RST.CAUSE : Fld := ⟨0x90 * 8, 2⟩
abbrev SYS_RST.RAILS : Fld := ⟨0x90 * 8 + 8, 8⟩

/-! SYS_CLK (R381) -/
abbrev SYS_CLK.REFIN_25 : Fld := ⟨0x98 * 8, 1⟩
abbrev SYS_CLK.SRC : Fld := ⟨0x98 * 8 + 1, 2⟩
abbrev SYS_CLK.LOCKED : Fld := ⟨0x98 * 8 + 8, 1⟩
abbrev SYS_CLK.REF_PRESENT : Fld := ⟨0x98 * 8 + 9, 1⟩
abbrev SYS_CLK.LOCK_US : Fld := ⟨0x98 * 8 + 32, 32⟩

/-! SYS_STROKE_CFG (R381) -/
abbrev SYS_STROKE_CFG.M_MINUS1 : Fld := ⟨strokeBase + 0xa0 * 8, 10⟩

/-! SYS_STROKE_NOW (R381) -/
abbrev SYS_STROKE_NOW.STROKE : Fld := ⟨0xa8 * 8, 64⟩

/-! SYS_STAGE (R381) -/
abbrev SYS_STAGE.STAGE : Fld := ⟨0xb0 * 8, 3⟩
abbrev SYS_STAGE.STRIKE_US : Fld := ⟨0xb0 * 8 + 32, 32⟩

/-! SYS_USEFUL_REQ (R381) -/
abbrev SYS_USEFUL_REQ.MIRRORED : Fld := ⟨0xb8 * 8, 1⟩
abbrev SYS_USEFUL_REQ.TIME_LOCKED : Fld := ⟨0xb8 * 8 + 1, 1⟩
abbrev SYS_USEFUL_REQ.TRIM_PASS : Fld := ⟨0xb8 * 8 + 2, 1⟩

/-! SYS_USEFUL (R381) -/
abbrev SYS_USEFUL.USEFUL : Fld := ⟨0xc0 * 8, 1⟩
abbrev SYS_USEFUL.MET : Fld := ⟨0xc0 * 8 + 1, 7⟩
abbrev SYS_USEFUL.USEFUL_US : Fld := ⟨0xc0 * 8 + 32, 32⟩

/-! SYS_IMG_CTRL (R381) -/
abbrev SYS_IMG_CTRL.OPEN : Fld := ⟨0xc8 * 8, 1⟩
abbrev SYS_IMG_CTRL.SEAL : Fld := ⟨0xc8 * 8 + 1, 1⟩
abbrev SYS_IMG_CTRL.RETRY_MAX : Fld := ⟨0xc8 * 8 + 8, 8⟩
abbrev SYS_IMG_CTRL.LOAD_MS : Fld := ⟨0xc8 * 8 + 16, 16⟩

/-! SYS_IMG_STATUS (R381) -/
abbrev SYS_IMG_STATUS.STATE : Fld := ⟨0xd0 * 8, 3⟩
abbrev SYS_IMG_STATUS.HIGH : Fld := ⟨0xd0 * 8 + 16, 24⟩

/-! SYS_IMG_HDR (R381) -/
abbrev SYS_IMG_HDR.VERSION : Fld := ⟨0xd8 * 8, 32⟩
abbrev SYS_IMG_HDR.EPOCH : Fld := ⟨0xd8 * 8 + 32, 16⟩
abbrev SYS_IMG_HDR.SEC_VER : Fld := ⟨0xd8 * 8 + 48, 6⟩
abbrev SYS_IMG_HDR.KEY_INDEX : Fld := ⟨0xd8 * 8 + 56, 2⟩

/-! SYS_IMGW_INDEX (R43) -/
abbrev SYS_IMGW_INDEX.ENTRY : Fld := ⟨0xe0 * 8, 16⟩
abbrev SYS_IMGW_INDEX.WORD : Fld := ⟨0xe0 * 8 + 16, 8⟩
abbrev SYS_IMGW_INDEX.AUTOINC : Fld := ⟨0xe0 * 8 + 24, 1⟩

/-! SYS_IMGW_DATA_LO (R43) -/
abbrev SYS_IMGW_DATA_LO.DATA : Fld := ⟨0xe8 * 8, 64⟩

/-! SYS_IMGW_DATA_HI (R43) -/
abbrev SYS_IMGW_DATA_HI.DATA : Fld := ⟨0xf0 * 8, 64⟩

/-! SYS_IMGW_CTRL (R43) -/
abbrev SYS_IMGW_CTRL.OP : Fld := ⟨0xf8 * 8, 2⟩
abbrev SYS_IMGW_CTRL.GO : Fld := ⟨0xf8 * 8 + 8, 1⟩
abbrev SYS_IMGW_CTRL.BUSY : Fld := ⟨0xf8 * 8 + 9, 1⟩
abbrev SYS_IMGW_CTRL.ERR : Fld := ⟨0xf8 * 8 + 10, 1⟩

/-! SYS_IMG_DIGEST (R381) -/
abbrev SYS_IMG_DIGEST.DIGEST (n : Nat) : Fld := ⟨(0x100 + 0x8 * n) * 8, 64⟩

/-! SYS_EBOOT (R381) -/
abbrev SYS_EBOOT.MAC : Fld := ⟨0x130 * 8, 48⟩
abbrev SYS_EBOOT.PORT : Fld := ⟨0x130 * 8 + 48, 2⟩
abbrev SYS_EBOOT.STATE : Fld := ⟨0x130 * 8 + 50, 3⟩

/-! SYS_COUNT (R381) -/
abbrev SYS_COUNT.BOOTS : Fld := ⟨0x138 * 8, 16⟩
abbrev SYS_COUNT.VERIFY_FAIL : Fld := ⟨0x138 * 8 + 16, 16⟩
abbrev SYS_COUNT.OPEN_REFUSED : Fld := ⟨0x138 * 8 + 32, 16⟩
abbrev SYS_COUNT.EBOOT_RESENDS : Fld := ⟨0x138 * 8 + 48, 16⟩

/-! PEN_STATE (R362) -/
abbrev PEN_STATE.HOLDER : Fld := ⟨0x1080 * 8, 2⟩
abbrev PEN_STATE.FROZEN : Fld := ⟨0x1080 * 8 + 2, 1⟩
abbrev PEN_STATE.EPOCH : Fld := ⟨0x1080 * 8 + 16, 16⟩
abbrev PEN_STATE.GEN : Fld := ⟨0x1080 * 8 + 32, 16⟩
abbrev PEN_STATE.RSTATE : Fld := ⟨0x1080 * 8 + 48, 3⟩
abbrev PEN_STATE.VSTATE : Fld := ⟨0x1080 * 8 + 52, 3⟩
abbrev PEN_STATE.RCLAIM : Fld := ⟨0x1080 * 8 + 56, 1⟩
abbrev PEN_STATE.VCLAIM : Fld := ⟨0x1080 * 8 + 57, 1⟩

/-! PEN_CFG (R362) -/
abbrev PEN_CFG.HB_TIMEOUT_US : Fld := ⟨0x1088 * 8, 16⟩
abbrev PEN_CFG.RELOAD_OLD : Fld := ⟨0x1088 * 8 + 16, 1⟩

/-! PEN_XFER_STROKE (R362) -/
abbrev PEN_XFER_STROKE.STROKE : Fld := ⟨0x1090 * 8, 64⟩

/-! PEN_XFER (R362) -/
abbrev PEN_XFER.TO : Fld := ⟨0x1098 * 8, 2⟩
abbrev PEN_XFER.GO : Fld := ⟨0x1098 * 8 + 2, 1⟩
abbrev PEN_XFER.ARMED : Fld := ⟨0x1098 * 8 + 8, 1⟩
abbrev PEN_XFER.LATE : Fld := ⟨0x1098 * 8 + 9, 1⟩
abbrev PEN_XFER.STALE : Fld := ⟨0x1098 * 8 + 10, 1⟩
abbrev PEN_XFER.REFUSED : Fld := ⟨0x1098 * 8 + 11, 1⟩
abbrev PEN_XFER.REASON : Fld := ⟨0x1098 * 8 + 12, 4⟩
abbrev PEN_XFER.LAST_LO : Fld := ⟨0x1098 * 8 + 32, 32⟩

/-! PEN_UNLOCK (R362) -/
abbrev PEN_UNLOCK.KEY : Fld := ⟨0x10a0 * 8, 16⟩
abbrev PEN_UNLOCK.TO : Fld := ⟨0x10a0 * 8 + 16, 2⟩
abbrev PEN_UNLOCK.GO : Fld := ⟨0x10a0 * 8 + 18, 1⟩
abbrev PEN_UNLOCK.RESULT : Fld := ⟨0x10a0 * 8 + 24, 2⟩

/-! PEN_VOTE (R362) -/
abbrev PEN_VOTE.HOLDER_A : Fld := ⟨0x10a8 * 8, 2⟩
abbrev PEN_VOTE.HOLDER_B : Fld := ⟨0x10a8 * 8 + 2, 2⟩
abbrev PEN_VOTE.HOLDER_C : Fld := ⟨0x10a8 * 8 + 4, 2⟩
abbrev PEN_VOTE.FIX_A : Fld := ⟨0x10a8 * 8 + 16, 8⟩
abbrev PEN_VOTE.FIX_B : Fld := ⟨0x10a8 * 8 + 24, 8⟩
abbrev PEN_VOTE.FIX_C : Fld := ⟨0x10a8 * 8 + 32, 8⟩
abbrev PEN_VOTE.FREEZES : Fld := ⟨0x10a8 * 8 + 48, 8⟩

/-! PEN_COUNT (R362) -/
abbrev PEN_COUNT.CONTESTS : Fld := ⟨0x10b0 * 8, 16⟩
abbrev PEN_COUNT.CLAIM_REFUSED : Fld := ⟨0x10b0 * 8 + 16, 16⟩
abbrev PEN_COUNT.HB_LOSSES : Fld := ⟨0x10b0 * 8 + 32, 16⟩
abbrev PEN_COUNT.FROZEN_REFUSED : Fld := ⟨0x10b0 * 8 + 48, 16⟩

/-! PEN_LAST (R362) -/
abbrev PEN_LAST.CAUSE : Fld := ⟨0x10b8 * 8, 4⟩
abbrev PEN_LAST.FROM : Fld := ⟨0x10b8 * 8 + 4, 2⟩
abbrev PEN_LAST.TO : Fld := ⟨0x10b8 * 8 + 6, 2⟩
abbrev PEN_LAST.STROKE_LO : Fld := ⟨0x10b8 * 8 + 32, 32⟩

/-! SCRR_CTRL (R363) -/
abbrev SCRR_CTRL.BOOT : Fld := ⟨0x2080 * 8, 1⟩
abbrev SCRR_CTRL.WD_EN : Fld := ⟨0x2080 * 8 + 8, 1⟩

/-! SCRR_STATE (R363) -/
abbrev SCRR_STATE.STATE : Fld := ⟨0x2088 * 8, 3⟩
abbrev SCRR_STATE.SLOT : Fld := ⟨0x2088 * 8 + 4, 4⟩
abbrev SCRR_STATE.IDLE : Fld := ⟨0x2088 * 8 + 8, 1⟩
abbrev SCRR_STATE.PC : Fld := ⟨0x2088 * 8 + 16, 15⟩
abbrev SCRR_STATE.HB : Fld := ⟨0x2088 * 8 + 31, 1⟩
abbrev SCRR_STATE.CLAIM : Fld := ⟨0x2088 * 8 + 32, 1⟩

/-! SCRR_EPOCH (R363) -/
abbrev SCRR_EPOCH.EPOCH : Fld := ⟨0x2090 * 8, 16⟩
abbrev SCRR_EPOCH.VERSION : Fld := ⟨0x2090 * 8 + 32, 32⟩

/-! SCRR_WD (R363) -/
abbrev SCRR_WD.WD_MS : Fld := ⟨0x2098 * 8, 16⟩
abbrev SCRR_WD.TIMER_US : Fld := ⟨0x2098 * 8 + 16, 32⟩
abbrev SCRR_WD.POLL_US : Fld := ⟨0x2098 * 8 + 48, 16⟩

/-! SCRR_SLOTS (R363) -/
abbrev SCRR_SLOTS.EN : Fld := ⟨0x20a0 * 8, 16⟩
abbrev SCRR_SLOTS.PEND : Fld := ⟨0x20a0 * 8 + 16, 16⟩

/-! SCRR_SLOTEV0 (R363) -/
abbrev SCRR_SLOTEV0.EV (i : Nat) : Fld := ⟨0x20a8 * 8 + 0 + 8 * i, 7⟩

/-! SCRR_SLOTEV1 (R363) -/
abbrev SCRR_SLOTEV1.EV (i : Nat) : Fld := ⟨0x20b0 * 8 + 0 + 8 * i, 7⟩

/-! SCRR_FAULT (R363) -/
abbrev SCRR_FAULT.CODE : Fld := ⟨0x20b8 * 8, 8⟩
abbrev SCRR_FAULT.SLOT : Fld := ⟨0x20b8 * 8 + 8, 4⟩
abbrev SCRR_FAULT.PC : Fld := ⟨0x20b8 * 8 + 16, 15⟩
abbrev SCRR_FAULT.STROKE_LO : Fld := ⟨0x20b8 * 8 + 32, 32⟩

/-! SCRR_COUNT (R363) -/
abbrev SCRR_COUNT.SLOTS_RUN : Fld := ⟨0x20c0 * 8, 32⟩
abbrev SCRR_COUNT.FAULTS : Fld := ⟨0x20c0 * 8 + 32, 16⟩
abbrev SCRR_COUNT.BOOTS : Fld := ⟨0x20c0 * 8 + 48, 8⟩
abbrev SCRR_COUNT.WD_EXP : Fld := ⟨0x20c0 * 8 + 56, 8⟩

/-! SCRR_MBIN_DATA (R363) -/
abbrev SCRR_MBIN_DATA.DATA : Fld := ⟨0x20c8 * 8, 64⟩

/-! SCRR_MBIN_CTRL (R363) -/
abbrev SCRR_MBIN_CTRL.COUNT : Fld := ⟨0x20d0 * 8, 7⟩
abbrev SCRR_MBIN_CTRL.SEND : Fld := ⟨0x20d0 * 8 + 8, 1⟩
abbrev SCRR_MBIN_CTRL.BUSY : Fld := ⟨0x20d0 * 8 + 9, 1⟩
abbrev SCRR_MBIN_CTRL.CLEAR : Fld := ⟨0x20d0 * 8 + 10, 1⟩
abbrev SCRR_MBIN_CTRL.REFUSED : Fld := ⟨0x20d0 * 8 + 16, 16⟩

/-! SCRR_BOOT (R363) -/
abbrev SCRR_BOOT.STATUS : Fld := ⟨0x20d8 * 8, 16⟩

/-! SCRR_MEM_INDEX (R43) -/
abbrev SCRR_MEM_INDEX.ENTRY : Fld := ⟨0x20e0 * 8, 16⟩
abbrev SCRR_MEM_INDEX.WORD : Fld := ⟨0x20e0 * 8 + 16, 8⟩
abbrev SCRR_MEM_INDEX.AUTOINC : Fld := ⟨0x20e0 * 8 + 24, 1⟩

/-! SCRR_MEM_DATA_LO (R43) -/
abbrev SCRR_MEM_DATA_LO.DATA : Fld := ⟨0x20e8 * 8, 64⟩

/-! SCRR_MEM_DATA_HI (R43) -/
abbrev SCRR_MEM_DATA_HI.DATA : Fld := ⟨0x20f0 * 8, 64⟩

/-! SCRR_MEM_CTRL (R43) -/
abbrev SCRR_MEM_CTRL.OP : Fld := ⟨0x20f8 * 8, 2⟩
abbrev SCRR_MEM_CTRL.GO : Fld := ⟨0x20f8 * 8 + 8, 1⟩
abbrev SCRR_MEM_CTRL.BUSY : Fld := ⟨0x20f8 * 8 + 9, 1⟩
abbrev SCRR_MEM_CTRL.ERR : Fld := ⟨0x20f8 * 8 + 10, 1⟩

/-! SCRR_TB (R363) -/
abbrev SCRR_TB.VALUE (n : Nat) : Fld := ⟨(0x2100 + 0x8 * n) * 8, 64⟩

/-! SCRV_CTRL (R363) -/
abbrev SCRV_CTRL.BOOT : Fld := ⟨0x3080 * 8, 1⟩
abbrev SCRV_CTRL.WD_EN : Fld := ⟨0x3080 * 8 + 8, 1⟩

/-! SCRV_STATE (R363) -/
abbrev SCRV_STATE.STATE : Fld := ⟨0x3088 * 8, 3⟩
abbrev SCRV_STATE.SLOT : Fld := ⟨0x3088 * 8 + 4, 4⟩
abbrev SCRV_STATE.IDLE : Fld := ⟨0x3088 * 8 + 8, 1⟩
abbrev SCRV_STATE.PC : Fld := ⟨0x3088 * 8 + 16, 15⟩
abbrev SCRV_STATE.HB : Fld := ⟨0x3088 * 8 + 31, 1⟩
abbrev SCRV_STATE.CLAIM : Fld := ⟨0x3088 * 8 + 32, 1⟩

/-! SCRV_EPOCH (R363) -/
abbrev SCRV_EPOCH.EPOCH : Fld := ⟨0x3090 * 8, 16⟩
abbrev SCRV_EPOCH.VERSION : Fld := ⟨0x3090 * 8 + 32, 32⟩

/-! SCRV_WD (R363) -/
abbrev SCRV_WD.WD_MS : Fld := ⟨0x3098 * 8, 16⟩
abbrev SCRV_WD.TIMER_US : Fld := ⟨0x3098 * 8 + 16, 32⟩
abbrev SCRV_WD.POLL_US : Fld := ⟨0x3098 * 8 + 48, 16⟩

/-! SCRV_SLOTS (R363) -/
abbrev SCRV_SLOTS.EN : Fld := ⟨0x30a0 * 8, 16⟩
abbrev SCRV_SLOTS.PEND : Fld := ⟨0x30a0 * 8 + 16, 16⟩

/-! SCRV_SLOTEV0 (R363) -/
abbrev SCRV_SLOTEV0.EV (i : Nat) : Fld := ⟨0x30a8 * 8 + 0 + 8 * i, 7⟩

/-! SCRV_SLOTEV1 (R363) -/
abbrev SCRV_SLOTEV1.EV (i : Nat) : Fld := ⟨0x30b0 * 8 + 0 + 8 * i, 7⟩

/-! SCRV_FAULT (R363) -/
abbrev SCRV_FAULT.CODE : Fld := ⟨0x30b8 * 8, 8⟩
abbrev SCRV_FAULT.SLOT : Fld := ⟨0x30b8 * 8 + 8, 4⟩
abbrev SCRV_FAULT.PC : Fld := ⟨0x30b8 * 8 + 16, 15⟩
abbrev SCRV_FAULT.STROKE_LO : Fld := ⟨0x30b8 * 8 + 32, 32⟩

/-! SCRV_COUNT (R363) -/
abbrev SCRV_COUNT.SLOTS_RUN : Fld := ⟨0x30c0 * 8, 32⟩
abbrev SCRV_COUNT.FAULTS : Fld := ⟨0x30c0 * 8 + 32, 16⟩
abbrev SCRV_COUNT.BOOTS : Fld := ⟨0x30c0 * 8 + 48, 8⟩
abbrev SCRV_COUNT.WD_EXP : Fld := ⟨0x30c0 * 8 + 56, 8⟩

/-! SCRV_MBIN_DATA (R363) -/
abbrev SCRV_MBIN_DATA.DATA : Fld := ⟨0x30c8 * 8, 64⟩

/-! SCRV_MBIN_CTRL (R363) -/
abbrev SCRV_MBIN_CTRL.COUNT : Fld := ⟨0x30d0 * 8, 7⟩
abbrev SCRV_MBIN_CTRL.SEND : Fld := ⟨0x30d0 * 8 + 8, 1⟩
abbrev SCRV_MBIN_CTRL.BUSY : Fld := ⟨0x30d0 * 8 + 9, 1⟩
abbrev SCRV_MBIN_CTRL.CLEAR : Fld := ⟨0x30d0 * 8 + 10, 1⟩
abbrev SCRV_MBIN_CTRL.REFUSED : Fld := ⟨0x30d0 * 8 + 16, 16⟩

/-! SCRV_BOOT (R363) -/
abbrev SCRV_BOOT.STATUS : Fld := ⟨0x30d8 * 8, 16⟩

/-! SCRV_MEM_INDEX (R43) -/
abbrev SCRV_MEM_INDEX.ENTRY : Fld := ⟨0x30e0 * 8, 16⟩
abbrev SCRV_MEM_INDEX.WORD : Fld := ⟨0x30e0 * 8 + 16, 8⟩
abbrev SCRV_MEM_INDEX.AUTOINC : Fld := ⟨0x30e0 * 8 + 24, 1⟩

/-! SCRV_MEM_DATA_LO (R43) -/
abbrev SCRV_MEM_DATA_LO.DATA : Fld := ⟨0x30e8 * 8, 64⟩

/-! SCRV_MEM_DATA_HI (R43) -/
abbrev SCRV_MEM_DATA_HI.DATA : Fld := ⟨0x30f0 * 8, 64⟩

/-! SCRV_MEM_CTRL (R43) -/
abbrev SCRV_MEM_CTRL.OP : Fld := ⟨0x30f8 * 8, 2⟩
abbrev SCRV_MEM_CTRL.GO : Fld := ⟨0x30f8 * 8 + 8, 1⟩
abbrev SCRV_MEM_CTRL.BUSY : Fld := ⟨0x30f8 * 8 + 9, 1⟩
abbrev SCRV_MEM_CTRL.ERR : Fld := ⟨0x30f8 * 8 + 10, 1⟩

/-! SCRV_TB (R363) -/
abbrev SCRV_TB.VALUE (n : Nat) : Fld := ⟨(0x3100 + 0x8 * n) * 8, 64⟩

/-! EVA_CTRL (R388) -/
abbrev EVA_CTRL.MSIX_EN : Fld := ⟨0x4080 * 8, 1⟩
abbrev EVA_CTRL.IRQ_EN : Fld := ⟨0x4080 * 8 + 1, 1⟩
abbrev EVA_CTRL.EVQ_EN : Fld := ⟨0x4080 * 8 + 2, 1⟩
abbrev EVA_CTRL.VEC_GAP_US : Fld := ⟨0x4080 * 8 + 16, 16⟩

/-! EVA_RAW (R388) -/
abbrev EVA_RAW.RAW (n : Nat) : Fld := ⟨(0x4088 + 0x8 * n) * 8, 64⟩

/-! EVA_PEND (R388) -/
abbrev EVA_PEND.PEND (n : Nat) : Fld := ⟨(0x4098 + 0x8 * n) * 8, 64⟩

/-! EVA_EN (R388) -/
abbrev EVA_EN.EN (n : Nat) : Fld := ⟨(0x40a8 + 0x8 * n) * 8, 64⟩

/-! EVA_EVQ (R388) -/
abbrev EVA_EVQ.EVQ (n : Nat) : Fld := ⟨(0x40b8 + 0x8 * n) * 8, 64⟩

/-! EVA_VPEND (R388) -/
abbrev EVA_VPEND.VPEND : Fld := ⟨0x40c8 * 8, 32⟩
abbrev EVA_VPEND.HELD : Fld := ⟨0x40c8 * 8 + 32, 32⟩

/-! EVA_IRQ (R388) -/
abbrev EVA_IRQ.LEVEL : Fld := ⟨0x40d0 * 8, 1⟩
abbrev EVA_IRQ.ASSERTS : Fld := ⟨0x40d0 * 8 + 32, 32⟩

/-! EVA_MSGS (R388) -/
abbrev EVA_MSGS.SENT : Fld := ⟨0x40d8 * 8, 32⟩
abbrev EVA_MSGS.COALESCED : Fld := ⟨0x40d8 * 8 + 32, 32⟩

/-! EVA_LAST (R388) -/
abbrev EVA_LAST.EV : Fld := ⟨0x40e0 * 8, 7⟩
abbrev EVA_LAST.STROKE_LO : Fld := ⟨0x40e0 * 8 + 32, 32⟩

/-! EVA_ITEMS (R388) -/
abbrev EVA_ITEMS.ITEMS : Fld := ⟨0x40e8 * 8, 32⟩

/-! EVA_FORCE (R388) -/
abbrev EVA_FORCE.FORCE (n : Nat) : Fld := ⟨(0x40f0 + 0x8 * n) * 8, 64⟩

/-! EVA_VEC (R388) -/
abbrev EVA_VEC.VECTOR (n : Nat) (i : Nat) : Fld := ⟨(0x4100 + 0x8 * n) * 8 + 0 + 8 * i, 5⟩
abbrev EVA_VEC.IRQ (n : Nat) (i : Nat) : Fld := ⟨(0x4100 + 0x8 * n) * 8 + 5 + 8 * i, 1⟩

/-! TSU_CTRL (R161) -/
abbrev TSU_CTRL.SOURCE : Fld := ⟨strokeBase + 0x5080 * 8, 2⟩
abbrev TSU_CTRL.INIT_AUTO : Fld := ⟨0x5080 * 8 + 2, 1⟩
abbrev TSU_CTRL.HOLD_AVG : Fld := ⟨0x5080 * 8 + 4, 4⟩

/-! TSU_NOW_S (R161) -/
abbrev TSU_NOW_S.SECONDS : Fld := ⟨0x5088 * 8, 48⟩

/-! TSU_NOW_NS (R161) -/
abbrev TSU_NOW_NS.NS : Fld := ⟨0x5090 * 8, 30⟩
abbrev TSU_NOW_NS.FRAC : Fld := ⟨0x5090 * 8 + 32, 16⟩

/-! TSU_NOW_STROKE (R161) -/
abbrev TSU_NOW_STROKE.STROKE : Fld := ⟨0x5098 * 8, 64⟩

/-! TSU_STRIKE_S (R161) -/
abbrev TSU_STRIKE_S.SECONDS : Fld := ⟨0x50a0 * 8, 48⟩

/-! TSU_STRIKE_NS (R161) -/
abbrev TSU_STRIKE_NS.NS : Fld := ⟨0x50a8 * 8, 30⟩
abbrev TSU_STRIKE_NS.FRAC : Fld := ⟨0x50a8 * 8 + 32, 16⟩

/-! TSU_RATE (R161) -/
abbrev TSU_RATE.RATE : Fld := ⟨0x50b0 * 8, 32⟩

/-! TSU_STATUS (R161) -/
abbrev TSU_STATUS.STATE : Fld := ⟨0x50b8 * 8, 3⟩
abbrev TSU_STATUS.JUMP_PEND : Fld := ⟨0x50b8 * 8 + 3, 1⟩
abbrev TSU_STATUS.STEPS : Fld := ⟨0x50b8 * 8 + 8, 8⟩

/-! TSU_STEP_S (R161) -/
abbrev TSU_STEP_S.DELTA_S : Fld := ⟨strokeBase + 0x50c0 * 8, 48⟩

/-! TSU_STEP_NS (R161) -/
abbrev TSU_STEP_NS.NS : Fld := ⟨strokeBase + 0x50c8 * 8, 30⟩
abbrev TSU_STEP_NS.FRAC : Fld := ⟨strokeBase + 0x50c8 * 8 + 32, 16⟩

/-! TSU_STEP_CTRL (R161) -/
abbrev TSU_STEP_CTRL.VALID : Fld := ⟨strokeBase + 0x50d0 * 8, 1⟩
abbrev TSU_STEP_CTRL.ABS : Fld := ⟨strokeBase + 0x50d0 * 8 + 1, 1⟩
abbrev TSU_STEP_CTRL.ACCEPT : Fld := ⟨0x50d0 * 8 + 2, 1⟩
abbrev TSU_STEP_CTRL.REJECT : Fld := ⟨0x50d0 * 8 + 3, 1⟩

/-! TSU_JUMP (R161) -/
abbrev TSU_JUMP.THR_NS : Fld := ⟨0x50d8 * 8, 30⟩
abbrev TSU_JUMP.CONFIRM : Fld := ⟨0x50d8 * 8 + 32, 4⟩

/-! TSU_JUMP_S (R161) -/
abbrev TSU_JUMP_S.OFS_S : Fld := ⟨0x50e0 * 8, 48⟩

/-! TSU_JUMP_NS (R161) -/
abbrev TSU_JUMP_NS.OFS_NS : Fld := ⟨0x50e8 * 8, 30⟩
abbrev TSU_JUMP_NS.STROKE_LO : Fld := ⟨0x50e8 * 8 + 32, 32⟩

/-! TSU_LAST_S (R161) -/
abbrev TSU_LAST_S.DELTA_S : Fld := ⟨0x50f0 * 8, 48⟩

/-! TSU_LAST_NS (R161) -/
abbrev TSU_LAST_NS.NS : Fld := ⟨0x50f8 * 8, 30⟩
abbrev TSU_LAST_NS.STROKE_LO : Fld := ⟨0x50f8 * 8 + 32, 32⟩

/-! TSU_UTC (R161) -/
abbrev TSU_UTC.OFFSET : Fld := ⟨0x5100 * 8, 16⟩
abbrev TSU_UTC.LEAP61 : Fld := ⟨0x5100 * 8 + 16, 1⟩
abbrev TSU_UTC.LEAP59 : Fld := ⟨0x5100 * 8 + 17, 1⟩
abbrev TSU_UTC.VALID : Fld := ⟨0x5100 * 8 + 18, 1⟩

/-! TSU_ANCHOR (R161) -/
abbrev TSU_ANCHOR.PERIOD_MS : Fld := ⟨0x5108 * 8, 16⟩

/-! TSU_LAT (R161) -/
abbrev TSU_LAT.RX (n : Nat) : Fld := ⟨(0x5110 + 0x8 * n) * 8, 16⟩
abbrev TSU_LAT.TX (n : Nat) : Fld := ⟨(0x5110 + 0x8 * n) * 8 + 16, 16⟩

/-! TSU_COUNT (R161) -/
abbrev TSU_COUNT.EVT_LOST : Fld := ⟨0x5130 * 8, 16⟩
abbrev TSU_COUNT.STEPS_APPLIED : Fld := ⟨0x5130 * 8 + 16, 16⟩
abbrev TSU_COUNT.JUMPS : Fld := ⟨0x5130 * 8 + 32, 16⟩

/-! TSU_INK (R161) -/
abbrev TSU_INK.MON_OFS : Fld := ⟨0x5138 * 8, 32⟩
abbrev TSU_INK.REJOIN_DELTA : Fld := ⟨0x5138 * 8 + 32, 32⟩

/-! TSU_LQ_CTRL (R161) -/
abbrev TSU_LQ_CTRL.EN : Fld := ⟨0x5140 * 8, 1⟩
abbrev TSU_LQ_CTRL.FLUSH : Fld := ⟨0x5140 * 8 + 1, 1⟩

/-! TSU_LQ_STATUS (R161) -/
abbrev TSU_LQ_STATUS.VALID_MASK : Fld := ⟨0x5148 * 8, 16⟩
abbrev TSU_LQ_STATUS.PAST : Fld := ⟨0x5148 * 8 + 32, 16⟩
abbrev TSU_LQ_STATUS.DELAYED : Fld := ⟨0x5148 * 8 + 48, 16⟩

/-! TSU_LQW_INDEX (R43) -/
abbrev TSU_LQW_INDEX.ENTRY : Fld := ⟨0x5150 * 8, 16⟩
abbrev TSU_LQW_INDEX.WORD : Fld := ⟨0x5150 * 8 + 16, 8⟩
abbrev TSU_LQW_INDEX.AUTOINC : Fld := ⟨0x5150 * 8 + 24, 1⟩

/-! TSU_LQW_DATA_LO (R43) -/
abbrev TSU_LQW_DATA_LO.DATA : Fld := ⟨0x5158 * 8, 64⟩

/-! TSU_LQW_DATA_HI (R43) -/
abbrev TSU_LQW_DATA_HI.DATA : Fld := ⟨0x5160 * 8, 64⟩

/-! TSU_LQW_CTRL (R43) -/
abbrev TSU_LQW_CTRL.OP : Fld := ⟨0x5168 * 8, 2⟩
abbrev TSU_LQW_CTRL.GO : Fld := ⟨0x5168 * 8 + 8, 1⟩
abbrev TSU_LQW_CTRL.BUSY : Fld := ⟨0x5168 * 8 + 9, 1⟩
abbrev TSU_LQW_CTRL.ERR : Fld := ⟨0x5168 * 8 + 10, 1⟩

/-! TSU_LQ_LAST (R161) -/
abbrev TSU_LQ_LAST.NS : Fld := ⟨0x5170 * 8, 32⟩
abbrev TSU_LQ_LAST.SEC_LO : Fld := ⟨0x5170 * 8 + 32, 16⟩
abbrev TSU_LQ_LAST.ENTRY : Fld := ⟨0x5170 * 8 + 48, 4⟩

/-! TSU_STEPLOG (R161) -/
abbrev TSU_STEPLOG.STROKE_LO (n : Nat) : Fld := ⟨(0x5178 + 0x8 * n) * 8, 32⟩
abbrev TSU_STEPLOG.DELTA_US (n : Nat) : Fld := ⟨(0x5178 + 0x8 * n) * 8 + 32, 32⟩

/-! TSU_HOLD_INFO (R161) -/
abbrev TSU_HOLD_INFO.SINCE_S : Fld := ⟨0x51b8 * 8, 32⟩
abbrev TSU_HOLD_INFO.HOLDS : Fld := ⟨0x51b8 * 8 + 32, 32⟩

/-! PTP_CTRL (R162) -/
abbrev PTP_CTRL.EN : Fld := ⟨strokeBase + 0x6080 * 8, 1⟩
abbrev PTP_CTRL.PORT_EN : Fld := ⟨strokeBase + 0x6080 * 8 + 4, 4⟩
abbrev PTP_CTRL.DELAY_MECH : Fld := ⟨strokeBase + 0x6080 * 8 + 8, 1⟩
abbrev PTP_CTRL.TRANSPORT : Fld := ⟨strokeBase + 0x6080 * 8 + 9, 2⟩
abbrev PTP_CTRL.TC_EN : Fld := ⟨strokeBase + 0x6080 * 8 + 11, 1⟩

/-! PTP_CFG (R162) -/
abbrev PTP_CFG.DOMAIN : Fld := ⟨strokeBase + 0x6088 * 8, 8⟩
abbrev PTP_CFG.ANN_TIMEOUT : Fld := ⟨strokeBase + 0x6088 * 8 + 8, 4⟩

/-! PTP_SERVO (R162) -/
abbrev PTP_SERVO.KP : Fld := ⟨strokeBase + 0x6090 * 8, 16⟩
abbrev PTP_SERVO.KI : Fld := ⟨strokeBase + 0x6090 * 8 + 16, 16⟩
abbrev PTP_SERVO.LOCK_NS : Fld := ⟨strokeBase + 0x6090 * 8 + 32, 16⟩
abbrev PTP_SERVO.LOCK_N : Fld := ⟨strokeBase + 0x6090 * 8 + 48, 8⟩

/-! PTP_FILT (R162) -/
abbrev PTP_FILT.DELAY_GATE : Fld := ⟨strokeBase + 0x6098 * 8, 16⟩
abbrev PTP_FILT.DELAY_SHIFT : Fld := ⟨strokeBase + 0x6098 * 8 + 16, 4⟩
abbrev PTP_FILT.FREQ_MAX : Fld := ⟨strokeBase + 0x6098 * 8 + 32, 8⟩

/-! PTP_ASYM (R162) -/
abbrev PTP_ASYM.ASYM (n : Nat) : Fld := ⟨strokeBase + (0x60a0 + 0x8 * n) * 8, 32⟩

/-! PTP_OFFSET (R162) -/
abbrev PTP_OFFSET.OFS : Fld := ⟨0x60c0 * 8, 48⟩

/-! PTP_MPD (R162) -/
abbrev PTP_MPD.MPD : Fld := ⟨0x60c8 * 8, 48⟩

/-! PTP_STATE (R162) -/
abbrev PTP_STATE.STATE : Fld := ⟨0x60d0 * 8, 3⟩
abbrev PTP_STATE.SLAVE_PORT : Fld := ⟨0x60d0 * 8 + 4, 2⟩
abbrev PTP_STATE.FM_SEL : Fld := ⟨0x60d0 * 8 + 8, 3⟩
abbrev PTP_STATE.FM_COUNT : Fld := ⟨0x60d0 * 8 + 12, 4⟩
abbrev PTP_STATE.LOG_SYNC : Fld := ⟨0x60d0 * 8 + 16, 8⟩
abbrev PTP_STATE.LOG_DREQ : Fld := ⟨0x60d0 * 8 + 24, 8⟩
abbrev PTP_STATE.LOG_ANN : Fld := ⟨0x60d0 * 8 + 32, 8⟩

/-! PTP_PARENT_ID (R162) -/
abbrev PTP_PARENT_ID.ID : Fld := ⟨0x60d8 * 8, 64⟩

/-! PTP_PARENT (R162) -/
abbrev PTP_PARENT.PORTNUM : Fld := ⟨0x60e0 * 8, 16⟩
abbrev PTP_PARENT.STEPS_REMOVED : Fld := ⟨0x60e0 * 8 + 16, 16⟩
abbrev PTP_PARENT.TWO_STEP : Fld := ⟨0x60e0 * 8 + 32, 1⟩

/-! PTP_GM (R162) -/
abbrev PTP_GM.PRIO1 : Fld := ⟨0x60e8 * 8, 8⟩
abbrev PTP_GM.CLASS : Fld := ⟨0x60e8 * 8 + 8, 8⟩
abbrev PTP_GM.ACCURACY : Fld := ⟨0x60e8 * 8 + 16, 8⟩
abbrev PTP_GM.VARIANCE : Fld := ⟨0x60e8 * 8 + 24, 16⟩
abbrev PTP_GM.PRIO2 : Fld := ⟨0x60e8 * 8 + 40, 8⟩
abbrev PTP_GM.TIME_SOURCE : Fld := ⟨0x60e8 * 8 + 48, 8⟩

/-! PTP_GM_ID (R162) -/
abbrev PTP_GM_ID.ID : Fld := ⟨0x60f0 * 8, 64⟩

/-! PTP_OWN_ID (R162) -/
abbrev PTP_OWN_ID.ID : Fld := ⟨0x60f8 * 8, 64⟩

/-! PTP_FM_ID (R162) -/
abbrev PTP_FM_ID.ID (n : Nat) : Fld := ⟨(0x6100 + 0x10 * n) * 8, 64⟩

/-! PTP_FM_DS (R162) -/
abbrev PTP_FM_DS.GM (n : Nat) : Fld := ⟨(0x6108 + 0x10 * n) * 8, 48⟩
abbrev PTP_FM_DS.STEPS (n : Nat) : Fld := ⟨(0x6108 + 0x10 * n) * 8 + 48, 8⟩
abbrev PTP_FM_DS.PORT (n : Nat) : Fld := ⟨(0x6108 + 0x10 * n) * 8 + 56, 2⟩
abbrev PTP_FM_DS.QUALIFIED (n : Nat) : Fld := ⟨(0x6108 + 0x10 * n) * 8 + 58, 1⟩
abbrev PTP_FM_DS.VALID (n : Nat) : Fld := ⟨(0x6108 + 0x10 * n) * 8 + 59, 1⟩

/-! PTP_SWITCH (R162) -/
abbrev PTP_SWITCH.SWITCHES : Fld := ⟨0x6180 * 8, 16⟩
abbrev PTP_SWITCH.STROKE_LO : Fld := ⟨0x6180 * 8 + 32, 32⟩

/-! PTP_T (R162) -/
abbrev PTP_T.NS (n : Nat) : Fld := ⟨(0x6188 + 0x8 * n) * 8, 32⟩
abbrev PTP_T.SEC_LO (n : Nat) : Fld := ⟨(0x6188 + 0x8 * n) * 8 + 32, 16⟩

/-! PTP_CORR (R162) -/
abbrev PTP_CORR.C_S : Fld := ⟨0x61a8 * 8, 32⟩
abbrev PTP_CORR.C_R : Fld := ⟨0x61a8 * 8 + 32, 32⟩

/-! PTP_RXCNT (R162) -/
abbrev PTP_RXCNT.SYNC : Fld := ⟨0x61b0 * 8, 16⟩
abbrev PTP_RXCNT.FUP : Fld := ⟨0x61b0 * 8 + 16, 16⟩
abbrev PTP_RXCNT.DRESP : Fld := ⟨0x61b0 * 8 + 32, 16⟩
abbrev PTP_RXCNT.ANN : Fld := ⟨0x61b0 * 8 + 48, 16⟩

/-! PTP_TXCNT (R162) -/
abbrev PTP_TXCNT.DREQ : Fld := ⟨0x61b8 * 8, 16⟩
abbrev PTP_TXCNT.PDREQ : Fld := ⟨0x61b8 * 8 + 16, 16⟩
abbrev PTP_TXCNT.PDRESP : Fld := ⟨0x61b8 * 8 + 32, 16⟩
abbrev PTP_TXCNT.SAMPLES : Fld := ⟨0x61b8 * 8 + 48, 16⟩

/-! PTP_DROP (R162) -/
abbrev PTP_DROP.DROP (n : Nat) (i : Nat) : Fld := ⟨(0x61c0 + 0x8 * n) * 8 + 0 + 16 * i, 16⟩

/-! PTP_TC_CNT (R162) -/
abbrev PTP_TC_CNT.CORRECTED : Fld := ⟨0x61e0 * 8, 32⟩
abbrev PTP_TC_CNT.UNCORRECTED : Fld := ⟨0x61e0 * 8 + 32, 32⟩

/-! PTP_TC_RES (R162) -/
abbrev PTP_TC_RES.MAX : Fld := ⟨0x61e8 * 8, 32⟩
abbrev PTP_TC_RES.LAST : Fld := ⟨0x61e8 * 8 + 32, 32⟩

/-! PTP_PEER (R162) -/
abbrev PTP_PEER.LINK_DELAY : Fld := ⟨0x61f0 * 8, 48⟩

/-! PTP_RATE_LIM (R162) -/
abbrev PTP_RATE_LIM.MAX_PPS : Fld := ⟨0x61f8 * 8, 16⟩
abbrev PTP_RATE_LIM.LIMITED : Fld := ⟨0x61f8 * 8 + 32, 16⟩

/-! PTP_VLOG (R162) -/
abbrev PTP_VLOG.ENTRY (n : Nat) : Fld := ⟨(0x6200 + 0x8 * n) * 8, 64⟩

/-! TOUT_CFG (R163) -/
abbrev TOUT_CFG.MODE (n : Nat) : Fld := ⟨strokeBase + (0x7080 + 0x20 * n) * 8, 3⟩
abbrev TOUT_CFG.POL (n : Nat) : Fld := ⟨strokeBase + (0x7080 + 0x20 * n) * 8 + 3, 1⟩
abbrev TOUT_CFG.TU (n : Nat) : Fld := ⟨strokeBase + (0x7080 + 0x20 * n) * 8 + 4, 6⟩
abbrev TOUT_CFG.WIDTH (n : Nat) : Fld := ⟨strokeBase + (0x7080 + 0x20 * n) * 8 + 10, 28⟩
abbrev TOUT_CFG.COUNT (n : Nat) : Fld := ⟨strokeBase + (0x7080 + 0x20 * n) * 8 + 38, 14⟩
abbrev TOUT_CFG.ARMED (n : Nat) : Fld := ⟨(0x7080 + 0x20 * n) * 8 + 56, 1⟩
abbrev TOUT_CFG.DONE (n : Nat) : Fld := ⟨(0x7080 + 0x20 * n) * 8 + 58, 1⟩
abbrev TOUT_CFG.LEVEL (n : Nat) : Fld := ⟨(0x7080 + 0x20 * n) * 8 + 61, 1⟩
abbrev TOUT_CFG.PAST (n : Nat) : Fld := ⟨(0x7080 + 0x20 * n) * 8 + 57, 1⟩
abbrev TOUT_CFG.SKIPPED (n : Nat) : Fld := ⟨(0x7080 + 0x20 * n) * 8 + 59, 1⟩
abbrev TOUT_CFG.REPEATED (n : Nat) : Fld := ⟨(0x7080 + 0x20 * n) * 8 + 60, 1⟩
abbrev TOUT_CFG.BADCFG (n : Nat) : Fld := ⟨(0x7080 + 0x20 * n) * 8 + 62, 1⟩

/-! TOUT_START_S (R163) -/
abbrev TOUT_START_S.SECONDS (n : Nat) : Fld := ⟨strokeBase + (0x7088 + 0x20 * n) * 8, 48⟩

/-! TOUT_START_NS (R163) -/
abbrev TOUT_START_NS.NS (n : Nat) : Fld := ⟨strokeBase + (0x7090 + 0x20 * n) * 8, 30⟩
abbrev TOUT_START_NS.EDGES (n : Nat) : Fld := ⟨(0x7090 + 0x20 * n) * 8 + 32, 32⟩

/-! TOUT_PERIOD (R163) -/
abbrev TOUT_PERIOD.PERIOD_NS (n : Nat) : Fld := ⟨strokeBase + (0x7098 + 0x20 * n) * 8, 40⟩
abbrev TOUT_PERIOD.FRAC (n : Nat) : Fld := ⟨strokeBase + (0x7098 + 0x20 * n) * 8 + 40, 16⟩

/-! ILK_CFG (R188) -/
abbrev ILK_CFG.ROLE : Fld := ⟨strokeBase + 0x8080 * 8, 2⟩
abbrev ILK_CFG.PREF_LANE : Fld := ⟨strokeBase + 0x8080 * 8 + 2, 2⟩
abbrev ILK_CFG.LANE_EN : Fld := ⟨strokeBase + 0x8080 * 8 + 4, 4⟩
abbrev ILK_CFG.REVERT : Fld := ⟨strokeBase + 0x8080 * 8 + 8, 1⟩
abbrev ILK_CFG.TRIG_TX : Fld := ⟨strokeBase + 0x8080 * 8 + 9, 1⟩
abbrev ILK_CFG.TRIG_RX : Fld := ⟨strokeBase + 0x8080 * 8 + 10, 1⟩
abbrev ILK_CFG.JOIN_EN : Fld := ⟨strokeBase + 0x8080 * 8 + 11, 1⟩

/-! ILK_ID (R188) -/
abbrev ILK_ID.HUB_ID : Fld := ⟨strokeBase + 0x8088 * 8, 10⟩
abbrev ILK_ID.DOMAIN : Fld := ⟨strokeBase + 0x8088 * 8 + 16, 16⟩
abbrev ILK_ID.EPOCH : Fld := ⟨0x8088 * 8 + 40, 8⟩

/-! ILK_STATE (R188) -/
abbrev ILK_STATE.STATE : Fld := ⟨0x8090 * 8, 4⟩
abbrev ILK_STATE.UP_LANE : Fld := ⟨0x8090 * 8 + 4, 2⟩
abbrev ILK_STATE.DEPTH : Fld := ⟨0x8090 * 8 + 8, 3⟩
abbrev ILK_STATE.HOLD : Fld := ⟨0x8090 * 8 + 12, 1⟩
abbrev ILK_STATE.ANC_HOLD : Fld := ⟨0x8090 * 8 + 13, 1⟩

/-! ILK_TRACK (R188) -/
abbrev ILK_TRACK.AVG : Fld := ⟨strokeBase + 0x8098 * 8, 4⟩
abbrev ILK_TRACK.DLY_LOG : Fld := ⟨strokeBase + 0x8098 * 8 + 8, 4⟩
abbrev ILK_TRACK.SLEW : Fld := ⟨strokeBase + 0x8098 * 8 + 16, 4⟩
abbrev ILK_TRACK.TIME_LOG : Fld := ⟨strokeBase + 0x8098 * 8 + 20, 8⟩

/-! ILK_OFFSET (R188) -/
abbrev ILK_OFFSET.E : Fld := ⟨0x80a0 * 8, 48⟩

/-! ILK_PLACE (R188) -/
abbrev ILK_PLACE.CARRY : Fld := ⟨0x80a8 * 8, 16⟩
abbrev ILK_PLACE.APPLIED : Fld := ⟨0x80a8 * 8 + 24, 40⟩

/-! ILK_PATH (R188) -/
abbrev ILK_PATH.PATH_PS : Fld := ⟨0x80b0 * 8, 32⟩
abbrev ILK_PATH.HOPS : Fld := ⟨0x80b0 * 8 + 32, 3⟩

/-! ILK_ANC (R188) -/
abbrev ILK_ANC.ANC (n : Nat) (i : Nat) : Fld := ⟨(0x80b8 + 0x8 * n) * 8 + 0 + 10 * i, 10⟩

/-! ILK_HOLD (R188) -/
abbrev ILK_HOLD.SINCE_STROKE_LO : Fld := ⟨0x80c8 * 8, 32⟩
abbrev ILK_HOLD.HOLDS : Fld := ⟨0x80c8 * 8 + 32, 16⟩

/-! ILK_REJOIN (R188) -/
abbrev ILK_REJOIN.X : Fld := ⟨0x80d0 * 8, 48⟩
abbrev ILK_REJOIN.FAR : Fld := ⟨0x80d0 * 8 + 48, 1⟩

/-! ILK_REJOIN_LEN (R188) -/
abbrev ILK_REJOIN_LEN.STROKES : Fld := ⟨0x80d8 * 8, 32⟩

/-! ILK_ROOTSTAT (R188) -/
abbrev ILK_ROOTSTAT.HUBS : Fld := ⟨0x80e0 * 8, 11⟩
abbrev ILK_ROOTSTAT.MAXDEPTH : Fld := ⟨0x80e0 * 8 + 12, 3⟩
abbrev ILK_ROOTSTAT.MAX_RTT_NS : Fld := ⟨0x80e0 * 8 + 32, 32⟩

/-! ILK_TRIG (R188) -/
abbrev ILK_TRIG.SENT : Fld := ⟨0x80e8 * 8, 16⟩
abbrev ILK_TRIG.RECEIVED : Fld := ⟨0x80e8 * 8 + 16, 16⟩
abbrev ILK_TRIG.RETRIED : Fld := ⟨0x80e8 * 8 + 32, 16⟩

/-! ILK_COUNT (R188) -/
abbrev ILK_COUNT.REPARENTS : Fld := ⟨0x80f0 * 8, 16⟩
abbrev ILK_COUNT.RETRAINS : Fld := ⟨0x80f0 * 8 + 16, 16⟩
abbrev ILK_COUNT.REFUSALS : Fld := ⟨0x80f0 * 8 + 32, 16⟩
abbrev ILK_COUNT.LOOPS : Fld := ⟨0x80f0 * 8 + 48, 16⟩

/-! ILK_BACKUP (R188) -/
abbrev ILK_BACKUP.WAIT_MS : Fld := ⟨0x80f8 * 8, 16⟩
abbrev ILK_BACKUP.CODE_THR : Fld := ⟨0x80f8 * 8 + 16, 16⟩

/-! ILK_TOPO_INDEX (R43) -/
abbrev ILK_TOPO_INDEX.ENTRY : Fld := ⟨0x8100 * 8, 16⟩
abbrev ILK_TOPO_INDEX.WORD : Fld := ⟨0x8100 * 8 + 16, 8⟩
abbrev ILK_TOPO_INDEX.AUTOINC : Fld := ⟨0x8100 * 8 + 24, 1⟩

/-! ILK_TOPO_DATA_LO (R43) -/
abbrev ILK_TOPO_DATA_LO.DATA : Fld := ⟨0x8108 * 8, 64⟩

/-! ILK_TOPO_DATA_HI (R43) -/
abbrev ILK_TOPO_DATA_HI.DATA : Fld := ⟨0x8110 * 8, 64⟩

/-! ILK_TOPO_CTRL (R43) -/
abbrev ILK_TOPO_CTRL.OP : Fld := ⟨0x8118 * 8, 2⟩
abbrev ILK_TOPO_CTRL.GO : Fld := ⟨0x8118 * 8 + 8, 1⟩
abbrev ILK_TOPO_CTRL.BUSY : Fld := ⟨0x8118 * 8 + 9, 1⟩
abbrev ILK_TOPO_CTRL.ERR : Fld := ⟨0x8118 * 8 + 10, 1⟩

/-! ILK_LCFG (R189) -/
abbrev ILK_LCFG.EN (n : Nat) : Fld := ⟨strokeBase + (0x8120 + 0x60 * n) * 8, 1⟩
abbrev ILK_LCFG.RETRAIN (n : Nat) : Fld := ⟨(0x8120 + 0x60 * n) * 8 + 1, 1⟩

/-! ILK_ASYM (R189) -/
abbrev ILK_ASYM.A (n : Nat) : Fld := ⟨strokeBase + (0x8128 + 0x60 * n) * 8, 32⟩

/-! ILK_LAT (R189) -/
abbrev ILK_LAT.RX (n : Nat) : Fld := ⟨(0x8130 + 0x60 * n) * 8, 16⟩
abbrev ILK_LAT.TX (n : Nat) : Fld := ⟨(0x8130 + 0x60 * n) * 8 + 16, 16⟩

/-! ILK_LSTAT (R189) -/
abbrev ILK_LSTAT.LINK (n : Nat) : Fld := ⟨(0x8138 + 0x60 * n) * 8, 2⟩
abbrev ILK_LSTAT.UPSTREAM (n : Nat) : Fld := ⟨(0x8138 + 0x60 * n) * 8 + 2, 1⟩
abbrev ILK_LSTAT.ACCEPTABLE (n : Nat) : Fld := ⟨(0x8138 + 0x60 * n) * 8 + 3, 1⟩

/-! ILK_NBR (R189) -/
abbrev ILK_NBR.HUB_ID (n : Nat) : Fld := ⟨(0x8140 + 0x60 * n) * 8, 10⟩
abbrev ILK_NBR.DOMAIN (n : Nat) : Fld := ⟨(0x8140 + 0x60 * n) * 8 + 10, 16⟩
abbrev ILK_NBR.DEPTH (n : Nat) : Fld := ⟨(0x8140 + 0x60 * n) * 8 + 26, 3⟩
abbrev ILK_NBR.STATE (n : Nat) : Fld := ⟨(0x8140 + 0x60 * n) * 8 + 29, 3⟩
abbrev ILK_NBR.EPOCH (n : Nat) : Fld := ⟨(0x8140 + 0x60 * n) * 8 + 32, 8⟩

/-! ILK_PHI (R189) -/
abbrev ILK_PHI.PHI (n : Nat) : Fld := ⟨(0x8148 + 0x60 * n) * 8, 48⟩

/-! ILK_RPHI (R189) -/
abbrev ILK_RPHI.PHI (n : Nat) : Fld := ⟨(0x8150 + 0x60 * n) * 8, 48⟩

/-! ILK_RTT (R189) -/
abbrev ILK_RTT.RTT (n : Nat) : Fld := ⟨(0x8158 + 0x60 * n) * 8, 48⟩

/-! ILK_PPM (R189) -/
abbrev ILK_PPM.PPM (n : Nat) : Fld := ⟨(0x8160 + 0x60 * n) * 8, 16⟩

/-! ILK_CODE (R189) -/
abbrev ILK_CODE.CODE_ERR (n : Nat) : Fld := ⟨(0x8168 + 0x60 * n) * 8, 32⟩
abbrev ILK_CODE.MARK_ERR (n : Nat) : Fld := ⟨(0x8168 + 0x60 * n) * 8 + 32, 32⟩

/-! ILK_CRC (R189) -/
abbrev ILK_CRC.CRC_ERR (n : Nat) : Fld := ⟨(0x8170 + 0x60 * n) * 8, 32⟩
abbrev ILK_CRC.RESENDS (n : Nat) : Fld := ⟨(0x8170 + 0x60 * n) * 8 + 32, 32⟩

/-! ILK_FRM (R189) -/
abbrev ILK_FRM.TX (n : Nat) : Fld := ⟨(0x8178 + 0x60 * n) * 8, 32⟩
abbrev ILK_FRM.RX (n : Nat) : Fld := ⟨(0x8178 + 0x60 * n) * 8 + 32, 32⟩

/-! ILK_VLOG (R188) -/
abbrev ILK_VLOG.ENTRY (n : Nat) : Fld := ⟨(0x82a0 + 0x8 * n) * 8, 64⟩

/-! BCAST_LEAD (R190) -/
abbrev BCAST_LEAD.LEAD : Fld := ⟨0x9080 * 8, 32⟩

/-! BCAST_SEQ (R190) -/
abbrev BCAST_SEQ.TX_SEQ : Fld := ⟨0x9088 * 8, 16⟩
abbrev BCAST_SEQ.RX_SEQ : Fld := ⟨0x9088 * 8 + 16, 16⟩

/-! BCAST_LAST (R190) -/
abbrev BCAST_LAST.CMD : Fld := ⟨0x9090 * 8, 4⟩
abbrev BCAST_LAST.SET : Fld := ⟨0x9090 * 8 + 4, 3⟩
abbrev BCAST_LAST.PAGE : Fld := ⟨0x9090 * 8 + 8, 8⟩
abbrev BCAST_LAST.STROKE_LO : Fld := ⟨0x9090 * 8 + 32, 32⟩

/-! BCAST_STATUS (R190) -/
abbrev BCAST_STATUS.MISSED : Fld := ⟨0x9098 * 8, 16⟩
abbrev BCAST_STATUS.LATE : Fld := ⟨0x9098 * 8 + 16, 16⟩
abbrev BCAST_STATUS.STALE : Fld := ⟨0x9098 * 8 + 32, 16⟩
abbrev BCAST_STATUS.DROPPED : Fld := ⟨0x9098 * 8 + 48, 16⟩

/-! BCAST_MISS (R190) -/
abbrev BCAST_MISS.CMD (n : Nat) : Fld := ⟨(0x90a0 + 0x8 * n) * 8, 4⟩
abbrev BCAST_MISS.SET (n : Nat) : Fld := ⟨(0x90a0 + 0x8 * n) * 8 + 4, 3⟩
abbrev BCAST_MISS.PAGE (n : Nat) : Fld := ⟨(0x90a0 + 0x8 * n) * 8 + 8, 8⟩
abbrev BCAST_MISS.BSEQ (n : Nat) : Fld := ⟨(0x90a0 + 0x8 * n) * 8 + 16, 16⟩
abbrev BCAST_MISS.STROKE_LO (n : Nat) : Fld := ⟨(0x90a0 + 0x8 * n) * 8 + 32, 32⟩

/-! BCAST_CTRL (R190) -/
abbrev BCAST_CTRL.ACCEPT : Fld := ⟨strokeBase + 0x90e0 * 8, 3⟩

/-! BCAST_RESEND (R190) -/
abbrev BCAST_RESEND.RESENT : Fld := ⟨0x90e8 * 8, 32⟩

/-! BCAST_RX (R190) -/
abbrev BCAST_RX.RECEIVED : Fld := ⟨0x90f0 * 8, 32⟩
abbrev BCAST_RX.FORWARDED : Fld := ⟨0x90f0 * 8 + 32, 32⟩

/-! BCAST_TIME (R190) -/
abbrev BCAST_TIME.TIME_RX : Fld := ⟨0x90f8 * 8, 32⟩
abbrev BCAST_TIME.TIME_MISSED : Fld := ⟨0x90f8 * 8 + 32, 32⟩

/-! FEGRP_CFG (R66) -/
abbrev FEGRP_CFG.PINWIN_HI (n : Nat) : Fld := ⟨strokeBase + (0x10080 + 0x20 * n) * 8, 12⟩
abbrev FEGRP_CFG.PINWIN_LO (n : Nat) : Fld := ⟨strokeBase + (0x10080 + 0x20 * n) * 8 + 12, 12⟩
abbrev FEGRP_CFG.AC_LO (n : Nat) : Fld := ⟨strokeBase + (0x10080 + 0x20 * n) * 8 + 24, 12⟩
abbrev FEGRP_CFG.AC_HI (n : Nat) : Fld := ⟨strokeBase + (0x10080 + 0x20 * n) * 8 + 36, 12⟩
abbrev FEGRP_CFG.AC_SETTLE (n : Nat) : Fld := ⟨strokeBase + (0x10080 + 0x20 * n) * 8 + 48, 8⟩
abbrev FEGRP_CFG.AA (n : Nat) : Fld := ⟨strokeBase + (0x10080 + 0x20 * n) * 8 + 56, 2⟩

/-! FEGRP_REF (R67) -/
abbrev FEGRP_REF.REFG_UV (n : Nat) : Fld := ⟨(0x10088 + 0x20 * n) * 8, 23⟩
abbrev FEGRP_REF.REFG_OK (n : Nat) : Fld := ⟨(0x10088 + 0x20 * n) * 8 + 32, 1⟩
abbrev FEGRP_REF.AGE (n : Nat) : Fld := ⟨(0x10088 + 0x20 * n) * 8 + 40, 8⟩

/-! FEGRP_STATUS (R67) -/
abbrev FEGRP_STATUS.OVR_NOW (n : Nat) : Fld := ⟨(0x10090 + 0x20 * n) * 8, 16⟩
abbrev FEGRP_STATUS.NBR_LEFT (n : Nat) : Fld := ⟨(0x10090 + 0x20 * n) * 8 + 16, 4⟩
abbrev FEGRP_STATUS.OPEN_NOW (n : Nat) : Fld := ⟨(0x10090 + 0x20 * n) * 8 + 32, 16⟩

/-! FEGRP_COUNT (R67) -/
abbrev FEGRP_COUNT.OVR_STROKES (n : Nat) : Fld := ⟨(0x10098 + 0x20 * n) * 8, 32⟩
abbrev FEGRP_COUNT.NBR_STROKES (n : Nat) : Fld := ⟨(0x10098 + 0x20 * n) * 8 + 32, 32⟩

/-! FECH0_CFG (R68) -/
abbrev FECH0_CFG.RANGE (n : Nat) : Fld := ⟨strokeBase + (0x11080 + 0x8 * n) * 8, 2⟩
abbrev FECH0_CFG.MODE (n : Nat) : Fld := ⟨strokeBase + (0x11080 + 0x8 * n) * 8 + 2, 2⟩
abbrev FECH0_CFG.BIASNET (n : Nat) : Fld := ⟨strokeBase + (0x11080 + 0x8 * n) * 8 + 4, 2⟩
abbrev FECH0_CFG.OVR (n : Nat) : Fld := ⟨(0x11080 + 0x8 * n) * 8 + 48, 1⟩
abbrev FECH0_CFG.NBR (n : Nat) : Fld := ⟨(0x11080 + 0x8 * n) * 8 + 49, 1⟩
abbrev FECH0_CFG.OPEN (n : Nat) : Fld := ⟨(0x11080 + 0x8 * n) * 8 + 50, 1⟩
abbrev FECH0_CFG.SETTLE (n : Nat) : Fld := ⟨(0x11080 + 0x8 * n) * 8 + 51, 1⟩
abbrev FECH0_CFG.FAULT (n : Nat) : Fld := ⟨(0x11080 + 0x8 * n) * 8 + 52, 2⟩
abbrev FECH0_CFG.OVR_CNT (n : Nat) : Fld := ⟨(0x11080 + 0x8 * n) * 8 + 56, 8⟩

/-! FECH1_CFG (R68) -/
abbrev FECH1_CFG.RANGE (n : Nat) : Fld := ⟨strokeBase + (0x12080 + 0x8 * n) * 8, 2⟩
abbrev FECH1_CFG.MODE (n : Nat) : Fld := ⟨strokeBase + (0x12080 + 0x8 * n) * 8 + 2, 2⟩
abbrev FECH1_CFG.BIASNET (n : Nat) : Fld := ⟨strokeBase + (0x12080 + 0x8 * n) * 8 + 4, 2⟩
abbrev FECH1_CFG.OVR (n : Nat) : Fld := ⟨(0x12080 + 0x8 * n) * 8 + 48, 1⟩
abbrev FECH1_CFG.NBR (n : Nat) : Fld := ⟨(0x12080 + 0x8 * n) * 8 + 49, 1⟩
abbrev FECH1_CFG.OPEN (n : Nat) : Fld := ⟨(0x12080 + 0x8 * n) * 8 + 50, 1⟩
abbrev FECH1_CFG.SETTLE (n : Nat) : Fld := ⟨(0x12080 + 0x8 * n) * 8 + 51, 1⟩
abbrev FECH1_CFG.FAULT (n : Nat) : Fld := ⟨(0x12080 + 0x8 * n) * 8 + 52, 2⟩
abbrev FECH1_CFG.OVR_CNT (n : Nat) : Fld := ⟨(0x12080 + 0x8 * n) * 8 + 56, 8⟩

/-! SLOW_CFG (R69) -/
abbrev SLOW_CFG.WIRING (n : Nat) : Fld := ⟨strokeBase + (0x13080 + 0x18 * n) * 8, 3⟩
abbrev SLOW_CFG.SRC (n : Nat) : Fld := ⟨strokeBase + (0x13080 + 0x18 * n) * 8 + 4, 2⟩
abbrev SLOW_CFG.NOTCH (n : Nat) : Fld := ⟨strokeBase + (0x13080 + 0x18 * n) * 8 + 6, 2⟩
abbrev SLOW_CFG.ORDER (n : Nat) : Fld := ⟨strokeBase + (0x13080 + 0x18 * n) * 8 + 8, 2⟩
abbrev SLOW_CFG.CHECK_EN (n : Nat) : Fld := ⟨strokeBase + (0x13080 + 0x18 * n) * 8 + 10, 1⟩
abbrev SLOW_CFG.RANGE (n : Nat) : Fld := ⟨strokeBase + (0x13080 + 0x18 * n) * 8 + 12, 2⟩
abbrev SLOW_CFG.OPEN_KOHM (n : Nat) : Fld := ⟨strokeBase + (0x13080 + 0x18 * n) * 8 + 16, 16⟩
abbrev SLOW_CFG.SHORT_MILLI (n : Nat) : Fld := ⟨strokeBase + (0x13080 + 0x18 * n) * 8 + 32, 16⟩

/-! SLOW_TIME (R69) -/
abbrev SLOW_TIME.SETTLE_US (n : Nat) : Fld := ⟨strokeBase + (0x13088 + 0x18 * n) * 8, 16⟩
abbrev SLOW_TIME.EVERY (n : Nat) : Fld := ⟨strokeBase + (0x13088 + 0x18 * n) * 8 + 16, 8⟩

/-! SLOW_STATUS (R70) -/
abbrev SLOW_STATUS.VALUE (n : Nat) : Fld := ⟨(0x13090 + 0x18 * n) * 8, 32⟩
abbrev SLOW_STATUS.LEAD_MILLI (n : Nat) : Fld := ⟨(0x13090 + 0x18 * n) * 8 + 32, 16⟩
abbrev SLOW_STATUS.FLAGS (n : Nat) : Fld := ⟨(0x13090 + 0x18 * n) * 8 + 48, 6⟩
abbrev SLOW_STATUS.CHECK (n : Nat) : Fld := ⟨(0x13090 + 0x18 * n) * 8 + 54, 2⟩
abbrev SLOW_STATUS.COUNT (n : Nat) : Fld := ⟨(0x13090 + 0x18 * n) * 8 + 56, 8⟩

/-! EXC_CFG (R71) -/
abbrev EXC_CFG.ICODE (n : Nat) : Fld := ⟨strokeBase + (0x14080 + 0x18 * n) * 8, 7⟩

/-! EXC_MEAS (R71) -/
abbrev EXC_MEAS.I_NA (n : Nat) : Fld := ⟨(0x14088 + 0x18 * n) * 8, 21⟩
abbrev EXC_MEAS.TRIM_STROKE (n : Nat) : Fld := ⟨(0x14088 + 0x18 * n) * 8 + 32, 32⟩

/-! EXC_STATUS (R71) -/
abbrev EXC_STATUS.COMPL (n : Nat) : Fld := ⟨(0x14090 + 0x18 * n) * 8, 1⟩
abbrev EXC_STATUS.TRIM_FAIL (n : Nat) : Fld := ⟨(0x14090 + 0x18 * n) * 8 + 1, 1⟩
abbrev EXC_STATUS.IN_USE (n : Nat) : Fld := ⟨(0x14090 + 0x18 * n) * 8 + 2, 1⟩
abbrev EXC_STATUS.COMPL_CNT (n : Nat) : Fld := ⟨(0x14090 + 0x18 * n) * 8 + 16, 16⟩

/-! NIB_CORR (R95) -/
abbrev NIB_CORR.OFS (n : Nat) : Fld := ⟨strokeBase + (0x15080 + 0x8 * n) * 8, 24⟩
abbrev NIB_CORR.GAIN (n : Nat) : Fld := ⟨strokeBase + (0x15080 + 0x8 * n) * 8 + 24, 24⟩
abbrev NIB_CORR.LIN_RES (n : Nat) : Fld := ⟨strokeBase + (0x15080 + 0x8 * n) * 8 + 48, 16⟩

/-! NIB_STAT (R95) -/
abbrev NIB_STAT.STATE (n : Nat) : Fld := ⟨(0x152c0 + 0x8 * n) * 8, 2⟩
abbrev NIB_STAT.REASON (n : Nat) : Fld := ⟨(0x152c0 + 0x8 * n) * 8 + 4, 4⟩
abbrev NIB_STAT.REF_DEV (n : Nat) : Fld := ⟨(0x152c0 + 0x8 * n) * 8 + 8, 16⟩
abbrev NIB_STAT.GND_DEV (n : Nat) : Fld := ⟨(0x152c0 + 0x8 * n) * 8 + 24, 16⟩
abbrev NIB_STAT.RDO_CNT (n : Nat) : Fld := ⟨(0x152c0 + 0x8 * n) * 8 + 40, 8⟩
abbrev NIB_STAT.REF_FAILS (n : Nat) : Fld := ⟨(0x152c0 + 0x8 * n) * 8 + 52, 4⟩
abbrev NIB_STAT.GND_FAILS (n : Nat) : Fld := ⟨(0x152c0 + 0x8 * n) * 8 + 56, 4⟩
abbrev NIB_STAT.SEEDED (n : Nat) : Fld := ⟨(0x152c0 + 0x8 * n) * 8 + 51, 1⟩

/-! NIB_CTRL (R96) -/
abbrev NIB_CTRL.DUAL_EN : Fld := ⟨strokeBase + 0x15500 * 8, 1⟩
abbrev NIB_CTRL.ROT : Fld := ⟨strokeBase + 0x15500 * 8 + 1, 1⟩

/-! NIB_STATE (R96) -/
abbrev NIB_STATE.SERVICEABLE : Fld := ⟨0x15508 * 8, 7⟩
abbrev NIB_STATE.IN_SERVICE : Fld := ⟨0x15508 * 8 + 8, 7⟩
abbrev NIB_STATE.ROUNDS : Fld := ⟨0x15508 * 8 + 16, 5⟩
abbrev NIB_STATE.DUAL_ON : Fld := ⟨0x15508 * 8 + 21, 1⟩
abbrev NIB_STATE.LADDER : Fld := ⟨0x15508 * 8 + 24, 3⟩
abbrev NIB_STATE.KEPT : Fld := ⟨0x15508 * 8 + 32, 6⟩
abbrev NIB_STATE.RESERVES : Fld := ⟨0x15508 * 8 + 40, 4⟩
abbrev NIB_STATE.LADDER_STROKE : Fld := ⟨0x15508 * 8 + 48, 16⟩

/-! NIB_SLOTS (R96) -/
abbrev NIB_SLOTS.IDLE : Fld := ⟨0x15510 * 8, 16⟩
abbrev NIB_SLOTS.REFG_RES : Fld := ⟨0x15510 * 8 + 16, 6⟩
abbrev NIB_SLOTS.TRIM : Fld := ⟨0x15510 * 8 + 32, 16⟩
abbrev NIB_SLOTS.SLOTS : Fld := ⟨0x15510 * 8 + 48, 16⟩

/-! NIB_TIER (R96) -/
abbrev NIB_TIER.TIER (i : Nat) : Fld := ⟨strokeBase + 0x15518 * 8 + 0 + 2 * i, 2⟩

/-! NIB_SHED0 (R96) -/
abbrev NIB_SHED0.ENTRY (i : Nat) : Fld := ⟨strokeBase + 0x15520 * 8 + 0 + 5 * i, 5⟩

/-! NIB_SHED1 (R96) -/
abbrev NIB_SHED1.ENTRY (i : Nat) : Fld := ⟨strokeBase + 0x15528 * 8 + 0 + 5 * i, 5⟩

/-! NIB_SHED2 (R96) -/
abbrev NIB_SHED2.ENTRY (i : Nat) : Fld := ⟨strokeBase + 0x15530 * 8 + 0 + 5 * i, 5⟩

/-! NIB_DX (R96) -/
abbrev NIB_DX.EN : Fld := ⟨strokeBase + 0x15538 * 8, 16⟩
abbrev NIB_DX.AVG : Fld := ⟨strokeBase + 0x15538 * 8 + 16, 4⟩

/-! NIB_CHECK (R96) -/
abbrev NIB_CHECK.REF_LIM : Fld := ⟨strokeBase + 0x15540 * 8, 16⟩
abbrev NIB_CHECK.GND_LIM : Fld := ⟨strokeBase + 0x15540 * 8 + 16, 16⟩
abbrev NIB_CHECK.CONSEC : Fld := ⟨strokeBase + 0x15540 * 8 + 32, 4⟩
abbrev NIB_CHECK.RDO_LIM : Fld := ⟨strokeBase + 0x15540 * 8 + 40, 8⟩
abbrev NIB_CHECK.DUAL_LIM : Fld := ⟨strokeBase + 0x15540 * 8 + 48, 16⟩

/-! NIB_RETIRE (R96) -/
abbrev NIB_RETIRE.NIB : Fld := ⟨0x15548 * 8, 7⟩
abbrev NIB_RETIRE.OP : Fld := ⟨0x15548 * 8 + 8, 2⟩
abbrev NIB_RETIRE.KEY : Fld := ⟨0x15548 * 8 + 16, 16⟩

/-! NIB_SVC0 (R96) -/
abbrev NIB_SVC0.SVC_LO : Fld := ⟨0x15550 * 8, 64⟩

/-! NIB_SVC1 (R96) -/
abbrev NIB_SVC1.SVC_HI : Fld := ⟨0x15558 * 8, 8⟩

/-! NIB_LEDGER_SEL (R96) -/
abbrev NIB_LEDGER_SEL.INDEX : Fld := ⟨0x15560 * 8, 9⟩
abbrev NIB_LEDGER_SEL.USED : Fld := ⟨0x15560 * 8 + 16, 10⟩
abbrev NIB_LEDGER_SEL.FULL : Fld := ⟨0x15560 * 8 + 26, 1⟩

/-! NIB_LEDGER (R96) -/
abbrev NIB_LEDGER.ENTRY : Fld := ⟨0x15568 * 8, 64⟩

/-! NIB_COUNT (R96) -/
abbrev NIB_COUNT.DUAL_DIS : Fld := ⟨0x15570 * 8, 16⟩
abbrev NIB_COUNT.RETIRE_REFUSED : Fld := ⟨0x15570 * 8 + 16, 8⟩
abbrev NIB_COUNT.LEDGER_LOST : Fld := ⟨0x15570 * 8 + 24, 8⟩
abbrev NIB_COUNT.REFG_STALE : Fld := ⟨0x15570 * 8 + 32, 32⟩

/-! NIB_ROT (R96) -/
abbrev NIB_ROT.SEED : Fld := ⟨strokeBase + 0x15578 * 8, 16⟩

/-! TRIM_CTRL (R112) -/
abbrev TRIM_CTRL.GO : Fld := ⟨0x16080 * 8, 1⟩
abbrev TRIM_CTRL.ABORT : Fld := ⟨0x16080 * 8 + 1, 1⟩
abbrev TRIM_CTRL.HOLD : Fld := ⟨0x16080 * 8 + 2, 1⟩
abbrev TRIM_CTRL.FE_EN : Fld := ⟨0x16080 * 8 + 3, 1⟩
abbrev TRIM_CTRL.LANE_EN : Fld := ⟨0x16080 * 8 + 4, 1⟩
abbrev TRIM_CTRL.FAIL_CAP : Fld := ⟨0x16080 * 8 + 8, 8⟩

/-! TRIM_TRIG (R112) -/
abbrev TRIM_TRIG.DELTA : Fld := ⟨0x16088 * 8, 8⟩
abbrev TRIM_TRIG.SENSORS : Fld := ⟨0x16088 * 8 + 8, 6⟩
abbrev TRIM_TRIG.BOARD_CH : Fld := ⟨0x16088 * 8 + 16, 6⟩
abbrev TRIM_TRIG.BOARD_EN : Fld := ⟨0x16088 * 8 + 22, 1⟩

/-! TRIM_BOARD (R112) -/
abbrev TRIM_BOARD.BOARD_DELTA : Fld := ⟨0x16090 * 8, 32⟩

/-! TRIM_SCHED (R112) -/
abbrev TRIM_SCHED.PERIOD_S : Fld := ⟨0x16098 * 8, 32⟩
abbrev TRIM_SCHED.MIN_GAP_S : Fld := ⟨0x16098 * 8 + 32, 16⟩

/-! TRIM_FE (R112) -/
abbrev TRIM_FE.FE_LOG2 : Fld := ⟨0x160a0 * 8, 5⟩
abbrev TRIM_FE.SE_GAIN : Fld := ⟨0x160a0 * 8 + 16, 16⟩
abbrev TRIM_FE.SE_OFS : Fld := ⟨0x160a0 * 8 + 32, 16⟩

/-! TRIM_FEGRP (R112) -/
abbrev TRIM_FEGRP.GRP_EN : Fld := ⟨0x160a8 * 8, 32⟩

/-! TRIM_STATUS (R112) -/
abbrev TRIM_STATUS.STATE : Fld := ⟨0x160b0 * 8, 3⟩
abbrev TRIM_STATUS.PENDING : Fld := ⟨0x160b0 * 8 + 3, 1⟩
abbrev TRIM_STATUS.CAUSE : Fld := ⟨0x160b0 * 8 + 4, 3⟩
abbrev TRIM_STATUS.STRETCH : Fld := ⟨0x160b0 * 8 + 8, 24⟩

/-! TRIM_PROGRESS (R112) -/
abbrev TRIM_PROGRESS.NIB_DONE : Fld := ⟨0x160b8 * 8, 32⟩
abbrev TRIM_PROGRESS.FE_DONE : Fld := ⟨0x160b8 * 8 + 32, 32⟩

/-! TRIM_LAST (R112) -/
abbrev TRIM_LAST.OUTCOME : Fld := ⟨0x160c0 * 8, 3⟩
abbrev TRIM_LAST.COMMIT_LO : Fld := ⟨0x160c0 * 8 + 32, 32⟩

/-! TRIM_TEMPREF (R112) -/
abbrev TRIM_TEMPREF.TEMP (i : Nat) : Fld := ⟨0x160c8 * 8 + 0 + 10 * i, 10⟩

/-! TRIM_REFS (R112) -/
abbrev TRIM_REFS.REF_DEV : Fld := ⟨0x160d0 * 8, 16⟩
abbrev TRIM_REFS.INJ_DEV : Fld := ⟨0x160d0 * 8 + 16, 16⟩

/-! TRIM_LIM_REF (R112) -/
abbrev TRIM_LIM_REF.REF_AGREE : Fld := ⟨0x160d8 * 8, 16⟩
abbrev TRIM_LIM_REF.INJ_TOL : Fld := ⟨0x160d8 * 8 + 16, 16⟩

/-! TRIM_LIM_NIB (R112) -/
abbrev TRIM_LIM_NIB.OFS_MAX : Fld := ⟨0x160e0 * 8, 16⟩
abbrev TRIM_LIM_NIB.OFS_STEP : Fld := ⟨0x160e0 * 8 + 16, 16⟩
abbrev TRIM_LIM_NIB.GAIN_MAX : Fld := ⟨0x160e0 * 8 + 32, 16⟩
abbrev TRIM_LIM_NIB.GAIN_STEP : Fld := ⟨0x160e0 * 8 + 48, 16⟩

/-! TRIM_LIM_LIN (R112) -/
abbrev TRIM_LIM_LIN.LIN_MAX : Fld := ⟨0x160e8 * 8, 16⟩

/-! TRIM_LIM_FE (R112) -/
abbrev TRIM_LIM_FE.OFS_MAX : Fld := ⟨0x160f0 * 8, 16⟩
abbrev TRIM_LIM_FE.OFS_STEP : Fld := ⟨0x160f0 * 8 + 16, 16⟩
abbrev TRIM_LIM_FE.GAIN_MAX : Fld := ⟨0x160f0 * 8 + 32, 16⟩
abbrev TRIM_LIM_FE.GAIN_STEP : Fld := ⟨0x160f0 * 8 + 48, 16⟩

/-! TRIM_LIM_EXC (R112) -/
abbrev TRIM_LIM_EXC.I_MAX : Fld := ⟨0x160f8 * 8, 16⟩
abbrev TRIM_LIM_EXC.I_STEP : Fld := ⟨0x160f8 * 8 + 16, 16⟩

/-! TRIM_FE_SEL (R112) -/
abbrev TRIM_FE_SEL.ENTRY : Fld := ⟨0x16100 * 8, 10⟩
abbrev TRIM_FE_SEL.RANGE : Fld := ⟨0x16100 * 8 + 16, 2⟩

/-! TRIM_FE_DATA (R112) -/
abbrev TRIM_FE_DATA.OFS : Fld := ⟨strokeBase + 0x16108 * 8, 32⟩
abbrev TRIM_FE_DATA.GAIN : Fld := ⟨strokeBase + 0x16108 * 8 + 32, 24⟩
abbrev TRIM_FE_DATA.AGE : Fld := ⟨0x16108 * 8 + 56, 8⟩

/-! TRIM_W_SEL (R112) -/
abbrev TRIM_W_SEL.NIB : Fld := ⟨0x16110 * 8, 7⟩
abbrev TRIM_W_SEL.DECISION : Fld := ⟨0x16110 * 8 + 8, 5⟩

/-! TRIM_W_DATA (R112) -/
abbrev TRIM_W_DATA.WT : Fld := ⟨strokeBase + 0x16118 * 8, 32⟩

/-! TRIM_COUNT (R112) -/
abbrev TRIM_COUNT.RUNS : Fld := ⟨0x16120 * 8, 16⟩
abbrev TRIM_COUNT.ITEM_FAILS : Fld := ⟨0x16120 * 8 + 16, 16⟩
abbrev TRIM_COUNT.SUPERSEDED : Fld := ⟨0x16120 * 8 + 32, 16⟩
abbrev TRIM_COUNT.ABORTED : Fld := ⟨0x16120 * 8 + 48, 16⟩

/-! TRIM_NIBFAIL0 (R112) -/
abbrev TRIM_NIBFAIL0.FAIL : Fld := ⟨0x16128 * 8, 64⟩

/-! TRIM_NIBFAIL1 (R112) -/
abbrev TRIM_NIBFAIL1.FAIL : Fld := ⟨0x16130 * 8, 8⟩

/-! TRIM_FEFAIL (R112) -/
abbrev TRIM_FEFAIL.FAIL (n : Nat) : Fld := ⟨(0x16138 + 0x8 * n) * 8, 64⟩

/-! TRIM_FEUNM (R112) -/
abbrev TRIM_FEUNM.UNM (n : Nat) : Fld := ⟨(0x16178 + 0x8 * n) * 8, 64⟩

/-! TRIM_LANEFAIL (R112) -/
abbrev TRIM_LANEFAIL.FAIL : Fld := ⟨0x161b8 * 8, 4⟩

/-! TRIM_HIST (R112) -/
abbrev TRIM_HIST.OUTCOME (n : Nat) : Fld := ⟨(0x161c0 + 0x8 * n) * 8, 3⟩
abbrev TRIM_HIST.CAUSE (n : Nat) : Fld := ⟨(0x161c0 + 0x8 * n) * 8 + 4, 3⟩
abbrev TRIM_HIST.STRETCH (n : Nat) : Fld := ⟨(0x161c0 + 0x8 * n) * 8 + 8, 24⟩
abbrev TRIM_HIST.COMMIT_LO (n : Nat) : Fld := ⟨(0x161c0 + 0x8 * n) * 8 + 32, 32⟩

/-! FLT_CTRL (R134) -/
abbrev FLT_CTRL.SYNC_NEXT : Fld := ⟨0x17080 * 8, 1⟩
abbrev FLT_CTRL.SYNC_DOMAIN : Fld := ⟨0x17080 * 8 + 1, 1⟩
abbrev FLT_CTRL.SYNC_PIN_EN : Fld := ⟨0x17080 * 8 + 2, 1⟩
abbrev FLT_CTRL.SYNC_ARMED : Fld := ⟨0x17080 * 8 + 8, 1⟩
abbrev FLT_CTRL.SYNC_LATE : Fld := ⟨0x17080 * 8 + 9, 1⟩
abbrev FLT_CTRL.SYNC_STALE : Fld := ⟨0x17080 * 8 + 10, 1⟩
abbrev FLT_CTRL.SYNC_SHORT : Fld := ⟨0x17080 * 8 + 11, 1⟩
abbrev FLT_CTRL.SYNC_NOTROOT : Fld := ⟨0x17080 * 8 + 12, 1⟩

/-! FLT_SYNC (R134) -/
abbrev FLT_SYNC.STROKE : Fld := ⟨0x17088 * 8, 64⟩

/-! FLT_PHASE (R134) -/
abbrev FLT_PHASE.ORIGIN : Fld := ⟨0x17090 * 8, 64⟩

/-! FLT_FLR_REQ (R134) -/
abbrev FLT_FLR_REQ.CH_FIRST : Fld := ⟨strokeBase + 0x17098 * 8, 10⟩
abbrev FLT_FLR_REQ.CH_LAST : Fld := ⟨strokeBase + 0x17098 * 8 + 16, 10⟩
abbrev FLT_FLR_REQ.DESC : Fld := ⟨strokeBase + 0x17098 * 8 + 32, 6⟩
abbrev FLT_FLR_REQ.LEN : Fld := ⟨strokeBase + 0x17098 * 8 + 40, 12⟩

/-! FLT_LOAD (R134) -/
abbrev FLT_LOAD.LIVE_PPM : Fld := ⟨0x170a0 * 8, 20⟩
abbrev FLT_LOAD.SHADOW_PPM : Fld := ⟨0x170a0 * 8 + 20, 20⟩
abbrev FLT_LOAD.LIMIT_PCT : Fld := ⟨0x170a0 * 8 + 40, 8⟩

/-! FLT_REFUSE (R134) -/
abbrev FLT_REFUSE.CHAN : Fld := ⟨0x170a8 * 8, 10⟩
abbrev FLT_REFUSE.REASON : Fld := ⟨0x170a8 * 8 + 12, 3⟩
abbrev FLT_REFUSE.KIND : Fld := ⟨0x170a8 * 8 + 15, 1⟩
abbrev FLT_REFUSE.BY_SYS : Fld := ⟨0x170a8 * 8 + 16, 1⟩
abbrev FLT_REFUSE.STROKE_LO : Fld := ⟨0x170a8 * 8 + 32, 32⟩

/-! FLT_COUNT (R134) -/
abbrev FLT_COUNT.FLR_DONE : Fld := ⟨0x170b0 * 8, 16⟩
abbrev FLT_COUNT.FLR_REPLACED : Fld := ⟨0x170b0 * 8 + 16, 16⟩
abbrev FLT_COUNT.FLR_REFUSED : Fld := ⟨0x170b0 * 8 + 32, 16⟩
abbrev FLT_COUNT.SYNCS : Fld := ⟨0x170b0 * 8 + 48, 16⟩

/-! FLT_SATCNT (R134) -/
abbrev FLT_SATCNT.SAT : Fld := ⟨0x170b8 * 8, 32⟩
abbrev FLT_SATCNT.WITHHELD : Fld := ⟨0x170b8 * 8 + 32, 16⟩

/-! FLT_DESC_INDEX (R43) -/
abbrev FLT_DESC_INDEX.ENTRY : Fld := ⟨0x170c0 * 8, 16⟩
abbrev FLT_DESC_INDEX.WORD : Fld := ⟨0x170c0 * 8 + 16, 8⟩
abbrev FLT_DESC_INDEX.AUTOINC : Fld := ⟨0x170c0 * 8 + 24, 1⟩

/-! FLT_DESC_DATA_LO (R43) -/
abbrev FLT_DESC_DATA_LO.DATA : Fld := ⟨0x170c8 * 8, 64⟩

/-! FLT_DESC_DATA_HI (R43) -/
abbrev FLT_DESC_DATA_HI.DATA : Fld := ⟨0x170d0 * 8, 64⟩

/-! FLT_DESC_CTRL (R43) -/
abbrev FLT_DESC_CTRL.OP : Fld := ⟨0x170d8 * 8, 2⟩
abbrev FLT_DESC_CTRL.GO : Fld := ⟨0x170d8 * 8 + 8, 1⟩
abbrev FLT_DESC_CTRL.BUSY : Fld := ⟨0x170d8 * 8 + 9, 1⟩
abbrev FLT_DESC_CTRL.ERR : Fld := ⟨0x170d8 * 8 + 10, 1⟩

/-! FLT_ROM_INDEX (R43) -/
abbrev FLT_ROM_INDEX.ENTRY : Fld := ⟨0x170e0 * 8, 16⟩
abbrev FLT_ROM_INDEX.WORD : Fld := ⟨0x170e0 * 8 + 16, 8⟩
abbrev FLT_ROM_INDEX.AUTOINC : Fld := ⟨0x170e0 * 8 + 24, 1⟩

/-! FLT_ROM_DATA_LO (R43) -/
abbrev FLT_ROM_DATA_LO.DATA : Fld := ⟨0x170e8 * 8, 64⟩

/-! FLT_ROM_DATA_HI (R43) -/
abbrev FLT_ROM_DATA_HI.DATA : Fld := ⟨0x170f0 * 8, 64⟩

/-! FLT_ROM_CTRL (R43) -/
abbrev FLT_ROM_CTRL.OP : Fld := ⟨0x170f8 * 8, 2⟩
abbrev FLT_ROM_CTRL.GO : Fld := ⟨0x170f8 * 8 + 8, 1⟩
abbrev FLT_ROM_CTRL.BUSY : Fld := ⟨0x170f8 * 8 + 9, 1⟩
abbrev FLT_ROM_CTRL.ERR : Fld := ⟨0x170f8 * 8 + 10, 1⟩

/-! FLT_CHAN (R134) -/
abbrev FLT_CHAN.DESC (n : Nat) (i : Nat) : Fld := ⟨strokeBase + (0x17100 + 0x8 * n) * 8 + 0 + 8 * i, 6⟩
abbrev FLT_CHAN.EN (n : Nat) (i : Nat) : Fld := ⟨strokeBase + (0x17100 + 0x8 * n) * 8 + 6 + 8 * i, 1⟩

/-! FLT_DINFO (R134) -/
abbrev FLT_DINFO.COST (n : Nat) : Fld := ⟨(0x17300 + 0x8 * n) * 8, 24⟩
abbrev FLT_DINFO.FILL (n : Nat) : Fld := ⟨(0x17300 + 0x8 * n) * 8 + 24, 12⟩
abbrev FLT_DINFO.DELAY (n : Nat) : Fld := ⟨(0x17300 + 0x8 * n) * 8 + 36, 28⟩

/-! FLT_PRIME (R134) -/
abbrev FLT_PRIME.PRIME (n : Nat) : Fld := ⟨(0x17500 + 0x8 * n) * 8, 64⟩

/-! FLT_FADE (R134) -/
abbrev FLT_FADE.FADE (n : Nat) : Fld := ⟨(0x17540 + 0x8 * n) * 8, 64⟩

/-! FLT_QUEUE (R134) -/
abbrev FLT_QUEUE.QUEUED (n : Nat) : Fld := ⟨(0x17580 + 0x8 * n) * 8, 64⟩

/-! FLT_FILL (R134) -/
abbrev FLT_FILL.FILL (n : Nat) : Fld := ⟨(0x175c0 + 0x8 * n) * 8, 64⟩

/-! FLT_SAT (R134) -/
abbrev FLT_SAT.SAT (n : Nat) : Fld := ⟨(0x17600 + 0x8 * n) * 8, 64⟩

/-! FLT_REFUSED (R134) -/
abbrev FLT_REFUSED.REFUSED (n : Nat) : Fld := ⟨(0x17640 + 0x8 * n) * 8, 64⟩

/-! FAST_CTRL (R133) -/
abbrev FAST_CTRL.FE_EN : Fld := ⟨strokeBase + 0x18080 * 8, 1⟩

/-! FAST_CFORM (R133) -/
abbrev FAST_CFORM.CFORM (i : Nat) : Fld := ⟨strokeBase + 0x18088 * 8 + 0 + 2 * i, 2⟩

/-! FAST_PEEK_SEL (R133) -/
abbrev FAST_PEEK_SEL.CHAN : Fld := ⟨0x18090 * 8, 10⟩
abbrev FAST_PEEK_SEL.ARM : Fld := ⟨0x18090 * 8 + 16, 1⟩
abbrev FAST_PEEK_SEL.DONE : Fld := ⟨0x18090 * 8 + 17, 1⟩

/-! FAST_PEEK_FINE (R133) -/
abbrev FAST_PEEK_FINE.VALUE : Fld := ⟨0x18098 * 8, 32⟩
abbrev FAST_PEEK_FINE.FLAGS : Fld := ⟨0x18098 * 8 + 32, 6⟩
abbrev FAST_PEEK_FINE.RANGE : Fld := ⟨0x18098 * 8 + 40, 2⟩

/-! FAST_PEEK_COARSE (R133) -/
abbrev FAST_PEEK_COARSE.VALUE : Fld := ⟨0x180a0 * 8, 32⟩
abbrev FAST_PEEK_COARSE.FLAGS : Fld := ⟨0x180a0 * 8 + 32, 6⟩
abbrev FAST_PEEK_COARSE.RANGE : Fld := ⟨0x180a0 * 8 + 40, 2⟩

/-! FAST_PEEK_STROKE (R133) -/
abbrev FAST_PEEK_STROKE.STROKE : Fld := ⟨0x180a8 * 8, 64⟩

/-! FAST_COUNT (R133) -/
abbrev FAST_COUNT.CLAMP : Fld := ⟨0x180b0 * 8, 32⟩

/-! FAST_CDELAY (R133) -/
abbrev FAST_CDELAY.DELAY (i : Nat) : Fld := ⟨0x180b8 * 8 + 0 + 8 * i, 8⟩

/-! FAST_CLAMP (R133) -/
abbrev FAST_CLAMP.CLAMPED (n : Nat) : Fld := ⟨(0x180c0 + 0x8 * n) * 8, 64⟩

/-! TRG_CFG (R210) -/
abbrev TRG_CFG.CHAN (n : Nat) : Fld := ⟨strokeBase + (0x19080 + 0x10 * n) * 8, 10⟩
abbrev TRG_CFG.TAP (n : Nat) : Fld := ⟨strokeBase + (0x19080 + 0x10 * n) * 8 + 10, 4⟩
abbrev TRG_CFG.EDGE (n : Nat) : Fld := ⟨strokeBase + (0x19080 + 0x10 * n) * 8 + 14, 2⟩
abbrev TRG_CFG.MODE (n : Nat) : Fld := ⟨strokeBase + (0x19080 + 0x10 * n) * 8 + 16, 2⟩
abbrev TRG_CFG.FLAGMASK (n : Nat) : Fld := ⟨strokeBase + (0x19080 + 0x10 * n) * 8 + 18, 6⟩
abbrev TRG_CFG.BCAST (n : Nat) : Fld := ⟨strokeBase + (0x19080 + 0x10 * n) * 8 + 24, 1⟩
abbrev TRG_CFG.PIN (n : Nat) : Fld := ⟨strokeBase + (0x19080 + 0x10 * n) * 8 + 25, 1⟩
abbrev TRG_CFG.WIN (n : Nat) : Fld := ⟨strokeBase + (0x19080 + 0x10 * n) * 8 + 26, 3⟩
abbrev TRG_CFG.HOLDOFF (n : Nat) : Fld := ⟨strokeBase + (0x19080 + 0x10 * n) * 8 + 32, 16⟩
abbrev TRG_CFG.ARMED (n : Nat) : Fld := ⟨(0x19080 + 0x10 * n) * 8 + 48, 1⟩
abbrev TRG_CFG.BADCFG (n : Nat) : Fld := ⟨(0x19080 + 0x10 * n) * 8 + 49, 1⟩

/-! TRG_LEVEL (R210) -/
abbrev TRG_LEVEL.LEVEL (n : Nat) : Fld := ⟨strokeBase + (0x19088 + 0x10 * n) * 8, 32⟩
abbrev TRG_LEVEL.HYST (n : Nat) : Fld := ⟨strokeBase + (0x19088 + 0x10 * n) * 8 + 32, 31⟩

/-! TRG_CTRL (R211) -/
abbrev TRG_CTRL.EN : Fld := ⟨strokeBase + 0x19480 * 8, 1⟩

/-! TRG_ARM (R211) -/
abbrev TRG_ARM.ARM : Fld := ⟨0x19488 * 8, 64⟩

/-! TRG_DISARM (R211) -/
abbrev TRG_DISARM.DISARM : Fld := ⟨0x19490 * 8, 64⟩

/-! TRG_ARMED (R211) -/
abbrev TRG_ARMED.ARMED : Fld := ⟨0x19498 * 8, 64⟩

/-! TRG_FIRED (R211) -/
abbrev TRG_FIRED.FIRED : Fld := ⟨0x194a0 * 8, 64⟩

/-! TRG_PRIMED (R211) -/
abbrev TRG_PRIMED.PRIMED : Fld := ⟨0x194a8 * 8, 64⟩

/-! TRG_REMOTE (R211) -/
abbrev TRG_REMOTE.ACCEPT : Fld := ⟨strokeBase + 0x194b0 * 8, 1⟩
abbrev TRG_REMOTE.PIN : Fld := ⟨strokeBase + 0x194b0 * 8 + 1, 1⟩
abbrev TRG_REMOTE.WIN : Fld := ⟨strokeBase + 0x194b0 * 8 + 2, 3⟩

/-! TRG_COUNT (R211) -/
abbrev TRG_COUNT.COINC : Fld := ⟨0x194b8 * 8, 16⟩
abbrev TRG_COUNT.REMOTE_IN : Fld := ⟨0x194b8 * 8 + 16, 16⟩
abbrev TRG_COUNT.REMOTE_DROPPED : Fld := ⟨0x194b8 * 8 + 32, 16⟩
abbrev TRG_COUNT.REMOTE_PINNED : Fld := ⟨0x194b8 * 8 + 48, 16⟩

/-! TRG_FIRE (R211) -/
abbrev TRG_FIRE.FIRE (n : Nat) (i : Nat) : Fld := ⟨(0x194c0 + 0x8 * n) * 8 + 0 + 16 * i, 16⟩

/-! TRG_SUPP (R211) -/
abbrev TRG_SUPP.SUPP (n : Nat) (i : Nat) : Fld := ⟨(0x19540 + 0x8 * n) * 8 + 0 + 16 * i, 16⟩

/-! TRG_LAST (R211) -/
abbrev TRG_LAST.STROKE (n : Nat) (i : Nat) : Fld := ⟨(0x195c0 + 0x8 * n) * 8 + 0 + 16 * i, 16⟩

/-! TRG_RLOG (R211) -/
abbrev TRG_RLOG.ORIGIN (n : Nat) : Fld := ⟨(0x19640 + 0x8 * n) * 8, 10⟩
abbrev TRG_RLOG.TU (n : Nat) : Fld := ⟨(0x19640 + 0x8 * n) * 8 + 10, 6⟩
abbrev TRG_RLOG.HOPS (n : Nat) : Fld := ⟨(0x19640 + 0x8 * n) * 8 + 16, 3⟩
abbrev TRG_RLOG.STROKE_LO (n : Nat) : Fld := ⟨(0x19640 + 0x8 * n) * 8 + 32, 32⟩

/-! CAP_CTRL (R212) -/
abbrev CAP_CTRL.RINGS : Fld := ⟨strokeBase + 0x1a080 * 8, 8⟩
abbrev CAP_CTRL.WARN_PCT : Fld := ⟨0x1a080 * 8 + 8, 7⟩

/-! CAP_BUDGET (R212) -/
abbrev CAP_BUDGET.PCT : Fld := ⟨strokeBase + 0x1a088 * 8, 6⟩
abbrev CAP_BUDGET.BUDGET_MB : Fld := ⟨0x1a088 * 8 + 16, 32⟩

/-! CAP_USE (R212) -/
abbrev CAP_USE.USED : Fld := ⟨0x1a090 * 8, 48⟩

/-! CAP_RELEASE (R212) -/
abbrev CAP_RELEASE.SLOT : Fld := ⟨0x1a098 * 8, 4⟩
abbrev CAP_RELEASE.GO : Fld := ⟨0x1a098 * 8 + 8, 1⟩

/-! CAP_SLOTS (R212) -/
abbrev CAP_SLOTS.FREE : Fld := ⟨0x1a0a0 * 8, 16⟩
abbrev CAP_SLOTS.FILLING : Fld := ⟨0x1a0a0 * 8 + 16, 16⟩
abbrev CAP_SLOTS.CLOSED : Fld := ⟨0x1a0a0 * 8 + 32, 16⟩

/-! CAP_COUNT (R212) -/
abbrev CAP_COUNT.NOSLOT : Fld := ⟨0x1a0a8 * 8, 16⟩
abbrev CAP_COUNT.OVERBUDGET : Fld := ⟨0x1a0a8 * 8 + 16, 16⟩
abbrev CAP_COUNT.ABANDONED : Fld := ⟨0x1a0a8 * 8 + 32, 16⟩
abbrev CAP_COUNT.BAD_RELEASE : Fld := ⟨0x1a0a8 * 8 + 48, 16⟩

/-! CAP_BPS (R212) -/
abbrev CAP_BPS.BPS : Fld := ⟨0x1a0b0 * 8, 32⟩

/-! CAP_LAST (R212) -/
abbrev CAP_LAST.SLOT : Fld := ⟨0x1a0b8 * 8, 4⟩
abbrev CAP_LAST.STROKE_LO : Fld := ⟨0x1a0b8 * 8 + 32, 32⟩

/-! CAP_WIN (R212) -/
abbrev CAP_WIN.PRE (n : Nat) : Fld := ⟨strokeBase + (0x1a0c0 + 0x8 * n) * 8, 32⟩
abbrev CAP_WIN.POST (n : Nat) : Fld := ⟨strokeBase + (0x1a0c0 + 0x8 * n) * 8 + 32, 32⟩

/-! CAP_REC_A (R212) -/
abbrev CAP_REC_A.STATE (n : Nat) : Fld := ⟨(0x1a100 + 0x18 * n) * 8, 2⟩
abbrev CAP_REC_A.TRUNC (n : Nat) : Fld := ⟨(0x1a100 + 0x18 * n) * 8 + 2, 1⟩
abbrev CAP_REC_A.SHORT (n : Nat) : Fld := ⟨(0x1a100 + 0x18 * n) * 8 + 3, 1⟩
abbrev CAP_REC_A.REMOTE (n : Nat) : Fld := ⟨(0x1a100 + 0x18 * n) * 8 + 4, 1⟩
abbrev CAP_REC_A.UNIT (n : Nat) : Fld := ⟨(0x1a100 + 0x18 * n) * 8 + 8, 6⟩
abbrev CAP_REC_A.ORIGIN (n : Nat) : Fld := ⟨(0x1a100 + 0x18 * n) * 8 + 16, 10⟩
abbrev CAP_REC_A.RESERVED_0 (n : Nat) : Fld := ⟨(0x1a100 + 0x18 * n) * 8 + 32, 2⟩
abbrev CAP_REC_A.MBYTES (n : Nat) : Fld := ⟨(0x1a100 + 0x18 * n) * 8 + 48, 16⟩

/-! CAP_REC_STROKE (R212) -/
abbrev CAP_REC_STROKE.STROKE (n : Nat) : Fld := ⟨(0x1a108 + 0x18 * n) * 8, 64⟩

/-! CAP_REC_GOT (R212) -/
abbrev CAP_REC_GOT.PRE_GOT (n : Nat) : Fld := ⟨(0x1a110 + 0x18 * n) * 8, 32⟩
abbrev CAP_REC_GOT.POST_GOT (n : Nat) : Fld := ⟨(0x1a110 + 0x18 * n) * 8 + 32, 32⟩

/-! DUC_CTRL (R245) -/
abbrev DUC_CTRL.EN : Fld := ⟨strokeBase + 0x1b080 * 8, 1⟩
abbrev DUC_CTRL.CTRL_PORT : Fld := ⟨strokeBase + 0x1b080 * 8 + 16, 16⟩
abbrev DUC_CTRL.LEASE_S : Fld := ⟨strokeBase + 0x1b080 * 8 + 32, 16⟩
abbrev DUC_CTRL.CTRL_PPS : Fld := ⟨strokeBase + 0x1b080 * 8 + 48, 16⟩

/-! DUC_LIMITS (R245) -/
abbrev DUC_LIMITS.REPLAY_ACTIVE : Fld := ⟨strokeBase + 0x1b088 * 8, 5⟩
abbrev DUC_LIMITS.AUTH_FAIL_LIM : Fld := ⟨strokeBase + 0x1b088 * 8 + 8, 16⟩

/-! DUC_SESS_INDEX (R43) -/
abbrev DUC_SESS_INDEX.ENTRY : Fld := ⟨0x1b090 * 8, 16⟩
abbrev DUC_SESS_INDEX.WORD : Fld := ⟨0x1b090 * 8 + 16, 8⟩
abbrev DUC_SESS_INDEX.AUTOINC : Fld := ⟨0x1b090 * 8 + 24, 1⟩

/-! DUC_SESS_DATA_LO (R43) -/
abbrev DUC_SESS_DATA_LO.DATA : Fld := ⟨0x1b098 * 8, 64⟩

/-! DUC_SESS_DATA_HI (R43) -/
abbrev DUC_SESS_DATA_HI.DATA : Fld := ⟨0x1b0a0 * 8, 64⟩

/-! DUC_SESS_CTRL (R43) -/
abbrev DUC_SESS_CTRL.OP : Fld := ⟨0x1b0a8 * 8, 2⟩
abbrev DUC_SESS_CTRL.GO : Fld := ⟨0x1b0a8 * 8 + 8, 1⟩
abbrev DUC_SESS_CTRL.BUSY : Fld := ⟨0x1b0a8 * 8 + 9, 1⟩
abbrev DUC_SESS_CTRL.ERR : Fld := ⟨0x1b0a8 * 8 + 10, 1⟩

/-! DUC_KEY_INDEX (R43) -/
abbrev DUC_KEY_INDEX.ENTRY : Fld := ⟨0x1b0b0 * 8, 16⟩
abbrev DUC_KEY_INDEX.WORD : Fld := ⟨0x1b0b0 * 8 + 16, 8⟩
abbrev DUC_KEY_INDEX.AUTOINC : Fld := ⟨0x1b0b0 * 8 + 24, 1⟩

/-! DUC_KEY_DATA_LO (R43) -/
abbrev DUC_KEY_DATA_LO.DATA : Fld := ⟨0x1b0b8 * 8, 64⟩

/-! DUC_KEY_DATA_HI (R43) -/
abbrev DUC_KEY_DATA_HI.DATA : Fld := ⟨0x1b0c0 * 8, 64⟩

/-! DUC_KEY_CTRL (R43) -/
abbrev DUC_KEY_CTRL.OP : Fld := ⟨0x1b0c8 * 8, 2⟩
abbrev DUC_KEY_CTRL.GO : Fld := ⟨0x1b0c8 * 8 + 8, 1⟩
abbrev DUC_KEY_CTRL.BUSY : Fld := ⟨0x1b0c8 * 8 + 9, 1⟩
abbrev DUC_KEY_CTRL.ERR : Fld := ⟨0x1b0c8 * 8 + 10, 1⟩

/-! DUC_REPLAY_STATE (R245) -/
abbrev DUC_REPLAY_STATE.ACTIVE : Fld := ⟨0x1b0d0 * 8, 5⟩
abbrev DUC_REPLAY_STATE.QUEUED : Fld := ⟨0x1b0d0 * 8 + 16, 10⟩

/-! DUC_COUNT_CTRL (R245) -/
abbrev DUC_COUNT_CTRL.REQUESTS : Fld := ⟨0x1b0d8 * 8, 16⟩
abbrev DUC_COUNT_CTRL.NAKS : Fld := ⟨0x1b0d8 * 8 + 16, 16⟩
abbrev DUC_COUNT_CTRL.AUTH_FAIL : Fld := ⟨0x1b0d8 * 8 + 32, 16⟩
abbrev DUC_COUNT_CTRL.RATE_DROPPED : Fld := ⟨0x1b0d8 * 8 + 48, 16⟩

/-! DUC_COUNT_REPLAY (R245) -/
abbrev DUC_COUNT_REPLAY.ACCEPTED : Fld := ⟨0x1b0e0 * 8, 16⟩
abbrev DUC_COUNT_REPLAY.CLIPPED : Fld := ⟨0x1b0e0 * 8 + 16, 16⟩
abbrev DUC_COUNT_REPLAY.REFUSED : Fld := ⟨0x1b0e0 * 8 + 32, 16⟩
abbrev DUC_COUNT_REPLAY.CANCELLED : Fld := ⟨0x1b0e0 * 8 + 48, 16⟩

/-! DUC_GAP (R245) -/
abbrev DUC_GAP.GAP_STROKES : Fld := ⟨0x1b0e8 * 8, 32⟩
abbrev DUC_GAP.GAP_WORDS : Fld := ⟨0x1b0e8 * 8 + 32, 32⟩

/-! DUC_REFUSE (R245) -/
abbrev DUC_REFUSE.PORT : Fld := ⟨0x1b0f0 * 8, 4⟩
abbrev DUC_REFUSE.SESSION : Fld := ⟨0x1b0f0 * 8 + 8, 8⟩
abbrev DUC_REFUSE.CAUSE : Fld := ⟨0x1b0f0 * 8 + 16, 3⟩
abbrev DUC_REFUSE.STROKE_LO : Fld := ⟨0x1b0f0 * 8 + 32, 32⟩

/-! DUC_STAT_SEL (R245) -/
abbrev DUC_STAT_SEL.SESSION : Fld := ⟨0x1b0f8 * 8, 8⟩
abbrev DUC_STAT_SEL.COPY : Fld := ⟨0x1b0f8 * 8 + 8, 1⟩

/-! DUC_STAT_FRAMES (R245) -/
abbrev DUC_STAT_FRAMES.FRAMES : Fld := ⟨0x1b100 * 8, 32⟩
abbrev DUC_STAT_FRAMES.SEQ_NEXT : Fld := ⟨0x1b100 * 8 + 32, 32⟩

/-! DUC_STAT_LAG (R245) -/
abbrev DUC_STAT_LAG.LAG_STROKES : Fld := ⟨0x1b108 * 8, 32⟩
abbrev DUC_STAT_LAG.REPLAYS : Fld := ⟨0x1b108 * 8 + 32, 16⟩
abbrev DUC_STAT_LAG.DROPS : Fld := ⟨0x1b108 * 8 + 48, 16⟩

/-! DUC_ON (R245) -/
abbrev DUC_ON.ON (n : Nat) : Fld := ⟨(0x1b110 + 0x8 * n) * 8, 64⟩

/-! DUC_LAG (R245) -/
abbrev DUC_LAG.LAG (n : Nat) : Fld := ⟨(0x1b130 + 0x8 * n) * 8, 64⟩

/-! DUC_BOUND (R245) -/
abbrev DUC_BOUND.BOUND (n : Nat) : Fld := ⟨(0x1b150 + 0x8 * n) * 8, 64⟩

/-! DUC_VLOG (R245) -/
abbrev DUC_VLOG.ENTRY (n : Nat) : Fld := ⟨(0x1b170 + 0x8 * n) * 8, 64⟩

/-! ETH_MAC (R246) -/
abbrev ETH_MAC.BASE : Fld := ⟨strokeBase + 0x1c080 * 8, 48⟩

/-! ETH_IP4 (R246) -/
abbrev ETH_IP4.ADDR : Fld := ⟨strokeBase + 0x1c088 * 8, 32⟩
abbrev ETH_IP4.PREFIX : Fld := ⟨strokeBase + 0x1c088 * 8 + 32, 6⟩

/-! ETH_GW4 (R246) -/
abbrev ETH_GW4.GW : Fld := ⟨strokeBase + 0x1c090 * 8, 32⟩

/-! ETH_IP6_HI (R246) -/
abbrev ETH_IP6_HI.ADDR : Fld := ⟨strokeBase + 0x1c098 * 8, 64⟩

/-! ETH_IP6_LO (R246) -/
abbrev ETH_IP6_LO.ADDR : Fld := ⟨strokeBase + 0x1c0a0 * 8, 64⟩

/-! ETH_IP6_CFG (R246) -/
abbrev ETH_IP6_CFG.PREFIX : Fld := ⟨strokeBase + 0x1c0a8 * 8, 7⟩
abbrev ETH_IP6_CFG.EN : Fld := ⟨strokeBase + 0x1c0a8 * 8 + 8, 1⟩

/-! ETH_GW6 (R246) -/
abbrev ETH_GW6.MAC : Fld := ⟨strokeBase + 0x1c0b0 * 8, 48⟩

/-! ETH_CTRL (R246) -/
abbrev ETH_CTRL.BRIDGE_EN : Fld := ⟨strokeBase + 0x1c0b8 * 8, 1⟩
abbrev ETH_CTRL.LIMIT_PCT : Fld := ⟨strokeBase + 0x1c0b8 * 8 + 1, 7⟩
abbrev ETH_CTRL.ARP_RETRY_S : Fld := ⟨strokeBase + 0x1c0b8 * 8 + 8, 8⟩
abbrev ETH_CTRL.ARP_AGE_S : Fld := ⟨strokeBase + 0x1c0b8 * 8 + 16, 16⟩

/-! ETH_PCFG (R247) -/
abbrev ETH_PCFG.EN (n : Nat) : Fld := ⟨strokeBase + (0x1c0c0 + 0xc0 * n) * 8, 1⟩
abbrev ETH_PCFG.SPEED (n : Nat) : Fld := ⟨strokeBase + (0x1c0c0 + 0xc0 * n) * 8 + 1, 1⟩
abbrev ETH_PCFG.FEC (n : Nat) : Fld := ⟨strokeBase + (0x1c0c0 + 0xc0 * n) * 8 + 2, 2⟩
abbrev ETH_PCFG.PREEMPT_EN (n : Nat) : Fld := ⟨strokeBase + (0x1c0c0 + 0xc0 * n) * 8 + 4, 1⟩
abbrev ETH_PCFG.ADD_FRAG (n : Nat) : Fld := ⟨strokeBase + (0x1c0c0 + 0xc0 * n) * 8 + 6, 2⟩

/-! ETH_PSTAT (R247) -/
abbrev ETH_PSTAT.LINK (n : Nat) : Fld := ⟨(0x1c0c8 + 0xc0 * n) * 8, 2⟩
abbrev ETH_PSTAT.PREEMPT_ACTIVE (n : Nat) : Fld := ⟨(0x1c0c8 + 0xc0 * n) * 8 + 2, 1⟩
abbrev ETH_PSTAT.FALLBACK (n : Nat) : Fld := ⟨(0x1c0c8 + 0xc0 * n) * 8 + 3, 1⟩
abbrev ETH_PSTAT.FEC_LOCK (n : Nat) : Fld := ⟨(0x1c0c8 + 0xc0 * n) * 8 + 4, 1⟩

/-! ETH_LOAD (R247) -/
abbrev ETH_LOAD.LIVE_PPM (n : Nat) : Fld := ⟨(0x1c0d0 + 0xc0 * n) * 8, 20⟩
abbrev ETH_LOAD.SHADOW_PPM (n : Nat) : Fld := ⟨(0x1c0d0 + 0xc0 * n) * 8 + 20, 20⟩

/-! ETH_TXF (R247) -/
abbrev ETH_TXF.FRAMES (n : Nat) : Fld := ⟨(0x1c0d8 + 0xc0 * n) * 8, 64⟩

/-! ETH_RXF (R247) -/
abbrev ETH_RXF.FRAMES (n : Nat) : Fld := ⟨(0x1c0e0 + 0xc0 * n) * 8, 64⟩

/-! ETH_TXB (R247) -/
abbrev ETH_TXB.BYTES (n : Nat) : Fld := ⟨(0x1c0e8 + 0xc0 * n) * 8, 64⟩

/-! ETH_RXB (R247) -/
abbrev ETH_RXB.BYTES (n : Nat) : Fld := ⟨(0x1c0f0 + 0xc0 * n) * 8, 64⟩

/-! ETH_RXERR (R247) -/
abbrev ETH_RXERR.FCS (n : Nat) : Fld := ⟨(0x1c0f8 + 0xc0 * n) * 8, 16⟩
abbrev ETH_RXERR.RUNT (n : Nat) : Fld := ⟨(0x1c0f8 + 0xc0 * n) * 8 + 16, 16⟩
abbrev ETH_RXERR.OVERSIZE (n : Nat) : Fld := ⟨(0x1c0f8 + 0xc0 * n) * 8 + 32, 16⟩
abbrev ETH_RXERR.PAUSE (n : Nat) : Fld := ⟨(0x1c0f8 + 0xc0 * n) * 8 + 48, 16⟩

/-! ETH_RXDROP (R247) -/
abbrev ETH_RXDROP.QUEUE_FULL (n : Nat) : Fld := ⟨(0x1c100 + 0xc0 * n) * 8, 32⟩
abbrev ETH_RXDROP.UNKNOWN_PORT (n : Nat) : Fld := ⟨(0x1c100 + 0xc0 * n) * 8 + 32, 32⟩

/-! ETH_BRIDGE (R247) -/
abbrev ETH_BRIDGE.FORWARDED (n : Nat) : Fld := ⟨(0x1c108 + 0xc0 * n) * 8, 32⟩
abbrev ETH_BRIDGE.DROPPED (n : Nat) : Fld := ⟨(0x1c108 + 0xc0 * n) * 8 + 32, 32⟩

/-! ETH_PREEMPT (R247) -/
abbrev ETH_PREEMPT.FRAGMENTS (n : Nat) : Fld := ⟨(0x1c110 + 0xc0 * n) * 8, 32⟩
abbrev ETH_PREEMPT.VERIFY_FAIL (n : Nat) : Fld := ⟨(0x1c110 + 0xc0 * n) * 8 + 32, 16⟩
abbrev ETH_PREEMPT.SMD_ERR (n : Nat) : Fld := ⟨(0x1c110 + 0xc0 * n) * 8 + 48, 16⟩

/-! ETH_FEC (R247) -/
abbrev ETH_FEC.CORRECTED (n : Nat) : Fld := ⟨(0x1c118 + 0xc0 * n) * 8, 32⟩
abbrev ETH_FEC.UNCORRECTED (n : Nat) : Fld := ⟨(0x1c118 + 0xc0 * n) * 8 + 32, 32⟩

/-! ETH_PCS (R247) -/
abbrev ETH_PCS.LOCK_LOSS (n : Nat) : Fld := ⟨(0x1c120 + 0xc0 * n) * 8, 16⟩
abbrev ETH_PCS.HI_BER (n : Nat) : Fld := ⟨(0x1c120 + 0xc0 * n) * 8 + 16, 16⟩
abbrev ETH_PCS.ERR_BLOCKS (n : Nat) : Fld := ⟨(0x1c120 + 0xc0 * n) * 8 + 32, 32⟩

/-! ETH_COARSE (R247) -/
abbrev ETH_COARSE.ROUND_FRAMES (n : Nat) : Fld := ⟨(0x1c128 + 0xc0 * n) * 8, 32⟩
abbrev ETH_COARSE.OVERWRITTEN (n : Nat) : Fld := ⟨(0x1c128 + 0xc0 * n) * 8 + 32, 32⟩

/-! ETH_FALLBACK (R247) -/
abbrev ETH_FALLBACK.CAPPED (n : Nat) : Fld := ⟨(0x1c130 + 0xc0 * n) * 8, 32⟩
abbrev ETH_FALLBACK.BRIDGE_DROP (n : Nat) : Fld := ⟨(0x1c130 + 0xc0 * n) * 8 + 32, 32⟩

/-! ETH_ARP (R247) -/
abbrev ETH_ARP.REQ_RX (n : Nat) : Fld := ⟨(0x1c138 + 0xc0 * n) * 8, 16⟩
abbrev ETH_ARP.REPLY_TX (n : Nat) : Fld := ⟨(0x1c138 + 0xc0 * n) * 8 + 16, 16⟩
abbrev ETH_ARP.RESOLVE_FAIL (n : Nat) : Fld := ⟨(0x1c138 + 0xc0 * n) * 8 + 32, 16⟩
abbrev ETH_ARP.CONFLICT (n : Nat) : Fld := ⟨(0x1c138 + 0xc0 * n) * 8 + 48, 16⟩

/-! ETH_ND (R247) -/
abbrev ETH_ND.NS_RX (n : Nat) : Fld := ⟨(0x1c140 + 0xc0 * n) * 8, 16⟩
abbrev ETH_ND.NA_TX (n : Nat) : Fld := ⟨(0x1c140 + 0xc0 * n) * 8 + 16, 16⟩
abbrev ETH_ND.RESOLVE_FAIL (n : Nat) : Fld := ⟨(0x1c140 + 0xc0 * n) * 8 + 32, 16⟩
abbrev ETH_ND.CONFLICT (n : Nat) : Fld := ⟨(0x1c140 + 0xc0 * n) * 8 + 48, 16⟩

/-! ETH_IPERR (R247) -/
abbrev ETH_IPERR.CSUM (n : Nat) : Fld := ⟨(0x1c148 + 0xc0 * n) * 8, 16⟩
abbrev ETH_IPERR.FRAG (n : Nat) : Fld := ⟨(0x1c148 + 0xc0 * n) * 8 + 16, 16⟩
abbrev ETH_IPERR.OPTIONS (n : Nat) : Fld := ⟨(0x1c148 + 0xc0 * n) * 8 + 32, 16⟩

/-! ETH_TXHOLD (R247) -/
abbrev ETH_TXHOLD.HELD_STROKES (n : Nat) : Fld := ⟨(0x1c150 + 0xc0 * n) * 8, 32⟩
abbrev ETH_TXHOLD.COPY_WAITS (n : Nat) : Fld := ⟨(0x1c150 + 0xc0 * n) * 8 + 32, 32⟩

/-! ETH_LINKS (R247) -/
abbrev ETH_LINKS.UPS (n : Nat) : Fld := ⟨(0x1c158 + 0xc0 * n) * 8, 16⟩
abbrev ETH_LINKS.DOWNS (n : Nat) : Fld := ⟨(0x1c158 + 0xc0 * n) * 8 + 16, 16⟩
abbrev ETH_LINKS.LAST_DOWN_LO (n : Nat) : Fld := ⟨(0x1c158 + 0xc0 * n) * 8 + 32, 32⟩

/-! ETH_TXDROP (R247) -/
abbrev ETH_TXDROP.COARSE_DROP (n : Nat) : Fld := ⟨(0x1c160 + 0xc0 * n) * 8, 32⟩
abbrev ETH_TXDROP.ROUND_AS_STROKE (n : Nat) : Fld := ⟨(0x1c160 + 0xc0 * n) * 8 + 32, 32⟩

/-! ETH_RXOWN (R247) -/
abbrev ETH_RXOWN.DUCTUS (n : Nat) : Fld := ⟨(0x1c168 + 0xc0 * n) * 8, 32⟩
abbrev ETH_RXOWN.PTP (n : Nat) : Fld := ⟨(0x1c168 + 0xc0 * n) * 8 + 32, 32⟩

/-! ETH_RXVLAN (R247) -/
abbrev ETH_RXVLAN.TAGGED (n : Nat) : Fld := ⟨(0x1c170 + 0xc0 * n) * 8, 32⟩
abbrev ETH_RXVLAN.MULTI_TAG_DROP (n : Nat) : Fld := ⟨(0x1c170 + 0xc0 * n) * 8 + 32, 32⟩

/-! ETH_MTU (R247) -/
abbrev ETH_MTU.MAX_RX (n : Nat) : Fld := ⟨strokeBase + (0x1c178 + 0xc0 * n) * 8, 14⟩

/-! ETH_VLOG (R246) -/
abbrev ETH_VLOG.ENTRY (n : Nat) : Fld := ⟨(0x1c3c0 + 0x8 * n) * 8, 64⟩

/-! QUE_q_DATA (R262) -/
abbrev QUE_q_DATA.DATA (n : Nat) : Fld := ⟨(0x1d080 + 0x40 * n) * 8, 64⟩

/-! QUE_q_DATA_END (R262) -/
abbrev QUE_q_DATA_END.DATA (n : Nat) : Fld := ⟨(0x1d088 + 0x40 * n) * 8, 64⟩

/-! QUE_q_TAG (R262) -/
abbrev QUE_q_TAG.FIRST (n : Nat) : Fld := ⟨(0x1d090 + 0x40 * n) * 8, 1⟩
abbrev QUE_q_TAG.END (n : Nat) : Fld := ⟨(0x1d090 + 0x40 * n) * 8 + 1, 1⟩
abbrev QUE_q_TAG.BLOT (n : Nat) : Fld := ⟨(0x1d090 + 0x40 * n) * 8 + 2, 1⟩
abbrev QUE_q_TAG.UNDERRUN (n : Nat) : Fld := ⟨(0x1d090 + 0x40 * n) * 8 + 3, 1⟩
abbrev QUE_q_TAG.FLUSHED (n : Nat) : Fld := ⟨(0x1d090 + 0x40 * n) * 8 + 4, 1⟩
abbrev QUE_q_TAG.LOST (n : Nat) : Fld := ⟨(0x1d090 + 0x40 * n) * 8 + 5, 1⟩
abbrev QUE_q_TAG.LEFT (n : Nat) : Fld := ⟨(0x1d090 + 0x40 * n) * 8 + 16, 8⟩

/-! QUE_q_LEVEL (R262) -/
abbrev QUE_q_LEVEL.FILL (n : Nat) : Fld := ⟨(0x1d098 + 0x40 * n) * 8, 16⟩
abbrev QUE_q_LEVEL.PKTS (n : Nat) : Fld := ⟨(0x1d098 + 0x40 * n) * 8 + 16, 16⟩
abbrev QUE_q_LEVEL.PENDING (n : Nat) : Fld := ⟨(0x1d098 + 0x40 * n) * 8 + 32, 16⟩
abbrev QUE_q_LEVEL.DEPTH (n : Nat) : Fld := ⟨(0x1d098 + 0x40 * n) * 8 + 48, 16⟩

/-! QUE_q_THR (R262) -/
abbrev QUE_q_THR.THR (n : Nat) : Fld := ⟨(0x1d0a0 + 0x40 * n) * 8, 16⟩

/-! QUE_q_CTRL (R262) -/
abbrev QUE_q_CTRL.FLUSH (n : Nat) : Fld := ⟨(0x1d0a8 + 0x40 * n) * 8, 1⟩
abbrev QUE_q_CTRL.DRAINING (n : Nat) : Fld := ⟨(0x1d0a8 + 0x40 * n) * 8 + 1, 1⟩
abbrev QUE_q_CTRL.FULL (n : Nat) : Fld := ⟨(0x1d0a8 + 0x40 * n) * 8 + 2, 1⟩

/-! QUE_q_COUNT (R262) -/
abbrev QUE_q_COUNT.LOST (n : Nat) : Fld := ⟨(0x1d0b0 + 0x40 * n) * 8, 32⟩
abbrev QUE_q_COUNT.BLOTS (n : Nat) : Fld := ⟨(0x1d0b0 + 0x40 * n) * 8 + 32, 16⟩
abbrev QUE_q_COUNT.UNDERRUNS (n : Nat) : Fld := ⟨(0x1d0b0 + 0x40 * n) * 8 + 48, 16⟩

/-! QUE_q_COUNT2 (R262) -/
abbrev QUE_q_COUNT2.DRAINED (n : Nat) : Fld := ⟨(0x1d0b8 + 0x40 * n) * 8, 16⟩
abbrev QUE_q_COUNT2.FLUSHES (n : Nat) : Fld := ⟨(0x1d0b8 + 0x40 * n) * 8 + 16, 16⟩
abbrev QUE_q_COUNT2.PUSH_REFUSED (n : Nat) : Fld := ⟨(0x1d0b8 + 0x40 * n) * 8 + 32, 32⟩

/-! QUE_CTRL (R263) -/
abbrev QUE_CTRL.FLUSH_ALL : Fld := ⟨0x1d240 * 8, 7⟩

/-! QUE_SUMMARY (R263) -/
abbrev QUE_SUMMARY.NONEMPTY : Fld := ⟨0x1d248 * 8, 7⟩
abbrev QUE_SUMMARY.OVER_THR : Fld := ⟨0x1d248 * 8 + 8, 7⟩
abbrev QUE_SUMMARY.DRAINING : Fld := ⟨0x1d248 * 8 + 16, 7⟩

/-! QUE_INT (R263) -/
abbrev QUE_INT.HWM (n : Nat) : Fld := ⟨(0x1d250 + 0x8 * n) * 8, 16⟩
abbrev QUE_INT.FULL_CNT (n : Nat) : Fld := ⟨(0x1d250 + 0x8 * n) * 8 + 16, 32⟩

/-! INKW_CFG (R294) -/
abbrev INKW_CFG.CH_FIT : Fld := ⟨0x1e080 * 8, 2⟩
abbrev INKW_CFG.X8 : Fld := ⟨0x1e080 * 8 + 2, 1⟩
abbrev INKW_CFG.D16G : Fld := ⟨0x1e080 * 8 + 3, 1⟩
abbrev INKW_CFG.RANKS2 : Fld := ⟨0x1e080 * 8 + 4, 1⟩
abbrev INKW_CFG.SPEED : Fld := ⟨0x1e080 * 8 + 5, 4⟩
abbrev INKW_CFG.ORDER : Fld := ⟨0x1e080 * 8 + 9, 2⟩
abbrev INKW_CFG.HASH : Fld := ⟨0x1e080 * 8 + 11, 1⟩

/-! INKW_STATE (R294) -/
abbrev INKW_STATE.CH0 : Fld := ⟨0x1e088 * 8, 4⟩
abbrev INKW_STATE.CH1 : Fld := ⟨0x1e088 * 8 + 4, 4⟩
abbrev INKW_STATE.MIRRORED : Fld := ⟨0x1e088 * 8 + 8, 1⟩
abbrev INKW_STATE.CAPACITY_MB : Fld := ⟨0x1e088 * 8 + 16, 25⟩

/-! INKW_MIRROR (R294) -/
abbrev INKW_MIRROR.READ_POL : Fld := ⟨strokeBase + 0x1e090 * 8, 2⟩
abbrev INKW_MIRROR.CATCHUP_MBPS : Fld := ⟨strokeBase + 0x1e090 * 8 + 16, 16⟩

/-! INKW_REFRESH (R294) -/
abbrev INKW_REFRESH.FGR : Fld := ⟨strokeBase + 0x1e098 * 8, 2⟩
abbrev INKW_REFRESH.TCR_EN : Fld := ⟨strokeBase + 0x1e098 * 8 + 2, 1⟩
abbrev INKW_REFRESH.HOT_C : Fld := ⟨strokeBase + 0x1e098 * 8 + 8, 8⟩

/-! INKW_PWR (R294) -/
abbrev INKW_PWR.PD_EN : Fld := ⟨strokeBase + 0x1e0a0 * 8, 1⟩
abbrev INKW_PWR.PD_IDLE : Fld := ⟨strokeBase + 0x1e0a0 * 8 + 4, 12⟩
abbrev INKW_PWR.SR_EN : Fld := ⟨strokeBase + 0x1e0a0 * 8 + 16, 1⟩
abbrev INKW_PWR.SR_MIN_M : Fld := ⟨strokeBase + 0x1e0a0 * 8 + 17, 10⟩
abbrev INKW_PWR.SR_IDLE : Fld := ⟨strokeBase + 0x1e0a0 * 8 + 32, 16⟩
abbrev INKW_PWR.SR_EXIT_WORDS : Fld := ⟨strokeBase + 0x1e0a0 * 8 + 48, 16⟩

/-! INKW_RH (R294) -/
abbrev INKW_RH.RH_THR : Fld := ⟨strokeBase + 0x1e0a8 * 8, 16⟩
abbrev INKW_RH.THROTTLE_NS : Fld := ⟨strokeBase + 0x1e0a8 * 8 + 16, 16⟩
abbrev INKW_RH.NEIGH : Fld := ⟨strokeBase + 0x1e0a8 * 8 + 32, 2⟩

/-! INKW_RH_STAT (R294) -/
abbrev INKW_RH_STAT.THROTTLED : Fld := ⟨0x1e0b0 * 8, 8⟩
abbrev INKW_RH_STAT.EVENTS : Fld := ⟨0x1e0b0 * 8 + 32, 32⟩

/-! INKW_RD (R294) -/
abbrev INKW_RD.RD_MBPS : Fld := ⟨strokeBase + 0x1e0b8 * 8, 16⟩

/-! INKW_SCRUB (R294) -/
abbrev INKW_SCRUB.PERIOD_H : Fld := ⟨strokeBase + 0x1e0c0 * 8, 8⟩
abbrev INKW_SCRUB.EN : Fld := ⟨strokeBase + 0x1e0c0 * 8 + 8, 1⟩
abbrev INKW_SCRUB.CE_ROW_THR : Fld := ⟨strokeBase + 0x1e0c0 * 8 + 16, 8⟩

/-! INKW_RETRAIN (R294) -/
abbrev INKW_RETRAIN.PERIOD_S : Fld := ⟨strokeBase + 0x1e0c8 * 8, 32⟩
abbrev INKW_RETRAIN.RT_DELTA : Fld := ⟨strokeBase + 0x1e0c8 * 8 + 32, 8⟩
abbrev INKW_RETRAIN.RT_MAX_MS : Fld := ⟨strokeBase + 0x1e0c8 * 8 + 40, 8⟩
abbrev INKW_RETRAIN.RETRY_S : Fld := ⟨strokeBase + 0x1e0c8 * 8 + 48, 8⟩
abbrev INKW_RETRAIN.RETRY_MAX : Fld := ⟨strokeBase + 0x1e0c8 * 8 + 56, 8⟩

/-! INKW_CTRL (R294) -/
abbrev INKW_CTRL.RT_GO : Fld := ⟨0x1e0d0 * 8, 1⟩
abbrev INKW_CTRL.HPPR_GO : Fld := ⟨0x1e0d0 * 8 + 1, 1⟩
abbrev INKW_CTRL.CH : Fld := ⟨0x1e0d0 * 8 + 2, 1⟩
abbrev INKW_CTRL.FORCE : Fld := ⟨0x1e0d0 * 8 + 3, 1⟩
abbrev INKW_CTRL.AUTO_HPPR : Fld := ⟨strokeBase + 0x1e0d0 * 8 + 4, 1⟩
abbrev INKW_CTRL.LINKERR_THR : Fld := ⟨strokeBase + 0x1e0d0 * 8 + 16, 16⟩

/-! INKW_FREEZE (R294) -/
abbrev INKW_FREEZE.OP : Fld := ⟨0x1e0d8 * 8, 2⟩
abbrev INKW_FREEZE.GO : Fld := ⟨0x1e0d8 * 8 + 2, 1⟩
abbrev INKW_FREEZE.FREEZE_S : Fld := ⟨strokeBase + 0x1e0d8 * 8 + 16, 16⟩

/-! INKW_LOSS (R294) -/
abbrev INKW_LOSS.LOST_STROKES : Fld := ⟨0x1e0e0 * 8, 32⟩
abbrev INKW_LOSS.LOSS_EVENTS : Fld := ⟨0x1e0e0 * 8 + 32, 16⟩

/-! INKW_LOSS_LAST (R294) -/
abbrev INKW_LOSS_LAST.STROKE : Fld := ⟨0x1e0e8 * 8, 64⟩

/-! INKW_WIN (R294) -/
abbrev INKW_WIN.BASE : Fld := ⟨0x1e0f0 * 8 + 26, 22⟩
abbrev INKW_WIN.VIEW : Fld := ⟨0x1e0f0 * 8 + 48, 2⟩
abbrev INKW_WIN.DIAG_WR : Fld := ⟨0x1e0f0 * 8 + 50, 1⟩

/-! INKW_SRWAIT (R294) -/
abbrev INKW_SRWAIT.HELD : Fld := ⟨0x1e0f8 * 8, 32⟩
abbrev INKW_SRWAIT.MAX_DCLK : Fld := ⟨0x1e0f8 * 8 + 32, 16⟩

/-! INKW_CHST (R295) -/
abbrev INKW_CHST.STATE (n : Nat) : Fld := ⟨(0x1e100 + 0x80 * n) * 8, 4⟩
abbrev INKW_CHST.SINCE_LO (n : Nat) : Fld := ⟨(0x1e100 + 0x80 * n) * 8 + 32, 32⟩

/-! INKW_CE (R295) -/
abbrev INKW_CE.READ_CE (n : Nat) : Fld := ⟨(0x1e108 + 0x80 * n) * 8, 32⟩
abbrev INKW_CE.SCRUB_CE (n : Nat) : Fld := ⟨(0x1e108 + 0x80 * n) * 8 + 32, 32⟩

/-! INKW_UE (R295) -/
abbrev INKW_UE.UE (n : Nat) : Fld := ⟨(0x1e110 + 0x80 * n) * 8, 16⟩
abbrev INKW_UE.FREEZES (n : Nat) : Fld := ⟨(0x1e110 + 0x80 * n) * 8 + 16, 16⟩
abbrev INKW_UE.UE_LOST (n : Nat) : Fld := ⟨(0x1e110 + 0x80 * n) * 8 + 32, 32⟩

/-! INKW_LINKERR (R295) -/
abbrev INKW_LINKERR.CA_PAR (n : Nat) : Fld := ⟨(0x1e118 + 0x80 * n) * 8, 32⟩
abbrev INKW_LINKERR.WCRC (n : Nat) : Fld := ⟨(0x1e118 + 0x80 * n) * 8 + 32, 32⟩

/-! INKW_TRAIN (R295) -/
abbrev INKW_TRAIN.RESULT (n : Nat) : Fld := ⟨(0x1e120 + 0x80 * n) * 8, 2⟩
abbrev INKW_TRAIN.TRAINS (n : Nat) : Fld := ⟨(0x1e120 + 0x80 * n) * 8 + 16, 16⟩
abbrev INKW_TRAIN.STROKE_LO (n : Nat) : Fld := ⟨(0x1e120 + 0x80 * n) * 8 + 32, 32⟩

/-! INKW_TRAIN_EYE (R295) -/
abbrev INKW_TRAIN_EYE.RD_EYE_PS (n : Nat) : Fld := ⟨(0x1e128 + 0x80 * n) * 8, 16⟩
abbrev INKW_TRAIN_EYE.WR_EYE_PS (n : Nat) : Fld := ⟨(0x1e128 + 0x80 * n) * 8 + 16, 16⟩
abbrev INKW_TRAIN_EYE.VREF (n : Nat) : Fld := ⟨(0x1e128 + 0x80 * n) * 8 + 32, 8⟩

/-! INKW_PPR (R295) -/
abbrev INKW_PPR.SPPR_USED (n : Nat) : Fld := ⟨(0x1e130 + 0x80 * n) * 8, 8⟩
abbrev INKW_PPR.HPPR_USED (n : Nat) : Fld := ⟨(0x1e130 + 0x80 * n) * 8 + 8, 8⟩
abbrev INKW_PPR.HPPR_PEND (n : Nat) : Fld := ⟨(0x1e130 + 0x80 * n) * 8 + 16, 8⟩
abbrev INKW_PPR.MAPOUT (n : Nat) : Fld := ⟨(0x1e130 + 0x80 * n) * 8 + 32, 16⟩

/-! INKW_REF (R295) -/
abbrev INKW_REF.REFS (n : Nat) : Fld := ⟨(0x1e138 + 0x80 * n) * 8, 32⟩
abbrev INKW_REF.HOT (n : Nat) : Fld := ⟨(0x1e138 + 0x80 * n) * 8 + 36, 1⟩
abbrev INKW_REF.FGR_NOW (n : Nat) : Fld := ⟨(0x1e138 + 0x80 * n) * 8 + 37, 2⟩

/-! INKW_RESID (R295) -/
abbrev INKW_RESID.PD_PPM (n : Nat) : Fld := ⟨(0x1e140 + 0x80 * n) * 8, 20⟩
abbrev INKW_RESID.SR_PPM (n : Nat) : Fld := ⟨(0x1e140 + 0x80 * n) * 8 + 20, 20⟩
abbrev INKW_RESID.SR_ENTRIES (n : Nat) : Fld := ⟨(0x1e140 + 0x80 * n) * 8 + 40, 24⟩

/-! INKW_BW (R295) -/
abbrev INKW_BW.WR_MBPS (n : Nat) : Fld := ⟨(0x1e148 + 0x80 * n) * 8, 16⟩
abbrev INKW_BW.RD_MBPS (n : Nat) : Fld := ⟨(0x1e148 + 0x80 * n) * 8 + 16, 16⟩
abbrev INKW_BW.COPY_MBPS (n : Nat) : Fld := ⟨(0x1e148 + 0x80 * n) * 8 + 32, 16⟩

/-! INKW_CATCHUP (R295) -/
abbrev INKW_CATCHUP.LEFT_MB (n : Nat) : Fld := ⟨(0x1e150 + 0x80 * n) * 8, 32⟩
abbrev INKW_CATCHUP.TOTAL_MB (n : Nat) : Fld := ⟨(0x1e150 + 0x80 * n) * 8 + 32, 32⟩

/-! INKW_SCRUBST (R295) -/
abbrev INKW_SCRUBST.PASSES (n : Nat) : Fld := ⟨(0x1e158 + 0x80 * n) * 8, 16⟩
abbrev INKW_SCRUBST.AT_MB (n : Nat) : Fld := ⟨(0x1e158 + 0x80 * n) * 8 + 16, 32⟩

/-! INKW_RTFAIL (R295) -/
abbrev INKW_RTFAIL.CONSEC (n : Nat) : Fld := ⟨(0x1e160 + 0x80 * n) * 8, 8⟩
abbrev INKW_RTFAIL.DEFERRED (n : Nat) : Fld := ⟨(0x1e160 + 0x80 * n) * 8 + 16, 16⟩
abbrev INKW_RTFAIL.TOTAL (n : Nat) : Fld := ⟨(0x1e160 + 0x80 * n) * 8 + 32, 32⟩

/-! INKW_CHRET (R295) -/
abbrev INKW_CHRET.REASON (n : Nat) : Fld := ⟨(0x1e168 + 0x80 * n) * 8, 4⟩
abbrev INKW_CHRET.KEPT_LAST (n : Nat) : Fld := ⟨(0x1e168 + 0x80 * n) * 8 + 4, 1⟩
abbrev INKW_CHRET.STROKE_LO (n : Nat) : Fld := ⟨(0x1e168 + 0x80 * n) * 8 + 32, 32⟩

/-! INKW_DTEMP (R295) -/
abbrev INKW_DTEMP.MPR_R0 (n : Nat) : Fld := ⟨(0x1e170 + 0x80 * n) * 8, 2⟩
abbrev INKW_DTEMP.MPR_R1 (n : Nat) : Fld := ⟨(0x1e170 + 0x80 * n) * 8 + 2, 2⟩
abbrev INKW_DTEMP.DX15_C (n : Nat) : Fld := ⟨(0x1e170 + 0x80 * n) * 8 + 8, 8⟩

/-! INKW_THROTTLE (R295) -/
abbrev INKW_THROTTLE.EVENTS (n : Nat) : Fld := ⟨(0x1e178 + 0x80 * n) * 8, 32⟩

/-! INKW_FRZ0 (R296) -/
abbrev INKW_FRZ0.CH : Fld := ⟨0x1e200 * 8, 1⟩
abbrev INKW_FRZ0.VALID : Fld := ⟨0x1e200 * 8 + 1, 1⟩
abbrev INKW_FRZ0.CAUSE : Fld := ⟨0x1e200 * 8 + 2, 4⟩
abbrev INKW_FRZ0.RANK : Fld := ⟨0x1e200 * 8 + 6, 1⟩
abbrev INKW_FRZ0.BG : Fld := ⟨0x1e200 * 8 + 7, 2⟩
abbrev INKW_FRZ0.BA : Fld := ⟨0x1e200 * 8 + 9, 2⟩
abbrev INKW_FRZ0.ROW : Fld := ⟨0x1e200 * 8 + 11, 18⟩
abbrev INKW_FRZ0.COL : Fld := ⟨0x1e200 * 8 + 29, 10⟩
abbrev INKW_FRZ0.REQ : Fld := ⟨0x1e200 * 8 + 39, 3⟩

/-! INKW_FRZ1 (R296) -/
abbrev INKW_FRZ1.STROKE : Fld := ⟨0x1e208 * 8, 64⟩

/-! INKW_FRZ2 (R296) -/
abbrev INKW_FRZ2.SEC_LO : Fld := ⟨0x1e210 * 8, 32⟩
abbrev INKW_FRZ2.NS : Fld := ⟨0x1e210 * 8 + 32, 30⟩

/-! INKW_FRZ3 (R296) -/
abbrev INKW_FRZ3.SYNDROME : Fld := ⟨0x1e218 * 8, 32⟩
abbrev INKW_FRZ3.DEVICE : Fld := ⟨0x1e218 * 8 + 32, 5⟩

/-! INKW_FRZ4 (R296) -/
abbrev INKW_FRZ4.ADDR : Fld := ⟨0x1e220 * 8, 36⟩

/-! INKW_FRZ5 (R296) -/
abbrev INKW_FRZ5.ROW_CE : Fld := ⟨0x1e228 * 8, 16⟩
abbrev INKW_FRZ5.WRPTR_MB : Fld := ⟨0x1e228 * 8 + 16, 32⟩

/-! INKW_RCFG (R297) -/
abbrev INKW_RCFG.EN (n : Nat) : Fld := ⟨strokeBase + (0x1e230 + 0x20 * n) * 8, 1⟩
abbrev INKW_RCFG.TAPS (n : Nat) : Fld := ⟨strokeBase + (0x1e230 + 0x20 * n) * 8 + 1, 7⟩
abbrev INKW_RCFG.SHARE (n : Nat) : Fld := ⟨strokeBase + (0x1e230 + 0x20 * n) * 8 + 8, 8⟩
abbrev INKW_RCFG.BPS (n : Nat) : Fld := ⟨(0x1e230 + 0x20 * n) * 8 + 32, 32⟩

/-! INKW_RSIZE (R297) -/
abbrev INKW_RSIZE.BYTES (n : Nat) : Fld := ⟨(0x1e238 + 0x20 * n) * 8, 48⟩
abbrev INKW_RSIZE.PINNED_SEG (n : Nat) : Fld := ⟨(0x1e238 + 0x20 * n) * 8 + 48, 16⟩

/-! INKW_ROLD (R297) -/
abbrev INKW_ROLD.STROKE (n : Nat) : Fld := ⟨(0x1e240 + 0x20 * n) * 8, 64⟩

/-! INKW_RNEW (R297) -/
abbrev INKW_RNEW.STROKE (n : Nat) : Fld := ⟨(0x1e248 + 0x20 * n) * 8, 64⟩

/-! INKW_RSEL_INDEX (R43) -/
abbrev INKW_RSEL_INDEX.ENTRY : Fld := ⟨0x1e330 * 8, 16⟩
abbrev INKW_RSEL_INDEX.WORD : Fld := ⟨0x1e330 * 8 + 16, 8⟩
abbrev INKW_RSEL_INDEX.AUTOINC : Fld := ⟨0x1e330 * 8 + 24, 1⟩

/-! INKW_RSEL_DATA_LO (R43) -/
abbrev INKW_RSEL_DATA_LO.DATA : Fld := ⟨0x1e338 * 8, 64⟩

/-! INKW_RSEL_DATA_HI (R43) -/
abbrev INKW_RSEL_DATA_HI.DATA : Fld := ⟨0x1e340 * 8, 64⟩

/-! INKW_RSEL_CTRL (R43) -/
abbrev INKW_RSEL_CTRL.OP : Fld := ⟨0x1e348 * 8, 2⟩
abbrev INKW_RSEL_CTRL.GO : Fld := ⟨0x1e348 * 8 + 8, 1⟩
abbrev INKW_RSEL_CTRL.BUSY : Fld := ⟨0x1e348 * 8 + 9, 1⟩
abbrev INKW_RSEL_CTRL.ERR : Fld := ⟨0x1e348 * 8 + 10, 1⟩

/-! INKW_ROWLOG (R296) -/
abbrev INKW_ROWLOG.CH (n : Nat) : Fld := ⟨(0x1e350 + 0x8 * n) * 8, 1⟩
abbrev INKW_ROWLOG.RANK (n : Nat) : Fld := ⟨(0x1e350 + 0x8 * n) * 8 + 1, 1⟩
abbrev INKW_ROWLOG.BG (n : Nat) : Fld := ⟨(0x1e350 + 0x8 * n) * 8 + 2, 2⟩
abbrev INKW_ROWLOG.BA (n : Nat) : Fld := ⟨(0x1e350 + 0x8 * n) * 8 + 4, 2⟩
abbrev INKW_ROWLOG.ROW (n : Nat) : Fld := ⟨(0x1e350 + 0x8 * n) * 8 + 6, 18⟩
abbrev INKW_ROWLOG.EVENT (n : Nat) : Fld := ⟨(0x1e350 + 0x8 * n) * 8 + 24, 4⟩
abbrev INKW_ROWLOG.REQ (n : Nat) : Fld := ⟨(0x1e350 + 0x8 * n) * 8 + 28, 3⟩
abbrev INKW_ROWLOG.STROKE_LO (n : Nat) : Fld := ⟨(0x1e350 + 0x8 * n) * 8 + 32, 32⟩

/-! INKW_HPPR (R296) -/
abbrev INKW_HPPR.USED (n : Nat) : Fld := ⟨(0x1e430 + 0x8 * n) * 8, 64⟩

/-! INKW_RCHK (R296) -/
abbrev INKW_RCHK.CAUSE : Fld := ⟨0x1e470 * 8, 4⟩
abbrev INKW_RCHK.BY_SYS : Fld := ⟨0x1e470 * 8 + 4, 1⟩
abbrev INKW_RCHK.RING : Fld := ⟨0x1e470 * 8 + 5, 3⟩
abbrev INKW_RCHK.STROKE_LO : Fld := ⟨0x1e470 * 8 + 32, 32⟩

/-! INKW_COUNT (R296) -/
abbrev INKW_COUNT.WITHHELD : Fld := ⟨0x1e478 * 8, 16⟩
abbrev INKW_COUNT.HPPR_DONE : Fld := ⟨0x1e478 * 8 + 16, 16⟩
abbrev INKW_COUNT.MAPOUTS : Fld := ⟨0x1e478 * 8 + 32, 16⟩
abbrev INKW_COUNT.RETIRED : Fld := ⟨0x1e478 * 8 + 48, 16⟩

/-! DMA_CTRL (R319) -/
abbrev DMA_CTRL.EN : Fld := ⟨0x1f080 * 8, 1⟩
abbrev DMA_CTRL.RESUME : Fld := ⟨0x1f080 * 8 + 1, 1⟩
abbrev DMA_CTRL.RO_DATA : Fld := ⟨0x1f080 * 8 + 2, 1⟩
abbrev DMA_CTRL.PARK_MAX_MS : Fld := ⟨0x1f080 * 8 + 16, 16⟩

/-! DMA_STATUS (R319) -/
abbrev DMA_STATUS.CL0 : Fld := ⟨0x1f088 * 8, 2⟩
abbrev DMA_STATUS.CL1 : Fld := ⟨0x1f088 * 8 + 2, 2⟩
abbrev DMA_STATUS.CL2 : Fld := ⟨0x1f088 * 8 + 4, 2⟩
abbrev DMA_STATUS.LINK_PARK : Fld := ⟨0x1f088 * 8 + 8, 1⟩
abbrev DMA_STATUS.BME : Fld := ⟨0x1f088 * 8 + 9, 1⟩

/-! DMA_RESUME (R319) -/
abbrev DMA_RESUME.CLASS : Fld := ⟨0x1f090 * 8, 2⟩
abbrev DMA_RESUME.OP : Fld := ⟨0x1f090 * 8 + 2, 2⟩
abbrev DMA_RESUME.GO : Fld := ⟨0x1f090 * 8 + 8, 1⟩
abbrev DMA_RESUME.FAULT_ID : Fld := ⟨0x1f090 * 8 + 16, 16⟩

/-! DMA_PARK (R319) -/
abbrev DMA_PARK.ID0 : Fld := ⟨0x1f098 * 8, 16⟩
abbrev DMA_PARK.ID1 : Fld := ⟨0x1f098 * 8 + 16, 16⟩
abbrev DMA_PARK.ID2 : Fld := ⟨0x1f098 * 8 + 32, 16⟩

/-! DMA_RING_INDEX (R43) -/
abbrev DMA_RING_INDEX.ENTRY : Fld := ⟨0x1f0a0 * 8, 16⟩
abbrev DMA_RING_INDEX.WORD : Fld := ⟨0x1f0a0 * 8 + 16, 8⟩
abbrev DMA_RING_INDEX.AUTOINC : Fld := ⟨0x1f0a0 * 8 + 24, 1⟩

/-! DMA_RING_DATA_LO (R43) -/
abbrev DMA_RING_DATA_LO.DATA : Fld := ⟨0x1f0a8 * 8, 64⟩

/-! DMA_RING_DATA_HI (R43) -/
abbrev DMA_RING_DATA_HI.DATA : Fld := ⟨0x1f0b0 * 8, 64⟩

/-! DMA_RING_CTRL (R43) -/
abbrev DMA_RING_CTRL.OP : Fld := ⟨0x1f0b8 * 8, 2⟩
abbrev DMA_RING_CTRL.GO : Fld := ⟨0x1f0b8 * 8 + 8, 1⟩
abbrev DMA_RING_CTRL.BUSY : Fld := ⟨0x1f0b8 * 8 + 9, 1⟩
abbrev DMA_RING_CTRL.ERR : Fld := ⟨0x1f0b8 * 8 + 10, 1⟩

/-! DMA_DONE (R319) -/
abbrev DMA_DONE.DONE : Fld := ⟨0x1f0c0 * 8, 32⟩

/-! DMA_COUNT0 (R319) -/
abbrev DMA_COUNT0.C0_OVERWRITTEN : Fld := ⟨0x1f0c8 * 8, 32⟩
abbrev DMA_COUNT0.C0_DROPPED : Fld := ⟨0x1f0c8 * 8 + 32, 32⟩

/-! DMA_COUNT1 (R319) -/
abbrev DMA_COUNT1.PREEMPTIONS : Fld := ⟨0x1f0d0 * 8, 32⟩
abbrev DMA_COUNT1.FAULTS : Fld := ⟨0x1f0d0 * 8 + 32, 16⟩
abbrev DMA_COUNT1.AUTO_DROPS : Fld := ⟨0x1f0d0 * 8 + 48, 16⟩

/-! DMA_IMG_ADDR (R319) -/
abbrev DMA_IMG_ADDR.ADDR : Fld := ⟨0x1f0d8 * 8, 64⟩

/-! DMA_IMG_CTRL (R319) -/
abbrev DMA_IMG_CTRL.LEN : Fld := ⟨0x1f0e0 * 8, 24⟩
abbrev DMA_IMG_CTRL.GO : Fld := ⟨0x1f0e0 * 8 + 32, 1⟩
abbrev DMA_IMG_CTRL.ABORT : Fld := ⟨0x1f0e0 * 8 + 33, 1⟩
abbrev DMA_IMG_CTRL.STATE : Fld := ⟨0x1f0e0 * 8 + 34, 2⟩
abbrev DMA_IMG_CTRL.ERR : Fld := ⟨0x1f0e0 * 8 + 36, 1⟩

/-! DMA_LINK (R319) -/
abbrev DMA_LINK.PARKS : Fld := ⟨0x1f0e8 * 8, 32⟩
abbrev DMA_LINK.INTERRUPTED : Fld := ⟨0x1f0e8 * 8 + 32, 16⟩
abbrev DMA_LINK.STALE_RESUME : Fld := ⟨0x1f0e8 * 8 + 48, 16⟩

/-! DMA_WRBYTES (R319) -/
abbrev DMA_WRBYTES.BYTES : Fld := ⟨0x1f0f0 * 8, 64⟩

/-! DMA_RDBYTES (R319) -/
abbrev DMA_RDBYTES.BYTES : Fld := ⟨0x1f0f8 * 8, 64⟩

/-! DMA_TAIL (R319) -/
abbrev DMA_TAIL.TAIL (n : Nat) : Fld := ⟨(0x1f100 + 0x8 * n) * 8, 19⟩
abbrev DMA_TAIL.HEAD (n : Nat) : Fld := ⟨(0x1f100 + 0x8 * n) * 8 + 32, 19⟩
abbrev DMA_TAIL.STARVED (n : Nat) : Fld := ⟨(0x1f100 + 0x8 * n) * 8 + 56, 1⟩
abbrev DMA_TAIL.FAULTED (n : Nat) : Fld := ⟨(0x1f100 + 0x8 * n) * 8 + 57, 1⟩
abbrev DMA_TAIL.ENABLED (n : Nat) : Fld := ⟨(0x1f100 + 0x8 * n) * 8 + 58, 1⟩

/-! DMA_RSTAT (R319) -/
abbrev DMA_RSTAT.FRAMES (n : Nat) : Fld := ⟨(0x1f200 + 0x8 * n) * 8, 32⟩
abbrev DMA_RSTAT.TOO_SMALL (n : Nat) : Fld := ⟨(0x1f200 + 0x8 * n) * 8 + 32, 16⟩
abbrev DMA_RSTAT.BAD_TAIL (n : Nat) : Fld := ⟨(0x1f200 + 0x8 * n) * 8 + 48, 8⟩
abbrev DMA_RSTAT.WB_FAULTS (n : Nat) : Fld := ⟨(0x1f200 + 0x8 * n) * 8 + 56, 8⟩

/-! ATU_CTRL (R320) -/
abbrev ATU_CTRL.EN : Fld := ⟨0x20080 * 8, 1⟩

/-! ATU_ROOT (R320) -/
abbrev ATU_ROOT.ROOT : Fld := ⟨0x20088 * 8 + 12, 40⟩

/-! ATU_INV (R320) -/
abbrev ATU_INV.GO : Fld := ⟨0x20090 * 8, 1⟩
abbrev ATU_INV.SCOPE : Fld := ⟨0x20090 * 8 + 1, 2⟩
abbrev ATU_INV.DONE : Fld := ⟨0x20090 * 8 + 3, 1⟩
abbrev ATU_INV.HELD : Fld := ⟨0x20090 * 8 + 4, 1⟩

/-! ATU_INV_BASE (R320) -/
abbrev ATU_INV_BASE.BASE : Fld := ⟨0x20098 * 8 + 12, 36⟩

/-! ATU_INV_LEN (R320) -/
abbrev ATU_INV_LEN.PAGES : Fld := ⟨0x200a0 * 8, 36⟩

/-! ATU_TLB_INDEX (R43) -/
abbrev ATU_TLB_INDEX.ENTRY : Fld := ⟨0x200a8 * 8, 16⟩
abbrev ATU_TLB_INDEX.WORD : Fld := ⟨0x200a8 * 8 + 16, 8⟩
abbrev ATU_TLB_INDEX.AUTOINC : Fld := ⟨0x200a8 * 8 + 24, 1⟩

/-! ATU_TLB_DATA_LO (R43) -/
abbrev ATU_TLB_DATA_LO.DATA : Fld := ⟨0x200b0 * 8, 64⟩

/-! ATU_TLB_DATA_HI (R43) -/
abbrev ATU_TLB_DATA_HI.DATA : Fld := ⟨0x200b8 * 8, 64⟩

/-! ATU_TLB_CTRL (R43) -/
abbrev ATU_TLB_CTRL.OP : Fld := ⟨0x200c0 * 8, 2⟩
abbrev ATU_TLB_CTRL.GO : Fld := ⟨0x200c0 * 8 + 8, 1⟩
abbrev ATU_TLB_CTRL.BUSY : Fld := ⟨0x200c0 * 8 + 9, 1⟩
abbrev ATU_TLB_CTRL.ERR : Fld := ⟨0x200c0 * 8 + 10, 1⟩

/-! ATU_STATS (R320) -/
abbrev ATU_STATS.HITS : Fld := ⟨0x200c8 * 8, 32⟩
abbrev ATU_STATS.MISSES : Fld := ⟨0x200c8 * 8 + 32, 32⟩

/-! ATU_WALK (R320) -/
abbrev ATU_WALK.WALKS : Fld := ⟨0x200d0 * 8, 32⟩
abbrev ATU_WALK.MAX_NS : Fld := ⟨0x200d0 * 8 + 32, 16⟩

/-! ATU_FAULTS (R320) -/
abbrev ATU_FAULTS.INVALID : Fld := ⟨0x200d8 * 8, 16⟩
abbrev ATU_FAULTS.PERM : Fld := ⟨0x200d8 * 8 + 16, 16⟩
abbrev ATU_FAULTS.FORMAT : Fld := ⟨0x200d8 * 8 + 32, 16⟩
abbrev ATU_FAULTS.READ_ERR : Fld := ⟨0x200d8 * 8 + 48, 16⟩

/-! ATU_PROBE (R320) -/
abbrev ATU_PROBE.IOVA : Fld := ⟨0x200e0 * 8, 64⟩

/-! ATU_PROBE_RES (R320) -/
abbrev ATU_PROBE_RES.ADDR : Fld := ⟨0x200e8 * 8 + 12, 40⟩
abbrev ATU_PROBE_RES.SIZE : Fld := ⟨0x200e8 * 8 + 1, 2⟩
abbrev ATU_PROBE_RES.CAUSE : Fld := ⟨0x200e8 * 8 + 3, 4⟩
abbrev ATU_PROBE_RES.DONE : Fld := ⟨0x200e8 * 8 + 7, 1⟩

/-! ATU_OCC (R320) -/
abbrev ATU_OCC.N4K : Fld := ⟨0x200f0 * 8, 11⟩
abbrev ATU_OCC.N2M : Fld := ⟨0x200f0 * 8 + 16, 11⟩
abbrev ATU_OCC.N1G : Fld := ⟨0x200f0 * 8 + 32, 11⟩

/-! ATU_INVCNT (R320) -/
abbrev ATU_INVCNT.INVALIDATIONS : Fld := ⟨0x200f8 * 8, 32⟩
abbrev ATU_INVCNT.MERGED : Fld := ⟨0x200f8 * 8 + 32, 32⟩

/-! ATU_FLOG (R320) -/
abbrev ATU_FLOG.IOVA_HI (n : Nat) : Fld := ⟨(0x20100 + 0x8 * n) * 8, 48⟩
abbrev ATU_FLOG.CAUSE (n : Nat) : Fld := ⟨(0x20100 + 0x8 * n) * 8 + 48, 4⟩
abbrev ATU_FLOG.SITE (n : Nat) : Fld := ⟨(0x20100 + 0x8 * n) * 8 + 52, 4⟩
abbrev ATU_FLOG.CLASS (n : Nat) : Fld := ⟨(0x20100 + 0x8 * n) * 8 + 56, 2⟩
abbrev ATU_FLOG.RING (n : Nat) : Fld := ⟨(0x20100 + 0x8 * n) * 8 + 58, 5⟩

/-! PCIE_ID (R321) -/
abbrev PCIE_ID.VENDOR : Fld := ⟨0x21080 * 8, 16⟩
abbrev PCIE_ID.DEVICE : Fld := ⟨0x21080 * 8 + 16, 16⟩
abbrev PCIE_ID.REV : Fld := ⟨0x21080 * 8 + 32, 8⟩

/-! PCIE_LINK (R321) -/
abbrev PCIE_LINK.SPEED : Fld := ⟨0x21088 * 8, 3⟩
abbrev PCIE_LINK.WIDTH : Fld := ⟨0x21088 * 8 + 3, 4⟩
abbrev PCIE_LINK.DL_UP : Fld := ⟨0x21088 * 8 + 7, 1⟩
abbrev PCIE_LINK.BME : Fld := ⟨0x21088 * 8 + 8, 1⟩
abbrev PCIE_LINK.MSIX_EN : Fld := ⟨0x21088 * 8 + 9, 1⟩

/-! PCIE_CTRL (R321) -/
abbrev PCIE_CTRL.FALLBACK_EN : Fld := ⟨0x21090 * 8, 1⟩
abbrev PCIE_CTRL.RETRAIN : Fld := ⟨0x21090 * 8 + 1, 1⟩
abbrev PCIE_CTRL.ECRC_GEN : Fld := ⟨0x21090 * 8 + 2, 1⟩
abbrev PCIE_CTRL.ECRC_CHK : Fld := ⟨0x21090 * 8 + 3, 1⟩
abbrev PCIE_CTRL.RECOV_LIM : Fld := ⟨0x21090 * 8 + 8, 8⟩

/-! PCIE_SIZES (R321) -/
abbrev PCIE_SIZES.MPS : Fld := ⟨0x21098 * 8, 10⟩
abbrev PCIE_SIZES.MRRS : Fld := ⟨0x21098 * 8 + 16, 10⟩

/-! PCIE_LCNT (R321) -/
abbrev PCIE_LCNT.RECOVERIES : Fld := ⟨0x210a0 * 8, 16⟩
abbrev PCIE_LCNT.DOWNS : Fld := ⟨0x210a0 * 8 + 16, 16⟩
abbrev PCIE_LCNT.SPEED_CHG : Fld := ⟨0x210a0 * 8 + 32, 16⟩
abbrev PCIE_LCNT.FALLBACKS : Fld := ⟨0x210a0 * 8 + 48, 16⟩

/-! PCIE_ERR (R321) -/
abbrev PCIE_ERR.MALFORMED : Fld := ⟨0x210a8 * 8, 16⟩
abbrev PCIE_ERR.UR_SENT : Fld := ⟨0x210a8 * 8 + 16, 16⟩
abbrev PCIE_ERR.POISONED : Fld := ⟨0x210a8 * 8 + 32, 16⟩
abbrev PCIE_ERR.ECRC : Fld := ⟨0x210a8 * 8 + 48, 16⟩

/-! PCIE_CPL (R321) -/
abbrev PCIE_CPL.TIMEOUT : Fld := ⟨0x210b0 * 8, 16⟩
abbrev PCIE_CPL.CPL_UR : Fld := ⟨0x210b0 * 8 + 16, 16⟩
abbrev PCIE_CPL.CPL_CA : Fld := ⟨0x210b0 * 8 + 32, 16⟩
abbrev PCIE_CPL.UNEXPECTED : Fld := ⟨0x210b0 * 8 + 48, 16⟩

/-! PCIE_AER (R321) -/
abbrev PCIE_AER.SENT : Fld := ⟨0x210b8 * 8, 32⟩
abbrev PCIE_AER.LIMITED : Fld := ⟨0x210b8 * 8 + 32, 32⟩

/-! PCIE_TXB (R321) -/
abbrev PCIE_TXB.BYTES : Fld := ⟨0x210c0 * 8, 64⟩

/-! PCIE_RXB (R321) -/
abbrev PCIE_RXB.BYTES : Fld := ⟨0x210c8 * 8, 64⟩

/-! PCIE_CREDIT (R321) -/
abbrev PCIE_CREDIT.STALL_US : Fld := ⟨0x210d0 * 8, 32⟩

/-! PCIE_BAR2 (R321) -/
abbrev PCIE_BAR2.READS : Fld := ⟨0x210d8 * 8, 32⟩
abbrev PCIE_BAR2.POISONED : Fld := ⟨0x210d8 * 8 + 32, 32⟩

/-! PCIE_BAR4 (R321) -/
abbrev PCIE_BAR4.BYTES : Fld := ⟨0x210e0 * 8, 32⟩
abbrev PCIE_BAR4.REFUSED : Fld := ⟨0x210e0 * 8 + 32, 32⟩

/-! PCIE_RESETS (R321) -/
abbrev PCIE_RESETS.HOT : Fld := ⟨0x210e8 * 8, 16⟩
abbrev PCIE_RESETS.FLR : Fld := ⟨0x210e8 * 8 + 16, 16⟩
abbrev PCIE_RESETS.D3 : Fld := ⟨0x210e8 * 8 + 32, 16⟩

/-! PCIE_DOWN (R321) -/
abbrev PCIE_DOWN.STROKE : Fld := ⟨0x210f0 * 8, 64⟩

/-! PCIE_UP (R321) -/
abbrev PCIE_UP.STROKE : Fld := ⟨0x210f8 * 8, 64⟩

/-! PCIE_VLOG (R321) -/
abbrev PCIE_VLOG.ENTRY (n : Nat) : Fld := ⟨(0x21100 + 0x8 * n) * 8, 64⟩

/-! LDU_CTRL (R339) -/
abbrev LDU_CTRL.EN : Fld := ⟨strokeBase + 0x22080 * 8, 1⟩
abbrev LDU_CTRL.RET_STRING : Fld := ⟨0x22080 * 8 + 8, 4⟩
abbrev LDU_CTRL.RET_GO : Fld := ⟨0x22080 * 8 + 12, 1⟩
abbrev LDU_CTRL.KEY : Fld := ⟨0x22080 * 8 + 16, 16⟩

/-! LDU_PTURN (R339) -/
abbrev LDU_PTURN.STROKE : Fld := ⟨0x22088 * 8, 64⟩

/-! LDU_PTURN_CTRL (R339) -/
abbrev LDU_PTURN_CTRL.PAGE : Fld := ⟨0x22090 * 8, 2⟩
abbrev LDU_PTURN_CTRL.ARM : Fld := ⟨0x22090 * 8 + 2, 1⟩
abbrev LDU_PTURN_CTRL.DOMAIN : Fld := ⟨0x22090 * 8 + 3, 1⟩
abbrev LDU_PTURN_CTRL.ARMED : Fld := ⟨0x22090 * 8 + 8, 1⟩
abbrev LDU_PTURN_CTRL.LATE : Fld := ⟨0x22090 * 8 + 9, 1⟩
abbrev LDU_PTURN_CTRL.STALE : Fld := ⟨0x22090 * 8 + 10, 1⟩
abbrev LDU_PTURN_CTRL.SHORT : Fld := ⟨0x22090 * 8 + 11, 1⟩
abbrev LDU_PTURN_CTRL.NOTROOT : Fld := ⟨0x22090 * 8 + 12, 1⟩
abbrev LDU_PTURN_CTRL.LIVE : Fld := ⟨0x22090 * 8 + 16, 2⟩
abbrev LDU_PTURN_CTRL.TURN_LO : Fld := ⟨0x22090 * 8 + 32, 32⟩

/-! LDU_MATRIX (R339) -/
abbrev LDU_MATRIX.EN : Fld := ⟨strokeBase + 0x22098 * 8, 1⟩
abbrev LDU_MATRIX.BLANK_LCLK : Fld := ⟨strokeBase + 0x22098 * 8 + 1, 15⟩
abbrev LDU_MATRIX.LINE_LCLK : Fld := ⟨strokeBase + 0x22098 * 8 + 16, 16⟩

/-! LDU_DIM (R339) -/
abbrev LDU_DIM.DIM_LCLK : Fld := ⟨strokeBase + 0x220a0 * 8, 16⟩

/-! LDU_DIAG (R339) -/
abbrev LDU_DIAG.STARVE_S : Fld := ⟨strokeBase + 0x220a8 * 8, 16⟩
abbrev LDU_DIAG.DIAG_PULSE_EN : Fld := ⟨strokeBase + 0x220a8 * 8 + 16, 1⟩
abbrev LDU_DIAG.DIAG_INT_MS : Fld := ⟨strokeBase + 0x220a8 * 8 + 17, 15⟩
abbrev LDU_DIAG.OPEN_CONSEC : Fld := ⟨strokeBase + 0x220a8 * 8 + 32, 4⟩
abbrev LDU_DIAG.RETRY_S : Fld := ⟨strokeBase + 0x220a8 * 8 + 40, 8⟩
abbrev LDU_DIAG.RETIRE_N : Fld := ⟨strokeBase + 0x220a8 * 8 + 48, 4⟩

/-! LDU_COLOUR (R339) -/
abbrev LDU_COLOUR.TC_PPM (n : Nat) : Fld := ⟨(0x220b0 + 0x8 * n) * 8, 16⟩
abbrev LDU_COLOUR.T_REF_C (n : Nat) : Fld := ⟨(0x220b0 + 0x8 * n) * 8 + 16, 8⟩

/-! LDU_THERM (R339) -/
abbrev LDU_THERM.TIN_STALE_S : Fld := ⟨strokeBase + 0x220d0 * 8, 16⟩
abbrev LDU_THERM.FAULT_PCT : Fld := ⟨strokeBase + 0x220d0 * 8 + 16, 7⟩

/-! LDU_COUNT (R339) -/
abbrev LDU_COUNT.TURNS : Fld := ⟨0x220d8 * 8, 16⟩
abbrev LDU_COUNT.PULSES : Fld := ⟨0x220d8 * 8 + 16, 16⟩
abbrev LDU_COUNT.PAGE_REFUSED : Fld := ⟨0x220d8 * 8 + 32, 16⟩
abbrev LDU_COUNT.MAP_CLASH : Fld := ⟨0x220d8 * 8 + 48, 16⟩

/-! LDU_LTAB_INDEX (R43) -/
abbrev LDU_LTAB_INDEX.ENTRY : Fld := ⟨0x220e0 * 8, 16⟩
abbrev LDU_LTAB_INDEX.WORD : Fld := ⟨0x220e0 * 8 + 16, 8⟩
abbrev LDU_LTAB_INDEX.AUTOINC : Fld := ⟨0x220e0 * 8 + 24, 1⟩

/-! LDU_LTAB_DATA_LO (R43) -/
abbrev LDU_LTAB_DATA_LO.DATA : Fld := ⟨0x220e8 * 8, 64⟩

/-! LDU_LTAB_DATA_HI (R43) -/
abbrev LDU_LTAB_DATA_HI.DATA : Fld := ⟨0x220f0 * 8, 64⟩

/-! LDU_LTAB_CTRL (R43) -/
abbrev LDU_LTAB_CTRL.OP : Fld := ⟨0x220f8 * 8, 2⟩
abbrev LDU_LTAB_CTRL.GO : Fld := ⟨0x220f8 * 8 + 8, 1⟩
abbrev LDU_LTAB_CTRL.BUSY : Fld := ⟨0x220f8 * 8 + 9, 1⟩
abbrev LDU_LTAB_CTRL.ERR : Fld := ⟨0x220f8 * 8 + 10, 1⟩

/-! LDU_PAGEW_INDEX (R43) -/
abbrev LDU_PAGEW_INDEX.ENTRY : Fld := ⟨0x22100 * 8, 16⟩
abbrev LDU_PAGEW_INDEX.WORD : Fld := ⟨0x22100 * 8 + 16, 8⟩
abbrev LDU_PAGEW_INDEX.AUTOINC : Fld := ⟨0x22100 * 8 + 24, 1⟩

/-! LDU_PAGEW_DATA_LO (R43) -/
abbrev LDU_PAGEW_DATA_LO.DATA : Fld := ⟨0x22108 * 8, 64⟩

/-! LDU_PAGEW_DATA_HI (R43) -/
abbrev LDU_PAGEW_DATA_HI.DATA : Fld := ⟨0x22110 * 8, 64⟩

/-! LDU_PAGEW_CTRL (R43) -/
abbrev LDU_PAGEW_CTRL.OP : Fld := ⟨0x22118 * 8, 2⟩
abbrev LDU_PAGEW_CTRL.GO : Fld := ⟨0x22118 * 8 + 8, 1⟩
abbrev LDU_PAGEW_CTRL.BUSY : Fld := ⟨0x22118 * 8 + 9, 1⟩
abbrev LDU_PAGEW_CTRL.ERR : Fld := ⟨0x22118 * 8 + 10, 1⟩

/-! LDU_TIN (R340) -/
abbrev LDU_TIN.OFS_C (n : Nat) : Fld := ⟨strokeBase + (0x22120 + 0x8 * n) * 8, 24⟩
abbrev LDU_TIN.GAIN (n : Nat) : Fld := ⟨strokeBase + (0x22120 + 0x8 * n) * 8 + 24, 32⟩
abbrev LDU_TIN.CHAN (n : Nat) : Fld := ⟨strokeBase + (0x22120 + 0x8 * n) * 8 + 56, 6⟩
abbrev LDU_TIN.EN (n : Nat) : Fld := ⟨strokeBase + (0x22120 + 0x8 * n) * 8 + 62, 1⟩

/-! LDU_LINE (R340) -/
abbrev LDU_LINE.EN (n : Nat) : Fld := ⟨strokeBase + (0x22160 + 0x8 * n) * 8, 1⟩
abbrev LDU_LINE.POL (n : Nat) : Fld := ⟨strokeBase + (0x22160 + 0x8 * n) * 8 + 1, 1⟩
abbrev LDU_LINE.DEAD_LCLK (n : Nat) : Fld := ⟨strokeBase + (0x22160 + 0x8 * n) * 8 + 2, 8⟩

/-! LDU_SCFG (R340) -/
abbrev LDU_SCFG.EN (n : Nat) : Fld := ⟨strokeBase + (0x221a0 + 0x20 * n) * 8, 1⟩
abbrev LDU_SCFG.ANALOG (n : Nat) : Fld := ⟨strokeBase + (0x221a0 + 0x20 * n) * 8 + 1, 1⟩
abbrev LDU_SCFG.CLEAR (n : Nat) : Fld := ⟨(0x221a0 + 0x20 * n) * 8 + 2, 1⟩
abbrev LDU_SCFG.FSW_DIV (n : Nat) : Fld := ⟨strokeBase + (0x221a0 + 0x20 * n) * 8 + 6, 10⟩
abbrev LDU_SCFG.OPEN_V (n : Nat) : Fld := ⟨strokeBase + (0x221a0 + 0x20 * n) * 8 + 16, 12⟩
abbrev LDU_SCFG.SHORT_V (n : Nat) : Fld := ⟨strokeBase + (0x221a0 + 0x20 * n) * 8 + 28, 12⟩

/-! LDU_SSET (R340) -/
abbrev LDU_SSET.ISET (n : Nat) : Fld := ⟨strokeBase + (0x221a8 + 0x20 * n) * 8, 12⟩

/-! LDU_SSTAT (R340) -/
abbrev LDU_SSTAT.STATE (n : Nat) : Fld := ⟨(0x221b0 + 0x20 * n) * 8, 2⟩
abbrev LDU_SSTAT.CAUSE (n : Nat) : Fld := ⟨(0x221b0 + 0x20 * n) * 8 + 2, 2⟩
abbrev LDU_SSTAT.I_MEAS (n : Nat) : Fld := ⟨(0x221b0 + 0x20 * n) * 8 + 4, 12⟩
abbrev LDU_SSTAT.V_MEAS (n : Nat) : Fld := ⟨(0x221b0 + 0x20 * n) * 8 + 16, 12⟩
abbrev LDU_SSTAT.ON_LCLK (n : Nat) : Fld := ⟨(0x221b0 + 0x20 * n) * 8 + 32, 12⟩

/-! LDU_SCNT (R340) -/
abbrev LDU_SCNT.OPEN_OBS (n : Nat) : Fld := ⟨(0x221b8 + 0x20 * n) * 8, 16⟩
abbrev LDU_SCNT.SHORT_OBS (n : Nat) : Fld := ⟨(0x221b8 + 0x20 * n) * 8 + 16, 16⟩
abbrev LDU_SCNT.OCP (n : Nat) : Fld := ⟨(0x221b8 + 0x20 * n) * 8 + 32, 16⟩
abbrev LDU_SCNT.RETRIES (n : Nat) : Fld := ⟨(0x221b8 + 0x20 * n) * 8 + 48, 16⟩

/-! LDU_OPEN (R341) -/
abbrev LDU_OPEN.OPEN (n : Nat) : Fld := ⟨(0x223a0 + 0x8 * n) * 8, 64⟩

/-! LDU_SHORT (R341) -/
abbrev LDU_SHORT.SHORT (n : Nat) : Fld := ⟨(0x223c0 + 0x8 * n) * 8, 64⟩

/-! LDU_UNDIAG (R341) -/
abbrev LDU_UNDIAG.UNDIAG (n : Nat) : Fld := ⟨(0x223e0 + 0x8 * n) * 8, 64⟩

/-! LDU_FAULTED (R341) -/
abbrev LDU_FAULTED.FAULTED (n : Nat) : Fld := ⟨(0x22400 + 0x8 * n) * 8, 64⟩

/-! LDU_DERATED (R341) -/
abbrev LDU_DERATED.DERATED (n : Nat) : Fld := ⟨(0x22420 + 0x8 * n) * 8, 64⟩

/-! LDU_INHIB (R341) -/
abbrev LDU_INHIB.INHIB (n : Nat) : Fld := ⟨(0x22440 + 0x8 * n) * 8, 64⟩

/-! LDU_TNOW (R341) -/
abbrev LDU_TNOW.T (n : Nat) : Fld := ⟨(0x22460 + 0x8 * n) * 8, 24⟩
abbrev LDU_TNOW.VALID (n : Nat) : Fld := ⟨(0x22460 + 0x8 * n) * 8 + 24, 1⟩
abbrev LDU_TNOW.STALE (n : Nat) : Fld := ⟨(0x22460 + 0x8 * n) * 8 + 25, 1⟩
abbrev LDU_TNOW.T1 (n : Nat) : Fld := ⟨(0x22460 + 0x8 * n) * 8 + 32, 24⟩
abbrev LDU_TNOW.VALID1 (n : Nat) : Fld := ⟨(0x22460 + 0x8 * n) * 8 + 56, 1⟩
abbrev LDU_TNOW.STALE1 (n : Nat) : Fld := ⟨(0x22460 + 0x8 * n) * 8 + 57, 1⟩

/-! TEST_CTRL (R409) -/
abbrev TEST_CTRL.STOP_ALL : Fld := ⟨0x23080 * 8, 1⟩

/-! TEST_EYE (R409) -/
abbrev TEST_EYE.INST : Fld := ⟨0x23088 * 8, 5⟩
abbrev TEST_EYE.PHASE : Fld := ⟨0x23088 * 8 + 5, 6⟩
abbrev TEST_EYE.VOFS : Fld := ⟨0x23088 * 8 + 11, 7⟩
abbrev TEST_EYE.DWELL_LOG2 : Fld := ⟨0x23088 * 8 + 18, 6⟩
abbrev TEST_EYE.GO : Fld := ⟨0x23088 * 8 + 24, 1⟩
abbrev TEST_EYE.BUSY : Fld := ⟨0x23088 * 8 + 25, 1⟩

/-! TEST_EYE_RES (R409) -/
abbrev TEST_EYE_RES.MISMATCH : Fld := ⟨0x23090 * 8, 48⟩
abbrev TEST_EYE_RES.POINTS : Fld := ⟨0x23090 * 8 + 48, 16⟩

/-! TEST_USER (R409) -/
abbrev TEST_USER.USER (n : Nat) : Fld := ⟨(0x23098 + 0x8 * n) * 8, 64⟩

/-! TEST_JTAG (R409) -/
abbrev TEST_JTAG.EXT_EN : Fld := ⟨0x230a8 * 8, 1⟩
abbrev TEST_JTAG.IR_LAST : Fld := ⟨0x230a8 * 8 + 8, 8⟩
abbrev TEST_JTAG.EXT_REFUSED : Fld := ⟨0x230a8 * 8 + 16, 16⟩

/-! TEST_COUNT (R409) -/
abbrev TEST_COUNT.TESTS : Fld := ⟨0x230b0 * 8, 16⟩
abbrev TEST_COUNT.REFUSED : Fld := ⟨0x230b0 * 8 + 16, 16⟩
abbrev TEST_COUNT.RETRAIN_HELD : Fld := ⟨0x230b0 * 8 + 32, 16⟩
abbrev TEST_COUNT.EYE_SCANS : Fld := ⟨0x230b0 * 8 + 48, 16⟩

/-! TEST_STATUS (R409) -/
abbrev TEST_STATUS.RUNNING : Fld := ⟨0x230b8 * 8, 18⟩
abbrev TEST_STATUS.LOCKED : Fld := ⟨0x230b8 * 8 + 32, 18⟩

/-! TEST_CFG (R410) -/
abbrev TEST_CFG.PATTERN (n : Nat) : Fld := ⟨(0x230c0 + 0x20 * n) * 8, 3⟩
abbrev TEST_CFG.GEN (n : Nat) : Fld := ⟨(0x230c0 + 0x20 * n) * 8 + 3, 1⟩
abbrev TEST_CFG.CHK (n : Nat) : Fld := ⟨(0x230c0 + 0x20 * n) * 8 + 4, 1⟩
abbrev TEST_CFG.LOOP (n : Nat) : Fld := ⟨(0x230c0 + 0x20 * n) * 8 + 5, 2⟩
abbrev TEST_CFG.GO (n : Nat) : Fld := ⟨(0x230c0 + 0x20 * n) * 8 + 7, 1⟩
abbrev TEST_CFG.STOP (n : Nat) : Fld := ⟨(0x230c0 + 0x20 * n) * 8 + 8, 1⟩
abbrev TEST_CFG.FORCE (n : Nat) : Fld := ⟨(0x230c0 + 0x20 * n) * 8 + 9, 1⟩
abbrev TEST_CFG.FRAMED (n : Nat) : Fld := ⟨(0x230c0 + 0x20 * n) * 8 + 10, 1⟩
abbrev TEST_CFG.WHOLE (n : Nat) : Fld := ⟨(0x230c0 + 0x20 * n) * 8 + 11, 1⟩
abbrev TEST_CFG.DURATION_MS (n : Nat) : Fld := ⟨(0x230c0 + 0x20 * n) * 8 + 16, 16⟩
abbrev TEST_CFG.STATE (n : Nat) : Fld := ⟨(0x230c0 + 0x20 * n) * 8 + 32, 4⟩
abbrev TEST_CFG.END_CAUSE (n : Nat) : Fld := ⟨(0x230c0 + 0x20 * n) * 8 + 36, 3⟩
abbrev TEST_CFG.REFUSE (n : Nat) : Fld := ⟨(0x230c0 + 0x20 * n) * 8 + 40, 3⟩

/-! TEST_SEED (R410) -/
abbrev TEST_SEED.SEED (n : Nat) : Fld := ⟨(0x230c8 + 0x20 * n) * 8, 31⟩
abbrev TEST_SEED.ERR_STOP (n : Nat) : Fld := ⟨(0x230c8 + 0x20 * n) * 8 + 32, 32⟩

/-! TEST_ERR (R410) -/
abbrev TEST_ERR.ERRORS (n : Nat) : Fld := ⟨(0x230d0 + 0x20 * n) * 8, 48⟩
abbrev TEST_ERR.LOCK_LOSS (n : Nat) : Fld := ⟨(0x230d0 + 0x20 * n) * 8 + 48, 16⟩

/-! TEST_BITS (R410) -/
abbrev TEST_BITS.BITS (n : Nat) : Fld := ⟨(0x230d8 + 0x20 * n) * 8, 64⟩

/-! MON_CTRL (R399) -/
abbrev MON_CTRL.WARN_C : Fld := ⟨0x24080 * 8, 8⟩
abbrev MON_CTRL.SUP_WARN_PM : Fld := ⟨0x24080 * 8 + 8, 8⟩

/-! MON_TJ (R399) -/
abbrev MON_TJ.TJ : Fld := ⟨0x24088 * 8, 16⟩
abbrev MON_TJ.SENSOR : Fld := ⟨0x24088 * 8 + 16, 3⟩
abbrev MON_TJ.PEAK : Fld := ⟨0x24088 * 8 + 32, 16⟩

/-! MON_TJ_MEAN (R399) -/
abbrev MON_TJ_MEAN.MEAN : Fld := ⟨0x24090 * 8, 16⟩
abbrev MON_TJ_MEAN.SAMPLES : Fld := ⟨0x24090 * 8 + 32, 32⟩

/-! MON_LIFE (R399) -/
abbrev MON_LIFE.EQ_S : Fld := ⟨0x24098 * 8, 48⟩
abbrev MON_LIFE.AF_NOW : Fld := ⟨0x24098 * 8 + 48, 16⟩

/-! MON_SUPPLY (R399) -/
abbrev MON_SUPPLY.LOW : Fld := ⟨0x240a0 * 8, 6⟩
abbrev MON_SUPPLY.HIGH : Fld := ⟨0x240a0 * 8 + 8, 6⟩

/-! MON_WEAR (R399) -/
abbrev MON_WEAR.NIB_STEP : Fld := ⟨0x240a8 * 8, 3⟩
abbrev MON_WEAR.DRAM_STEP : Fld := ⟨0x240a8 * 8 + 3, 3⟩
abbrev MON_WEAR.STRINGS_RETIRED : Fld := ⟨0x240a8 * 8 + 6, 5⟩
abbrev MON_WEAR.LEDGER_USED : Fld := ⟨0x240a8 * 8 + 16, 10⟩
abbrev MON_WEAR.LEDGER_FULL : Fld := ⟨0x240a8 * 8 + 26, 1⟩
abbrev MON_WEAR.HALVES_OK : Fld := ⟨0x240a8 * 8 + 27, 2⟩
abbrev MON_WEAR.PEN_OK : Fld := ⟨0x240a8 * 8 + 29, 1⟩

/-! MON_COUNT (R399) -/
abbrev MON_COUNT.WARN_CROSS : Fld := ⟨0x240b0 * 8, 16⟩
abbrev MON_COUNT.HOT_CROSS : Fld := ⟨0x240b0 * 8 + 16, 16⟩
abbrev MON_COUNT.SUPPLY_EVENTS : Fld := ⟨0x240b0 * 8 + 32, 16⟩
abbrev MON_COUNT.SPI_VIOL : Fld := ⟨0x240b0 * 8 + 48, 16⟩

/-! MON_UPTIME (R399) -/
abbrev MON_UPTIME.UPTIME_S : Fld := ⟨0x240b8 * 8, 32⟩

/-! MON_SPI_VLOG (R399) -/
abbrev MON_SPI_VLOG.ENTRY (n : Nat) : Fld := ⟨(0x240c0 + 0x8 * n) * 8, 64⟩

end Sys2Proof.Machine.F
end

