-- ==== Sys2Proof/Machine/RegMap.lean ====
section
/-!
DEFINITION. The register map: every register row of the spec's tables, page by page (R44), with its fields' places, access,
commit column, lock, reset value and the span a stored value is held to (R7 to R9). Offsets are relative to the page.
A field whose reset is "Image", "Fused" or "Ledger" in the spec stands here at 0 (DESIGN CHOICE, log entry 1).
-/

namespace Sys2Proof.Machine

/-- How a field answers a write (R8); the lock of RWL is a column of its own, and RWS is `rw` with commit `stroke`. -/
inductive Access | ro | rw | wo | w1c | w1s
  deriving DecidableEq, Repr

/-- When a write takes effect (R9). -/
inductive Commit | now | stroke | page | boot
  deriving DecidableEq, Repr

/-- One field of a register row. -/
structure FieldRow where
  lo : Nat
  width : Nat
  access : Access
  commit : Commit
  locked : Bool
  reset : Nat
  span : Option (Nat × Nat)
  deriving DecidableEq, Repr

/-- One row of a page's register table: `count` registers from `off`, `stride` bytes apart. -/
structure RegRow where
  name : String
  off : Nat
  stride : Nat
  count : Nat
  fields : List FieldRow
  deriving DecidableEq, Repr

/-- The registers of SYS (0x0). -/
def rowsSYS : List RegRow := [
  ⟨"SYS_ID", 0x80, 0x8, 1, [
    ⟨0, 8, .ro, .boot, false, 177, none⟩, ⟨8, 16, .ro, .boot, false, 1298, none⟩, ⟨32, 32, .ro, .boot, false, 0, none⟩]⟩,
  ⟨"SYS_FUSE", 0x88, 0x8, 1, [
    ⟨0, 4, .ro, .boot, false, 1, none⟩, ⟨4, 4, .ro, .boot, false, 0, none⟩, ⟨8, 6, .ro, .boot, false, 0, none⟩,
    ⟨16, 1, .ro, .boot, false, 0, none⟩]⟩,
  ⟨"SYS_RST", 0x90, 0x8, 1, [
    ⟨0, 2, .ro, .boot, false, 1, none⟩, ⟨8, 8, .ro, .boot, false, 0, none⟩]⟩,
  ⟨"SYS_CLK", 0x98, 0x8, 1, [
    ⟨0, 1, .ro, .boot, false, 0, none⟩, ⟨1, 2, .ro, .now, false, 0, none⟩, ⟨8, 1, .ro, .now, false, 0, none⟩,
    ⟨9, 1, .ro, .now, false, 0, none⟩, ⟨32, 32, .ro, .now, false, 0, none⟩]⟩,
  ⟨"SYS_STROKE_CFG", 0xa0, 0x8, 1, [
    ⟨0, 10, .rw, .stroke, false, 0, none⟩]⟩,
  ⟨"SYS_STROKE_NOW", 0xa8, 0x8, 1, [
    ⟨0, 64, .ro, .now, false, 0, none⟩]⟩,
  ⟨"SYS_STAGE", 0xb0, 0x8, 1, [
    ⟨0, 3, .ro, .now, false, 0, none⟩, ⟨32, 32, .ro, .now, false, 0, none⟩]⟩,
  ⟨"SYS_USEFUL_REQ", 0xb8, 0x8, 1, [
    ⟨0, 1, .rw, .now, false, 0, none⟩, ⟨1, 1, .rw, .now, false, 0, none⟩, ⟨2, 1, .rw, .now, false, 0, none⟩]⟩,
  ⟨"SYS_USEFUL", 0xc0, 0x8, 1, [
    ⟨0, 1, .ro, .now, false, 0, none⟩, ⟨1, 7, .ro, .now, false, 0, none⟩, ⟨32, 32, .ro, .now, false, 0, none⟩]⟩,
  ⟨"SYS_IMG_CTRL", 0xc8, 0x8, 1, [
    ⟨0, 1, .w1s, .now, false, 0, none⟩, ⟨1, 1, .w1s, .now, false, 0, none⟩, ⟨8, 8, .rw, .now, false, 3, none⟩,
    ⟨16, 16, .rw, .now, false, 1000, none⟩]⟩,
  ⟨"SYS_IMG_STATUS", 0xd0, 0x8, 1, [
    ⟨0, 3, .ro, .now, false, 0, none⟩, ⟨16, 24, .ro, .now, false, 0, none⟩]⟩,
  ⟨"SYS_IMG_HDR", 0xd8, 0x8, 1, [
    ⟨0, 32, .ro, .now, false, 0, none⟩, ⟨32, 16, .ro, .now, false, 0, none⟩, ⟨48, 6, .ro, .now, false, 0, none⟩,
    ⟨56, 2, .ro, .now, false, 0, none⟩]⟩,
  ⟨"SYS_IMGW_INDEX", 0xe0, 0x8, 1, [
    ⟨0, 16, .rw, .now, false, 0, none⟩, ⟨16, 8, .rw, .now, false, 0, none⟩, ⟨24, 1, .rw, .now, false, 0, none⟩]⟩,
  ⟨"SYS_IMGW_DATA_LO", 0xe8, 0x8, 1, [
    ⟨0, 64, .rw, .now, false, 0, none⟩]⟩,
  ⟨"SYS_IMGW_DATA_HI", 0xf0, 0x8, 1, [
    ⟨0, 64, .rw, .now, false, 0, none⟩]⟩,
  ⟨"SYS_IMGW_CTRL", 0xf8, 0x8, 1, [
    ⟨0, 2, .rw, .now, false, 0, none⟩, ⟨8, 1, .w1s, .now, false, 0, none⟩, ⟨9, 1, .ro, .now, false, 0, none⟩,
    ⟨10, 1, .w1c, .now, false, 0, none⟩]⟩,
  ⟨"SYS_IMG_DIGEST", 0x100, 0x8, 6, [
    ⟨0, 64, .ro, .now, false, 0, none⟩]⟩,
  ⟨"SYS_EBOOT", 0x130, 0x8, 1, [
    ⟨0, 48, .ro, .now, false, 0, none⟩, ⟨48, 2, .ro, .now, false, 0, none⟩, ⟨50, 3, .ro, .now, false, 0, none⟩]⟩,
  ⟨"SYS_COUNT", 0x138, 0x8, 1, [
    ⟨0, 16, .ro, .now, false, 0, none⟩, ⟨16, 16, .ro, .now, false, 0, none⟩, ⟨32, 16, .ro, .now, false, 0, none⟩,
    ⟨48, 16, .ro, .now, false, 0, none⟩]⟩]

/-- The registers of PEN (0x1000). -/
def rowsPEN : List RegRow := [
  ⟨"PEN_STATE", 0x80, 0x8, 1, [
    ⟨0, 2, .ro, .now, false, 0, none⟩, ⟨2, 1, .ro, .now, false, 0, none⟩, ⟨16, 16, .ro, .now, false, 0, none⟩,
    ⟨32, 16, .ro, .now, false, 0, none⟩, ⟨48, 3, .ro, .now, false, 0, none⟩, ⟨52, 3, .ro, .now, false, 0, none⟩,
    ⟨56, 1, .ro, .now, false, 0, none⟩, ⟨57, 1, .ro, .now, false, 0, none⟩]⟩,
  ⟨"PEN_CFG", 0x88, 0x8, 1, [
    ⟨0, 16, .rw, .now, false, 2000, some (100, 65535)⟩, ⟨16, 1, .rw, .now, false, 1, none⟩]⟩,
  ⟨"PEN_XFER_STROKE", 0x90, 0x8, 1, [
    ⟨0, 64, .rw, .now, false, 0, none⟩]⟩,
  ⟨"PEN_XFER", 0x98, 0x8, 1, [
    ⟨0, 2, .rw, .now, false, 0, none⟩, ⟨2, 1, .w1s, .now, false, 0, none⟩, ⟨8, 1, .ro, .now, false, 0, none⟩,
    ⟨9, 1, .w1c, .now, false, 0, none⟩, ⟨10, 1, .w1c, .now, false, 0, none⟩, ⟨11, 1, .w1c, .now, false, 0, none⟩,
    ⟨12, 4, .ro, .now, false, 0, none⟩, ⟨32, 32, .ro, .now, false, 0, none⟩]⟩,
  ⟨"PEN_UNLOCK", 0xa0, 0x8, 1, [
    ⟨0, 16, .wo, .now, false, 0, none⟩, ⟨16, 2, .wo, .now, false, 0, none⟩, ⟨18, 1, .w1s, .now, false, 0, none⟩,
    ⟨24, 2, .ro, .now, false, 0, none⟩]⟩,
  ⟨"PEN_VOTE", 0xa8, 0x8, 1, [
    ⟨0, 2, .ro, .now, false, 0, none⟩, ⟨2, 2, .ro, .now, false, 0, none⟩, ⟨4, 2, .ro, .now, false, 0, none⟩,
    ⟨16, 8, .ro, .now, false, 0, none⟩, ⟨24, 8, .ro, .now, false, 0, none⟩, ⟨32, 8, .ro, .now, false, 0, none⟩,
    ⟨48, 8, .ro, .now, false, 0, none⟩]⟩,
  ⟨"PEN_COUNT", 0xb0, 0x8, 1, [
    ⟨0, 16, .ro, .now, false, 0, none⟩, ⟨16, 16, .ro, .now, false, 0, none⟩, ⟨32, 16, .ro, .now, false, 0, none⟩,
    ⟨48, 16, .ro, .now, false, 0, none⟩]⟩,
  ⟨"PEN_LAST", 0xb8, 0x8, 1, [
    ⟨0, 4, .ro, .now, false, 0, none⟩, ⟨4, 2, .ro, .now, false, 0, none⟩, ⟨6, 2, .ro, .now, false, 0, none⟩,
    ⟨32, 32, .ro, .now, false, 0, none⟩]⟩]

/-- The registers of SCRR (0x2000). -/
def rowsSCRR : List RegRow := [
  ⟨"SCRR_CTRL", 0x80, 0x8, 1, [
    ⟨0, 1, .w1s, .now, false, 0, none⟩, ⟨8, 1, .rw, .now, false, 1, none⟩]⟩,
  ⟨"SCRR_STATE", 0x88, 0x8, 1, [
    ⟨0, 3, .ro, .now, false, 0, none⟩, ⟨4, 4, .ro, .now, false, 0, none⟩, ⟨8, 1, .ro, .now, false, 0, none⟩,
    ⟨16, 15, .ro, .now, false, 0, none⟩, ⟨31, 1, .ro, .now, false, 0, none⟩, ⟨32, 1, .ro, .now, false, 0, none⟩]⟩,
  ⟨"SCRR_EPOCH", 0x90, 0x8, 1, [
    ⟨0, 16, .ro, .boot, false, 0, none⟩, ⟨32, 32, .ro, .boot, false, 0, none⟩]⟩,
  ⟨"SCRR_WD", 0x98, 0x8, 1, [
    ⟨0, 16, .rw, .now, false, 10, some (1, 65535)⟩, ⟨16, 32, .rw, .now, false, 500, none⟩, ⟨48, 16, .rw, .now, false, 1000, none⟩]⟩,
  ⟨"SCRR_SLOTS", 0xa0, 0x8, 1, [
    ⟨0, 16, .rw, .now, false, 15, none⟩, ⟨16, 16, .ro, .now, false, 0, none⟩]⟩,
  ⟨"SCRR_SLOTEV0", 0xa8, 0x8, 1, [
    ⟨0, 7, .rw, .now, false, 0, none⟩, ⟨8, 7, .rw, .now, false, 0, none⟩, ⟨16, 7, .rw, .now, false, 0, none⟩,
    ⟨24, 7, .rw, .now, false, 0, none⟩, ⟨32, 7, .rw, .now, false, 0, none⟩, ⟨40, 7, .rw, .now, false, 0, none⟩,
    ⟨48, 7, .rw, .now, false, 0, none⟩, ⟨56, 7, .rw, .now, false, 0, none⟩]⟩,
  ⟨"SCRR_SLOTEV1", 0xb0, 0x8, 1, [
    ⟨0, 7, .rw, .now, false, 0, none⟩, ⟨8, 7, .rw, .now, false, 0, none⟩, ⟨16, 7, .rw, .now, false, 0, none⟩,
    ⟨24, 7, .rw, .now, false, 0, none⟩]⟩,
  ⟨"SCRR_FAULT", 0xb8, 0x8, 1, [
    ⟨0, 8, .ro, .now, false, 0, none⟩, ⟨8, 4, .ro, .now, false, 0, none⟩, ⟨16, 15, .ro, .now, false, 0, none⟩,
    ⟨32, 32, .ro, .now, false, 0, none⟩]⟩,
  ⟨"SCRR_COUNT", 0xc0, 0x8, 1, [
    ⟨0, 32, .ro, .now, false, 0, none⟩, ⟨32, 16, .ro, .now, false, 0, none⟩, ⟨48, 8, .ro, .now, false, 0, none⟩,
    ⟨56, 8, .ro, .now, false, 0, none⟩]⟩,
  ⟨"SCRR_MBIN_DATA", 0xc8, 0x8, 1, [
    ⟨0, 64, .wo, .now, false, 0, none⟩]⟩,
  ⟨"SCRR_MBIN_CTRL", 0xd0, 0x8, 1, [
    ⟨0, 7, .ro, .now, false, 0, none⟩, ⟨8, 1, .w1s, .now, false, 0, none⟩, ⟨9, 1, .ro, .now, false, 0, none⟩,
    ⟨10, 1, .w1s, .now, false, 0, none⟩, ⟨16, 16, .ro, .now, false, 0, none⟩]⟩,
  ⟨"SCRR_BOOT", 0xd8, 0x8, 1, [
    ⟨0, 16, .ro, .now, false, 0, none⟩]⟩,
  ⟨"SCRR_MEM_INDEX", 0xe0, 0x8, 1, [
    ⟨0, 16, .rw, .now, false, 0, none⟩, ⟨16, 8, .rw, .now, false, 0, none⟩, ⟨24, 1, .rw, .now, false, 0, none⟩]⟩,
  ⟨"SCRR_MEM_DATA_LO", 0xe8, 0x8, 1, [
    ⟨0, 64, .rw, .now, false, 0, none⟩]⟩,
  ⟨"SCRR_MEM_DATA_HI", 0xf0, 0x8, 1, [
    ⟨0, 64, .rw, .now, false, 0, none⟩]⟩,
  ⟨"SCRR_MEM_CTRL", 0xf8, 0x8, 1, [
    ⟨0, 2, .rw, .now, false, 0, none⟩, ⟨8, 1, .w1s, .now, false, 0, none⟩, ⟨9, 1, .ro, .now, false, 0, none⟩,
    ⟨10, 1, .w1c, .now, false, 0, none⟩]⟩,
  ⟨"SCRR_TB", 0x100, 0x8, 16, [
    ⟨0, 64, .ro, .now, false, 0, none⟩]⟩]

/-- The registers of SCRV (0x3000). -/
def rowsSCRV : List RegRow := [
  ⟨"SCRV_CTRL", 0x80, 0x8, 1, [
    ⟨0, 1, .w1s, .now, false, 0, none⟩, ⟨8, 1, .rw, .now, false, 1, none⟩]⟩,
  ⟨"SCRV_STATE", 0x88, 0x8, 1, [
    ⟨0, 3, .ro, .now, false, 0, none⟩, ⟨4, 4, .ro, .now, false, 0, none⟩, ⟨8, 1, .ro, .now, false, 0, none⟩,
    ⟨16, 15, .ro, .now, false, 0, none⟩, ⟨31, 1, .ro, .now, false, 0, none⟩, ⟨32, 1, .ro, .now, false, 0, none⟩]⟩,
  ⟨"SCRV_EPOCH", 0x90, 0x8, 1, [
    ⟨0, 16, .ro, .boot, false, 0, none⟩, ⟨32, 32, .ro, .boot, false, 0, none⟩]⟩,
  ⟨"SCRV_WD", 0x98, 0x8, 1, [
    ⟨0, 16, .rw, .now, false, 10, some (1, 65535)⟩, ⟨16, 32, .rw, .now, false, 500, none⟩, ⟨48, 16, .rw, .now, false, 1000, none⟩]⟩,
  ⟨"SCRV_SLOTS", 0xa0, 0x8, 1, [
    ⟨0, 16, .rw, .now, false, 15, none⟩, ⟨16, 16, .ro, .now, false, 0, none⟩]⟩,
  ⟨"SCRV_SLOTEV0", 0xa8, 0x8, 1, [
    ⟨0, 7, .rw, .now, false, 0, none⟩, ⟨8, 7, .rw, .now, false, 0, none⟩, ⟨16, 7, .rw, .now, false, 0, none⟩,
    ⟨24, 7, .rw, .now, false, 0, none⟩, ⟨32, 7, .rw, .now, false, 0, none⟩, ⟨40, 7, .rw, .now, false, 0, none⟩,
    ⟨48, 7, .rw, .now, false, 0, none⟩, ⟨56, 7, .rw, .now, false, 0, none⟩]⟩,
  ⟨"SCRV_SLOTEV1", 0xb0, 0x8, 1, [
    ⟨0, 7, .rw, .now, false, 0, none⟩, ⟨8, 7, .rw, .now, false, 0, none⟩, ⟨16, 7, .rw, .now, false, 0, none⟩,
    ⟨24, 7, .rw, .now, false, 0, none⟩]⟩,
  ⟨"SCRV_FAULT", 0xb8, 0x8, 1, [
    ⟨0, 8, .ro, .now, false, 0, none⟩, ⟨8, 4, .ro, .now, false, 0, none⟩, ⟨16, 15, .ro, .now, false, 0, none⟩,
    ⟨32, 32, .ro, .now, false, 0, none⟩]⟩,
  ⟨"SCRV_COUNT", 0xc0, 0x8, 1, [
    ⟨0, 32, .ro, .now, false, 0, none⟩, ⟨32, 16, .ro, .now, false, 0, none⟩, ⟨48, 8, .ro, .now, false, 0, none⟩,
    ⟨56, 8, .ro, .now, false, 0, none⟩]⟩,
  ⟨"SCRV_MBIN_DATA", 0xc8, 0x8, 1, [
    ⟨0, 64, .wo, .now, false, 0, none⟩]⟩,
  ⟨"SCRV_MBIN_CTRL", 0xd0, 0x8, 1, [
    ⟨0, 7, .ro, .now, false, 0, none⟩, ⟨8, 1, .w1s, .now, false, 0, none⟩, ⟨9, 1, .ro, .now, false, 0, none⟩,
    ⟨10, 1, .w1s, .now, false, 0, none⟩, ⟨16, 16, .ro, .now, false, 0, none⟩]⟩,
  ⟨"SCRV_BOOT", 0xd8, 0x8, 1, [
    ⟨0, 16, .ro, .now, false, 0, none⟩]⟩,
  ⟨"SCRV_MEM_INDEX", 0xe0, 0x8, 1, [
    ⟨0, 16, .rw, .now, false, 0, none⟩, ⟨16, 8, .rw, .now, false, 0, none⟩, ⟨24, 1, .rw, .now, false, 0, none⟩]⟩,
  ⟨"SCRV_MEM_DATA_LO", 0xe8, 0x8, 1, [
    ⟨0, 64, .rw, .now, false, 0, none⟩]⟩,
  ⟨"SCRV_MEM_DATA_HI", 0xf0, 0x8, 1, [
    ⟨0, 64, .rw, .now, false, 0, none⟩]⟩,
  ⟨"SCRV_MEM_CTRL", 0xf8, 0x8, 1, [
    ⟨0, 2, .rw, .now, false, 0, none⟩, ⟨8, 1, .w1s, .now, false, 0, none⟩, ⟨9, 1, .ro, .now, false, 0, none⟩,
    ⟨10, 1, .w1c, .now, false, 0, none⟩]⟩,
  ⟨"SCRV_TB", 0x100, 0x8, 16, [
    ⟨0, 64, .ro, .now, false, 0, none⟩]⟩]

/-- The registers of EVA (0x4000). -/
def rowsEVA : List RegRow := [
  ⟨"EVA_CTRL", 0x80, 0x8, 1, [
    ⟨0, 1, .rw, .now, false, 1, none⟩, ⟨1, 1, .rw, .now, false, 0, none⟩, ⟨2, 1, .rw, .now, false, 1, none⟩,
    ⟨16, 16, .rw, .now, false, 10, none⟩]⟩,
  ⟨"EVA_RAW", 0x88, 0x8, 2, [
    ⟨0, 64, .ro, .now, false, 0, none⟩]⟩,
  ⟨"EVA_PEND", 0x98, 0x8, 2, [
    ⟨0, 64, .w1c, .now, false, 0, none⟩]⟩,
  ⟨"EVA_EN", 0xa8, 0x8, 2, [
    ⟨0, 64, .rw, .now, false, 0, none⟩]⟩,
  ⟨"EVA_EVQ0", 0xb8, 0x8, 1, [
    ⟨0, 64, .rw, .now, false, 576196869512757247, none⟩]⟩,
  ⟨"EVA_EVQ1", 0xc0, 0x8, 1, [
    ⟨0, 64, .rw, .now, false, 18446744073709551615, none⟩]⟩,
  ⟨"EVA_VPEND", 0xc8, 0x8, 1, [
    ⟨0, 32, .ro, .now, false, 0, none⟩, ⟨32, 32, .ro, .now, false, 0, none⟩]⟩,
  ⟨"EVA_IRQ", 0xd0, 0x8, 1, [
    ⟨0, 1, .ro, .now, false, 0, none⟩, ⟨32, 32, .ro, .now, false, 0, none⟩]⟩,
  ⟨"EVA_MSGS", 0xd8, 0x8, 1, [
    ⟨0, 32, .ro, .now, false, 0, none⟩, ⟨32, 32, .ro, .now, false, 0, none⟩]⟩,
  ⟨"EVA_LAST", 0xe0, 0x8, 1, [
    ⟨0, 7, .ro, .now, false, 0, none⟩, ⟨32, 32, .ro, .now, false, 0, none⟩]⟩,
  ⟨"EVA_ITEMS", 0xe8, 0x8, 1, [
    ⟨0, 32, .ro, .now, false, 0, none⟩]⟩,
  ⟨"EVA_FORCE", 0xf0, 0x8, 2, [
    ⟨0, 64, .w1s, .now, false, 0, none⟩]⟩,
  ⟨"EVA_VEC0", 0x100, 0x8, 1, [
    ⟨0, 5, .rw, .now, false, 0, none⟩, ⟨8, 5, .rw, .now, false, 0, none⟩, ⟨16, 5, .rw, .now, false, 0, none⟩,
    ⟨24, 5, .rw, .now, false, 0, none⟩, ⟨32, 5, .rw, .now, false, 1, none⟩, ⟨40, 5, .rw, .now, false, 1, none⟩,
    ⟨48, 5, .rw, .now, false, 1, none⟩, ⟨56, 5, .rw, .now, false, 1, none⟩, ⟨5, 1, .rw, .now, false, 0, none⟩,
    ⟨13, 1, .rw, .now, false, 0, none⟩, ⟨21, 1, .rw, .now, false, 0, none⟩, ⟨29, 1, .rw, .now, false, 0, none⟩,
    ⟨37, 1, .rw, .now, false, 0, none⟩, ⟨45, 1, .rw, .now, false, 0, none⟩, ⟨53, 1, .rw, .now, false, 0, none⟩,
    ⟨61, 1, .rw, .now, false, 0, none⟩]⟩,
  ⟨"EVA_VEC1", 0x108, 0x8, 1, [
    ⟨0, 5, .rw, .now, false, 2, none⟩, ⟨8, 5, .rw, .now, false, 2, none⟩, ⟨16, 5, .rw, .now, false, 2, none⟩,
    ⟨24, 5, .rw, .now, false, 2, none⟩, ⟨32, 5, .rw, .now, false, 3, none⟩, ⟨40, 5, .rw, .now, false, 3, none⟩,
    ⟨48, 5, .rw, .now, false, 3, none⟩, ⟨56, 5, .rw, .now, false, 3, none⟩, ⟨5, 1, .rw, .now, false, 0, none⟩,
    ⟨13, 1, .rw, .now, false, 0, none⟩, ⟨21, 1, .rw, .now, false, 0, none⟩, ⟨29, 1, .rw, .now, false, 0, none⟩,
    ⟨37, 1, .rw, .now, false, 0, none⟩, ⟨45, 1, .rw, .now, false, 0, none⟩, ⟨53, 1, .rw, .now, false, 0, none⟩,
    ⟨61, 1, .rw, .now, false, 0, none⟩]⟩,
  ⟨"EVA_VEC2", 0x110, 0x8, 1, [
    ⟨0, 5, .rw, .now, false, 4, none⟩, ⟨8, 5, .rw, .now, false, 4, none⟩, ⟨16, 5, .rw, .now, false, 4, none⟩,
    ⟨24, 5, .rw, .now, false, 4, none⟩, ⟨32, 5, .rw, .now, false, 5, none⟩, ⟨40, 5, .rw, .now, false, 5, none⟩,
    ⟨48, 5, .rw, .now, false, 5, none⟩, ⟨56, 5, .rw, .now, false, 5, none⟩, ⟨5, 1, .rw, .now, false, 0, none⟩,
    ⟨13, 1, .rw, .now, false, 0, none⟩, ⟨21, 1, .rw, .now, false, 0, none⟩, ⟨29, 1, .rw, .now, false, 0, none⟩,
    ⟨37, 1, .rw, .now, false, 0, none⟩, ⟨45, 1, .rw, .now, false, 0, none⟩, ⟨53, 1, .rw, .now, false, 0, none⟩,
    ⟨61, 1, .rw, .now, false, 0, none⟩]⟩,
  ⟨"EVA_VEC3", 0x118, 0x8, 1, [
    ⟨0, 5, .rw, .now, false, 6, none⟩, ⟨8, 5, .rw, .now, false, 6, none⟩, ⟨16, 5, .rw, .now, false, 6, none⟩,
    ⟨24, 5, .rw, .now, false, 6, none⟩, ⟨32, 5, .rw, .now, false, 7, none⟩, ⟨40, 5, .rw, .now, false, 7, none⟩,
    ⟨48, 5, .rw, .now, false, 7, none⟩, ⟨56, 5, .rw, .now, false, 7, none⟩, ⟨5, 1, .rw, .now, false, 0, none⟩,
    ⟨13, 1, .rw, .now, false, 0, none⟩, ⟨21, 1, .rw, .now, false, 0, none⟩, ⟨29, 1, .rw, .now, false, 0, none⟩,
    ⟨37, 1, .rw, .now, false, 0, none⟩, ⟨45, 1, .rw, .now, false, 0, none⟩, ⟨53, 1, .rw, .now, false, 0, none⟩,
    ⟨61, 1, .rw, .now, false, 0, none⟩]⟩,
  ⟨"EVA_VEC4", 0x120, 0x8, 1, [
    ⟨0, 5, .rw, .now, false, 8, none⟩, ⟨8, 5, .rw, .now, false, 8, none⟩, ⟨16, 5, .rw, .now, false, 8, none⟩,
    ⟨24, 5, .rw, .now, false, 8, none⟩, ⟨32, 5, .rw, .now, false, 9, none⟩, ⟨40, 5, .rw, .now, false, 9, none⟩,
    ⟨48, 5, .rw, .now, false, 9, none⟩, ⟨56, 5, .rw, .now, false, 9, none⟩, ⟨5, 1, .rw, .now, false, 0, none⟩,
    ⟨13, 1, .rw, .now, false, 0, none⟩, ⟨21, 1, .rw, .now, false, 0, none⟩, ⟨29, 1, .rw, .now, false, 0, none⟩,
    ⟨37, 1, .rw, .now, false, 0, none⟩, ⟨45, 1, .rw, .now, false, 0, none⟩, ⟨53, 1, .rw, .now, false, 0, none⟩,
    ⟨61, 1, .rw, .now, false, 0, none⟩]⟩,
  ⟨"EVA_VEC5", 0x128, 0x8, 1, [
    ⟨0, 5, .rw, .now, false, 10, none⟩, ⟨8, 5, .rw, .now, false, 10, none⟩, ⟨16, 5, .rw, .now, false, 10, none⟩,
    ⟨24, 5, .rw, .now, false, 10, none⟩, ⟨32, 5, .rw, .now, false, 11, none⟩, ⟨40, 5, .rw, .now, false, 11, none⟩,
    ⟨48, 5, .rw, .now, false, 11, none⟩, ⟨56, 5, .rw, .now, false, 11, none⟩, ⟨5, 1, .rw, .now, false, 0, none⟩,
    ⟨13, 1, .rw, .now, false, 0, none⟩, ⟨21, 1, .rw, .now, false, 0, none⟩, ⟨29, 1, .rw, .now, false, 0, none⟩,
    ⟨37, 1, .rw, .now, false, 0, none⟩, ⟨45, 1, .rw, .now, false, 0, none⟩, ⟨53, 1, .rw, .now, false, 0, none⟩,
    ⟨61, 1, .rw, .now, false, 0, none⟩]⟩,
  ⟨"EVA_VEC6", 0x130, 0x8, 1, [
    ⟨0, 5, .rw, .now, false, 12, none⟩, ⟨8, 5, .rw, .now, false, 12, none⟩, ⟨16, 5, .rw, .now, false, 12, none⟩,
    ⟨24, 5, .rw, .now, false, 12, none⟩, ⟨32, 5, .rw, .now, false, 13, none⟩, ⟨40, 5, .rw, .now, false, 13, none⟩,
    ⟨48, 5, .rw, .now, false, 13, none⟩, ⟨56, 5, .rw, .now, false, 13, none⟩, ⟨5, 1, .rw, .now, false, 0, none⟩,
    ⟨13, 1, .rw, .now, false, 0, none⟩, ⟨21, 1, .rw, .now, false, 0, none⟩, ⟨29, 1, .rw, .now, false, 0, none⟩,
    ⟨37, 1, .rw, .now, false, 0, none⟩, ⟨45, 1, .rw, .now, false, 0, none⟩, ⟨53, 1, .rw, .now, false, 0, none⟩,
    ⟨61, 1, .rw, .now, false, 0, none⟩]⟩,
  ⟨"EVA_VEC7", 0x138, 0x8, 1, [
    ⟨0, 5, .rw, .now, false, 14, none⟩, ⟨8, 5, .rw, .now, false, 14, none⟩, ⟨16, 5, .rw, .now, false, 14, none⟩,
    ⟨24, 5, .rw, .now, false, 14, none⟩, ⟨32, 5, .rw, .now, false, 15, none⟩, ⟨40, 5, .rw, .now, false, 15, none⟩,
    ⟨48, 5, .rw, .now, false, 15, none⟩, ⟨56, 5, .rw, .now, false, 15, none⟩, ⟨5, 1, .rw, .now, false, 0, none⟩,
    ⟨13, 1, .rw, .now, false, 0, none⟩, ⟨21, 1, .rw, .now, false, 0, none⟩, ⟨29, 1, .rw, .now, false, 0, none⟩,
    ⟨37, 1, .rw, .now, false, 0, none⟩, ⟨45, 1, .rw, .now, false, 0, none⟩, ⟨53, 1, .rw, .now, false, 0, none⟩,
    ⟨61, 1, .rw, .now, false, 0, none⟩]⟩,
  ⟨"EVA_VEC8", 0x140, 0x8, 1, [
    ⟨0, 5, .rw, .now, false, 16, none⟩, ⟨8, 5, .rw, .now, false, 16, none⟩, ⟨16, 5, .rw, .now, false, 16, none⟩,
    ⟨24, 5, .rw, .now, false, 16, none⟩, ⟨32, 5, .rw, .now, false, 17, none⟩, ⟨40, 5, .rw, .now, false, 17, none⟩,
    ⟨48, 5, .rw, .now, false, 17, none⟩, ⟨56, 5, .rw, .now, false, 17, none⟩, ⟨5, 1, .rw, .now, false, 0, none⟩,
    ⟨13, 1, .rw, .now, false, 0, none⟩, ⟨21, 1, .rw, .now, false, 0, none⟩, ⟨29, 1, .rw, .now, false, 0, none⟩,
    ⟨37, 1, .rw, .now, false, 0, none⟩, ⟨45, 1, .rw, .now, false, 0, none⟩, ⟨53, 1, .rw, .now, false, 0, none⟩,
    ⟨61, 1, .rw, .now, false, 0, none⟩]⟩,
  ⟨"EVA_VEC9", 0x148, 0x8, 1, [
    ⟨0, 5, .rw, .now, false, 18, none⟩, ⟨8, 5, .rw, .now, false, 18, none⟩, ⟨16, 5, .rw, .now, false, 18, none⟩,
    ⟨24, 5, .rw, .now, false, 18, none⟩, ⟨32, 5, .rw, .now, false, 19, none⟩, ⟨40, 5, .rw, .now, false, 19, none⟩,
    ⟨48, 5, .rw, .now, false, 19, none⟩, ⟨56, 5, .rw, .now, false, 19, none⟩, ⟨5, 1, .rw, .now, false, 0, none⟩,
    ⟨13, 1, .rw, .now, false, 0, none⟩, ⟨21, 1, .rw, .now, false, 0, none⟩, ⟨29, 1, .rw, .now, false, 0, none⟩,
    ⟨37, 1, .rw, .now, false, 0, none⟩, ⟨45, 1, .rw, .now, false, 0, none⟩, ⟨53, 1, .rw, .now, false, 0, none⟩,
    ⟨61, 1, .rw, .now, false, 0, none⟩]⟩,
  ⟨"EVA_VEC10", 0x150, 0x8, 1, [
    ⟨0, 5, .rw, .now, false, 20, none⟩, ⟨8, 5, .rw, .now, false, 20, none⟩, ⟨16, 5, .rw, .now, false, 20, none⟩,
    ⟨24, 5, .rw, .now, false, 20, none⟩, ⟨32, 5, .rw, .now, false, 21, none⟩, ⟨40, 5, .rw, .now, false, 21, none⟩,
    ⟨48, 5, .rw, .now, false, 21, none⟩, ⟨56, 5, .rw, .now, false, 21, none⟩, ⟨5, 1, .rw, .now, false, 0, none⟩,
    ⟨13, 1, .rw, .now, false, 0, none⟩, ⟨21, 1, .rw, .now, false, 0, none⟩, ⟨29, 1, .rw, .now, false, 0, none⟩,
    ⟨37, 1, .rw, .now, false, 0, none⟩, ⟨45, 1, .rw, .now, false, 0, none⟩, ⟨53, 1, .rw, .now, false, 0, none⟩,
    ⟨61, 1, .rw, .now, false, 0, none⟩]⟩,
  ⟨"EVA_VEC11", 0x158, 0x8, 1, [
    ⟨0, 5, .rw, .now, false, 22, none⟩, ⟨8, 5, .rw, .now, false, 22, none⟩, ⟨16, 5, .rw, .now, false, 22, none⟩,
    ⟨24, 5, .rw, .now, false, 22, none⟩, ⟨32, 5, .rw, .now, false, 23, none⟩, ⟨40, 5, .rw, .now, false, 23, none⟩,
    ⟨48, 5, .rw, .now, false, 23, none⟩, ⟨56, 5, .rw, .now, false, 23, none⟩, ⟨5, 1, .rw, .now, false, 0, none⟩,
    ⟨13, 1, .rw, .now, false, 0, none⟩, ⟨21, 1, .rw, .now, false, 0, none⟩, ⟨29, 1, .rw, .now, false, 0, none⟩,
    ⟨37, 1, .rw, .now, false, 0, none⟩, ⟨45, 1, .rw, .now, false, 0, none⟩, ⟨53, 1, .rw, .now, false, 0, none⟩,
    ⟨61, 1, .rw, .now, false, 0, none⟩]⟩,
  ⟨"EVA_VEC12", 0x160, 0x8, 1, [
    ⟨0, 5, .rw, .now, false, 24, none⟩, ⟨8, 5, .rw, .now, false, 24, none⟩, ⟨16, 5, .rw, .now, false, 24, none⟩,
    ⟨24, 5, .rw, .now, false, 24, none⟩, ⟨32, 5, .rw, .now, false, 25, none⟩, ⟨40, 5, .rw, .now, false, 25, none⟩,
    ⟨48, 5, .rw, .now, false, 25, none⟩, ⟨56, 5, .rw, .now, false, 25, none⟩, ⟨5, 1, .rw, .now, false, 0, none⟩,
    ⟨13, 1, .rw, .now, false, 0, none⟩, ⟨21, 1, .rw, .now, false, 0, none⟩, ⟨29, 1, .rw, .now, false, 0, none⟩,
    ⟨37, 1, .rw, .now, false, 0, none⟩, ⟨45, 1, .rw, .now, false, 0, none⟩, ⟨53, 1, .rw, .now, false, 0, none⟩,
    ⟨61, 1, .rw, .now, false, 0, none⟩]⟩,
  ⟨"EVA_VEC13", 0x168, 0x8, 1, [
    ⟨0, 5, .rw, .now, false, 26, none⟩, ⟨8, 5, .rw, .now, false, 26, none⟩, ⟨16, 5, .rw, .now, false, 26, none⟩,
    ⟨24, 5, .rw, .now, false, 26, none⟩, ⟨32, 5, .rw, .now, false, 27, none⟩, ⟨40, 5, .rw, .now, false, 27, none⟩,
    ⟨48, 5, .rw, .now, false, 27, none⟩, ⟨56, 5, .rw, .now, false, 27, none⟩, ⟨5, 1, .rw, .now, false, 0, none⟩,
    ⟨13, 1, .rw, .now, false, 0, none⟩, ⟨21, 1, .rw, .now, false, 0, none⟩, ⟨29, 1, .rw, .now, false, 0, none⟩,
    ⟨37, 1, .rw, .now, false, 0, none⟩, ⟨45, 1, .rw, .now, false, 0, none⟩, ⟨53, 1, .rw, .now, false, 0, none⟩,
    ⟨61, 1, .rw, .now, false, 0, none⟩]⟩,
  ⟨"EVA_VEC14", 0x170, 0x8, 1, [
    ⟨0, 5, .rw, .now, false, 28, none⟩, ⟨8, 5, .rw, .now, false, 28, none⟩, ⟨16, 5, .rw, .now, false, 28, none⟩,
    ⟨24, 5, .rw, .now, false, 28, none⟩, ⟨32, 5, .rw, .now, false, 29, none⟩, ⟨40, 5, .rw, .now, false, 29, none⟩,
    ⟨48, 5, .rw, .now, false, 29, none⟩, ⟨56, 5, .rw, .now, false, 29, none⟩, ⟨5, 1, .rw, .now, false, 0, none⟩,
    ⟨13, 1, .rw, .now, false, 0, none⟩, ⟨21, 1, .rw, .now, false, 0, none⟩, ⟨29, 1, .rw, .now, false, 0, none⟩,
    ⟨37, 1, .rw, .now, false, 0, none⟩, ⟨45, 1, .rw, .now, false, 0, none⟩, ⟨53, 1, .rw, .now, false, 0, none⟩,
    ⟨61, 1, .rw, .now, false, 0, none⟩]⟩,
  ⟨"EVA_VEC15", 0x178, 0x8, 1, [
    ⟨0, 5, .rw, .now, false, 30, none⟩, ⟨8, 5, .rw, .now, false, 30, none⟩, ⟨16, 5, .rw, .now, false, 30, none⟩,
    ⟨24, 5, .rw, .now, false, 30, none⟩, ⟨32, 5, .rw, .now, false, 31, none⟩, ⟨40, 5, .rw, .now, false, 31, none⟩,
    ⟨48, 5, .rw, .now, false, 31, none⟩, ⟨56, 5, .rw, .now, false, 31, none⟩, ⟨5, 1, .rw, .now, false, 0, none⟩,
    ⟨13, 1, .rw, .now, false, 0, none⟩, ⟨21, 1, .rw, .now, false, 0, none⟩, ⟨29, 1, .rw, .now, false, 0, none⟩,
    ⟨37, 1, .rw, .now, false, 0, none⟩, ⟨45, 1, .rw, .now, false, 0, none⟩, ⟨53, 1, .rw, .now, false, 0, none⟩,
    ⟨61, 1, .rw, .now, false, 0, none⟩]⟩]

/-- The registers of TSU (0x5000). -/
def rowsTSU : List RegRow := [
  ⟨"TSU_CTRL", 0x80, 0x8, 1, [
    ⟨0, 2, .rw, .stroke, false, 0, none⟩, ⟨2, 1, .rw, .now, false, 1, none⟩, ⟨4, 4, .rw, .now, false, 6, none⟩]⟩,
  ⟨"TSU_NOW_S", 0x88, 0x8, 1, [
    ⟨0, 48, .ro, .now, false, 0, none⟩]⟩,
  ⟨"TSU_NOW_NS", 0x90, 0x8, 1, [
    ⟨0, 30, .ro, .now, false, 0, none⟩, ⟨32, 16, .ro, .now, false, 0, none⟩]⟩,
  ⟨"TSU_NOW_STROKE", 0x98, 0x8, 1, [
    ⟨0, 64, .ro, .now, false, 0, none⟩]⟩,
  ⟨"TSU_STRIKE_S", 0xa0, 0x8, 1, [
    ⟨0, 48, .ro, .now, false, 0, none⟩]⟩,
  ⟨"TSU_STRIKE_NS", 0xa8, 0x8, 1, [
    ⟨0, 30, .ro, .now, false, 0, none⟩, ⟨32, 16, .ro, .now, false, 0, none⟩]⟩,
  ⟨"TSU_RATE", 0xb0, 0x8, 1, [
    ⟨0, 32, .ro, .now, false, 0, none⟩]⟩,
  ⟨"TSU_STATUS", 0xb8, 0x8, 1, [
    ⟨0, 3, .ro, .now, false, 0, none⟩, ⟨3, 1, .ro, .now, false, 0, none⟩, ⟨8, 8, .ro, .now, false, 0, none⟩]⟩,
  ⟨"TSU_STEP_S", 0xc0, 0x8, 1, [
    ⟨0, 48, .rw, .stroke, false, 0, none⟩]⟩,
  ⟨"TSU_STEP_NS", 0xc8, 0x8, 1, [
    ⟨0, 30, .rw, .stroke, false, 0, some (0, 999999999)⟩, ⟨32, 16, .rw, .stroke, false, 0, none⟩]⟩,
  ⟨"TSU_STEP_CTRL", 0xd0, 0x8, 1, [
    ⟨0, 1, .rw, .stroke, false, 0, none⟩, ⟨1, 1, .rw, .stroke, false, 0, none⟩, ⟨2, 1, .w1s, .now, false, 0, none⟩,
    ⟨3, 1, .w1s, .now, false, 0, none⟩]⟩,
  ⟨"TSU_JUMP", 0xd8, 0x8, 1, [
    ⟨0, 30, .rw, .now, false, 1000, some (1, 1000000000)⟩, ⟨32, 4, .rw, .now, false, 3, some (1, 15)⟩]⟩,
  ⟨"TSU_JUMP_S", 0xe0, 0x8, 1, [
    ⟨0, 48, .ro, .now, false, 0, none⟩]⟩,
  ⟨"TSU_JUMP_NS", 0xe8, 0x8, 1, [
    ⟨0, 30, .ro, .now, false, 0, none⟩, ⟨32, 32, .ro, .now, false, 0, none⟩]⟩,
  ⟨"TSU_LAST_S", 0xf0, 0x8, 1, [
    ⟨0, 48, .ro, .now, false, 0, none⟩]⟩,
  ⟨"TSU_LAST_NS", 0xf8, 0x8, 1, [
    ⟨0, 30, .ro, .now, false, 0, none⟩, ⟨32, 32, .ro, .now, false, 0, none⟩]⟩,
  ⟨"TSU_UTC", 0x100, 0x8, 1, [
    ⟨0, 16, .rw, .now, false, 0, none⟩, ⟨16, 1, .rw, .now, false, 0, none⟩, ⟨17, 1, .rw, .now, false, 0, none⟩,
    ⟨18, 1, .rw, .now, false, 0, none⟩]⟩,
  ⟨"TSU_ANCHOR", 0x108, 0x8, 1, [
    ⟨0, 16, .rw, .now, false, 1000, some (1, 60000)⟩]⟩,
  ⟨"TSU_LAT", 0x110, 0x8, 4, [
    ⟨0, 16, .rw, .now, false, 0, none⟩, ⟨16, 16, .rw, .now, false, 0, none⟩]⟩,
  ⟨"TSU_COUNT", 0x130, 0x8, 1, [
    ⟨0, 16, .ro, .now, false, 0, none⟩, ⟨16, 16, .ro, .now, false, 0, none⟩, ⟨32, 16, .ro, .now, false, 0, none⟩]⟩,
  ⟨"TSU_INK", 0x138, 0x8, 1, [
    ⟨0, 32, .ro, .now, false, 0, none⟩, ⟨32, 32, .ro, .now, false, 0, none⟩]⟩,
  ⟨"TSU_LQ_CTRL", 0x140, 0x8, 1, [
    ⟨0, 1, .rw, .now, false, 0, none⟩, ⟨1, 1, .w1s, .now, false, 0, none⟩]⟩,
  ⟨"TSU_LQ_STATUS", 0x148, 0x8, 1, [
    ⟨0, 16, .ro, .now, false, 0, none⟩, ⟨32, 16, .ro, .now, false, 0, none⟩, ⟨48, 16, .ro, .now, false, 0, none⟩]⟩,
  ⟨"TSU_LQW_INDEX", 0x150, 0x8, 1, [
    ⟨0, 16, .rw, .now, false, 0, none⟩, ⟨16, 8, .rw, .now, false, 0, none⟩, ⟨24, 1, .rw, .now, false, 0, none⟩]⟩,
  ⟨"TSU_LQW_DATA_LO", 0x158, 0x8, 1, [
    ⟨0, 64, .rw, .now, false, 0, none⟩]⟩,
  ⟨"TSU_LQW_DATA_HI", 0x160, 0x8, 1, [
    ⟨0, 64, .rw, .now, false, 0, none⟩]⟩,
  ⟨"TSU_LQW_CTRL", 0x168, 0x8, 1, [
    ⟨0, 2, .rw, .now, false, 0, none⟩, ⟨8, 1, .w1s, .now, false, 0, none⟩, ⟨9, 1, .ro, .now, false, 0, none⟩,
    ⟨10, 1, .w1c, .now, false, 0, none⟩]⟩,
  ⟨"TSU_LQ_LAST", 0x170, 0x8, 1, [
    ⟨0, 32, .ro, .now, false, 0, none⟩, ⟨32, 16, .ro, .now, false, 0, none⟩, ⟨48, 4, .ro, .now, false, 0, none⟩]⟩,
  ⟨"TSU_STEPLOG", 0x178, 0x8, 8, [
    ⟨0, 32, .ro, .now, false, 0, none⟩, ⟨32, 32, .ro, .now, false, 0, none⟩]⟩,
  ⟨"TSU_HOLD_INFO", 0x1b8, 0x8, 1, [
    ⟨0, 32, .ro, .now, false, 0, none⟩, ⟨32, 32, .ro, .now, false, 0, none⟩]⟩]

/-- The registers of PTP (0x6000). -/
def rowsPTP : List RegRow := [
  ⟨"PTP_CTRL", 0x80, 0x8, 1, [
    ⟨0, 1, .rw, .stroke, false, 0, none⟩, ⟨4, 4, .rw, .stroke, false, 1, none⟩, ⟨8, 1, .rw, .stroke, false, 0, none⟩,
    ⟨9, 2, .rw, .stroke, false, 0, none⟩, ⟨11, 1, .rw, .stroke, false, 1, none⟩]⟩,
  ⟨"PTP_CFG", 0x88, 0x8, 1, [
    ⟨0, 8, .rw, .stroke, false, 0, some (0, 127)⟩, ⟨8, 4, .rw, .stroke, false, 3, some (2, 15)⟩]⟩,
  ⟨"PTP_SERVO", 0x90, 0x8, 1, [
    ⟨0, 16, .rw, .stroke, false, 16384, none⟩, ⟨16, 16, .rw, .stroke, false, 1024, none⟩, ⟨32, 16, .rw, .stroke, false, 50, none⟩,
    ⟨48, 8, .rw, .stroke, false, 16, none⟩]⟩,
  ⟨"PTP_FILT", 0x98, 0x8, 1, [
    ⟨0, 16, .rw, .stroke, false, 100, none⟩, ⟨16, 4, .rw, .stroke, false, 3, none⟩, ⟨32, 8, .rw, .stroke, false, 20, some (1, 32)⟩]⟩,
  ⟨"PTP_ASYM", 0xa0, 0x8, 4, [
    ⟨0, 32, .rw, .stroke, false, 0, none⟩]⟩,
  ⟨"PTP_OFFSET", 0xc0, 0x8, 1, [
    ⟨0, 48, .ro, .now, false, 0, none⟩]⟩,
  ⟨"PTP_MPD", 0xc8, 0x8, 1, [
    ⟨0, 48, .ro, .now, false, 0, none⟩]⟩,
  ⟨"PTP_STATE", 0xd0, 0x8, 1, [
    ⟨0, 3, .ro, .now, false, 0, none⟩, ⟨4, 2, .ro, .now, false, 0, none⟩, ⟨8, 3, .ro, .now, false, 0, none⟩,
    ⟨12, 4, .ro, .now, false, 0, none⟩, ⟨16, 8, .ro, .now, false, 0, none⟩, ⟨24, 8, .ro, .now, false, 0, none⟩,
    ⟨32, 8, .ro, .now, false, 0, none⟩]⟩,
  ⟨"PTP_PARENT_ID", 0xd8, 0x8, 1, [
    ⟨0, 64, .ro, .now, false, 0, none⟩]⟩,
  ⟨"PTP_PARENT", 0xe0, 0x8, 1, [
    ⟨0, 16, .ro, .now, false, 0, none⟩, ⟨16, 16, .ro, .now, false, 0, none⟩, ⟨32, 1, .ro, .now, false, 0, none⟩]⟩,
  ⟨"PTP_GM", 0xe8, 0x8, 1, [
    ⟨0, 8, .ro, .now, false, 0, none⟩, ⟨8, 8, .ro, .now, false, 0, none⟩, ⟨16, 8, .ro, .now, false, 0, none⟩,
    ⟨24, 16, .ro, .now, false, 0, none⟩, ⟨40, 8, .ro, .now, false, 0, none⟩, ⟨48, 8, .ro, .now, false, 0, none⟩]⟩,
  ⟨"PTP_GM_ID", 0xf0, 0x8, 1, [
    ⟨0, 64, .ro, .now, false, 0, none⟩]⟩,
  ⟨"PTP_OWN_ID", 0xf8, 0x8, 1, [
    ⟨0, 64, .ro, .boot, false, 0, none⟩]⟩,
  ⟨"PTP_FM_ID", 0x100, 0x10, 8, [
    ⟨0, 64, .ro, .now, false, 0, none⟩]⟩,
  ⟨"PTP_FM_DS", 0x108, 0x10, 8, [
    ⟨0, 48, .ro, .now, false, 0, none⟩, ⟨48, 8, .ro, .now, false, 0, none⟩, ⟨56, 2, .ro, .now, false, 0, none⟩,
    ⟨58, 1, .ro, .now, false, 0, none⟩, ⟨59, 1, .ro, .now, false, 0, none⟩]⟩,
  ⟨"PTP_SWITCH", 0x180, 0x8, 1, [
    ⟨0, 16, .ro, .now, false, 0, none⟩, ⟨32, 32, .ro, .now, false, 0, none⟩]⟩,
  ⟨"PTP_T", 0x188, 0x8, 4, [
    ⟨0, 32, .ro, .now, false, 0, none⟩, ⟨32, 16, .ro, .now, false, 0, none⟩]⟩,
  ⟨"PTP_CORR", 0x1a8, 0x8, 1, [
    ⟨0, 32, .ro, .now, false, 0, none⟩, ⟨32, 32, .ro, .now, false, 0, none⟩]⟩,
  ⟨"PTP_RXCNT", 0x1b0, 0x8, 1, [
    ⟨0, 16, .ro, .now, false, 0, none⟩, ⟨16, 16, .ro, .now, false, 0, none⟩, ⟨32, 16, .ro, .now, false, 0, none⟩,
    ⟨48, 16, .ro, .now, false, 0, none⟩]⟩,
  ⟨"PTP_TXCNT", 0x1b8, 0x8, 1, [
    ⟨0, 16, .ro, .now, false, 0, none⟩, ⟨16, 16, .ro, .now, false, 0, none⟩, ⟨32, 16, .ro, .now, false, 0, none⟩,
    ⟨48, 16, .ro, .now, false, 0, none⟩]⟩,
  ⟨"PTP_DROP", 0x1c0, 0x8, 4, [
    ⟨0, 16, .ro, .now, false, 0, none⟩, ⟨16, 16, .ro, .now, false, 0, none⟩, ⟨32, 16, .ro, .now, false, 0, none⟩,
    ⟨48, 16, .ro, .now, false, 0, none⟩]⟩,
  ⟨"PTP_TC_CNT", 0x1e0, 0x8, 1, [
    ⟨0, 32, .ro, .now, false, 0, none⟩, ⟨32, 32, .ro, .now, false, 0, none⟩]⟩,
  ⟨"PTP_TC_RES", 0x1e8, 0x8, 1, [
    ⟨0, 32, .ro, .now, false, 0, none⟩, ⟨32, 32, .ro, .now, false, 0, none⟩]⟩,
  ⟨"PTP_PEER", 0x1f0, 0x8, 1, [
    ⟨0, 48, .ro, .now, false, 0, none⟩]⟩,
  ⟨"PTP_RATE_LIM", 0x1f8, 0x8, 1, [
    ⟨0, 16, .rw, .now, false, 128, none⟩, ⟨32, 16, .ro, .now, false, 0, none⟩]⟩,
  ⟨"PTP_VLOG", 0x200, 0x8, 32, [
    ⟨0, 64, .ro, .now, false, 0, none⟩]⟩]

/-- The registers of TOUT (0x7000). -/
def rowsTOUT : List RegRow := [
  ⟨"TOUT_CFG", 0x80, 0x20, 8, [
    ⟨0, 3, .rw, .stroke, false, 0, none⟩, ⟨3, 1, .rw, .stroke, false, 0, none⟩, ⟨4, 6, .rw, .stroke, false, 0, none⟩,
    ⟨10, 28, .rw, .stroke, false, 100, none⟩, ⟨38, 14, .rw, .stroke, false, 0, none⟩, ⟨56, 1, .ro, .now, false, 0, none⟩,
    ⟨58, 1, .ro, .now, false, 0, none⟩, ⟨61, 1, .ro, .now, false, 0, none⟩, ⟨57, 1, .w1c, .now, false, 0, none⟩,
    ⟨59, 1, .w1c, .now, false, 0, none⟩, ⟨60, 1, .w1c, .now, false, 0, none⟩, ⟨62, 1, .ro, .now, false, 0, none⟩]⟩,
  ⟨"TOUT_START_S", 0x88, 0x20, 8, [
    ⟨0, 48, .rw, .stroke, false, 0, none⟩]⟩,
  ⟨"TOUT_START_NS", 0x90, 0x20, 8, [
    ⟨0, 30, .rw, .stroke, false, 0, none⟩, ⟨32, 32, .ro, .now, false, 0, none⟩]⟩,
  ⟨"TOUT_PERIOD", 0x98, 0x20, 8, [
    ⟨0, 40, .rw, .stroke, false, 0, none⟩, ⟨40, 16, .rw, .stroke, false, 0, none⟩]⟩]

/-- The registers of ILK (0x8000). -/
def rowsILK : List RegRow := [
  ⟨"ILK_CFG", 0x80, 0x8, 1, [
    ⟨0, 2, .rw, .stroke, false, 0, none⟩, ⟨2, 2, .rw, .stroke, false, 0, none⟩, ⟨4, 4, .rw, .stroke, false, 0, none⟩,
    ⟨8, 1, .rw, .stroke, false, 0, none⟩, ⟨9, 1, .rw, .stroke, false, 1, none⟩, ⟨10, 1, .rw, .stroke, false, 1, none⟩,
    ⟨11, 1, .rw, .stroke, false, 1, none⟩]⟩,
  ⟨"ILK_ID", 0x88, 0x8, 1, [
    ⟨0, 10, .rw, .stroke, true, 0, none⟩, ⟨16, 16, .rw, .stroke, true, 0, none⟩, ⟨40, 8, .ro, .now, false, 0, none⟩]⟩,
  ⟨"ILK_STATE", 0x90, 0x8, 1, [
    ⟨0, 4, .ro, .now, false, 0, none⟩, ⟨4, 2, .ro, .now, false, 0, none⟩, ⟨8, 3, .ro, .now, false, 0, none⟩,
    ⟨12, 1, .ro, .now, false, 0, none⟩, ⟨13, 1, .ro, .now, false, 0, none⟩]⟩,
  ⟨"ILK_TRACK", 0x98, 0x8, 1, [
    ⟨0, 4, .rw, .stroke, false, 8, some (4, 15)⟩, ⟨8, 4, .rw, .stroke, false, 6, some (4, 15)⟩, ⟨16, 4, .rw, .stroke, false, 6, some (6, 15)⟩,
    ⟨20, 8, .rw, .stroke, false, 10, some (6, 16)⟩]⟩,
  ⟨"ILK_OFFSET", 0xa0, 0x8, 1, [
    ⟨0, 48, .ro, .now, false, 0, none⟩]⟩,
  ⟨"ILK_PLACE", 0xa8, 0x8, 1, [
    ⟨0, 16, .ro, .now, false, 0, none⟩, ⟨24, 40, .ro, .now, false, 0, none⟩]⟩,
  ⟨"ILK_PATH", 0xb0, 0x8, 1, [
    ⟨0, 32, .ro, .now, false, 0, none⟩, ⟨32, 3, .ro, .now, false, 0, none⟩]⟩,
  ⟨"ILK_ANC", 0xb8, 0x8, 2, [
    ⟨0, 10, .ro, .now, false, 1023, none⟩, ⟨10, 10, .ro, .now, false, 1023, none⟩, ⟨20, 10, .ro, .now, false, 1023, none⟩,
    ⟨30, 10, .ro, .now, false, 1023, none⟩, ⟨40, 10, .ro, .now, false, 1023, none⟩, ⟨50, 10, .ro, .now, false, 1023, none⟩]⟩,
  ⟨"ILK_HOLD", 0xc8, 0x8, 1, [
    ⟨0, 32, .ro, .now, false, 0, none⟩, ⟨32, 16, .ro, .now, false, 0, none⟩]⟩,
  ⟨"ILK_REJOIN", 0xd0, 0x8, 1, [
    ⟨0, 48, .ro, .now, false, 0, none⟩, ⟨48, 1, .ro, .now, false, 0, none⟩]⟩,
  ⟨"ILK_REJOIN_LEN", 0xd8, 0x8, 1, [
    ⟨0, 32, .ro, .now, false, 0, none⟩]⟩,
  ⟨"ILK_ROOTSTAT", 0xe0, 0x8, 1, [
    ⟨0, 11, .ro, .now, false, 0, none⟩, ⟨12, 3, .ro, .now, false, 0, none⟩, ⟨32, 32, .ro, .now, false, 0, none⟩]⟩,
  ⟨"ILK_TRIG", 0xe8, 0x8, 1, [
    ⟨0, 16, .ro, .now, false, 0, none⟩, ⟨16, 16, .ro, .now, false, 0, none⟩, ⟨32, 16, .ro, .now, false, 0, none⟩]⟩,
  ⟨"ILK_COUNT", 0xf0, 0x8, 1, [
    ⟨0, 16, .ro, .now, false, 0, none⟩, ⟨16, 16, .ro, .now, false, 0, none⟩, ⟨32, 16, .ro, .now, false, 0, none⟩,
    ⟨48, 16, .ro, .now, false, 0, none⟩]⟩,
  ⟨"ILK_BACKUP", 0xf8, 0x8, 1, [
    ⟨0, 16, .rw, .now, false, 100, none⟩, ⟨16, 16, .rw, .now, false, 64, none⟩]⟩,
  ⟨"ILK_TOPO_INDEX", 0x100, 0x8, 1, [
    ⟨0, 16, .rw, .now, false, 0, none⟩, ⟨16, 8, .rw, .now, false, 0, none⟩, ⟨24, 1, .rw, .now, false, 0, none⟩]⟩,
  ⟨"ILK_TOPO_DATA_LO", 0x108, 0x8, 1, [
    ⟨0, 64, .rw, .now, false, 0, none⟩]⟩,
  ⟨"ILK_TOPO_DATA_HI", 0x110, 0x8, 1, [
    ⟨0, 64, .rw, .now, false, 0, none⟩]⟩,
  ⟨"ILK_TOPO_CTRL", 0x118, 0x8, 1, [
    ⟨0, 2, .rw, .now, false, 0, none⟩, ⟨8, 1, .w1s, .now, false, 0, none⟩, ⟨9, 1, .ro, .now, false, 0, none⟩,
    ⟨10, 1, .w1c, .now, false, 0, none⟩]⟩,
  ⟨"ILK_LCFG", 0x120, 0x60, 4, [
    ⟨0, 1, .rw, .stroke, false, 1, none⟩, ⟨1, 1, .w1s, .now, false, 0, none⟩]⟩,
  ⟨"ILK_ASYM", 0x128, 0x60, 4, [
    ⟨0, 32, .rw, .stroke, false, 0, none⟩]⟩,
  ⟨"ILK_LAT", 0x130, 0x60, 4, [
    ⟨0, 16, .ro, .boot, false, 0, none⟩, ⟨16, 16, .ro, .boot, false, 0, none⟩]⟩,
  ⟨"ILK_LSTAT", 0x138, 0x60, 4, [
    ⟨0, 2, .ro, .now, false, 0, none⟩, ⟨2, 1, .ro, .now, false, 0, none⟩, ⟨3, 1, .ro, .now, false, 0, none⟩]⟩,
  ⟨"ILK_NBR", 0x140, 0x60, 4, [
    ⟨0, 10, .ro, .now, false, 0, none⟩, ⟨10, 16, .ro, .now, false, 0, none⟩, ⟨26, 3, .ro, .now, false, 0, none⟩,
    ⟨29, 3, .ro, .now, false, 0, none⟩, ⟨32, 8, .ro, .now, false, 0, none⟩]⟩,
  ⟨"ILK_PHI", 0x148, 0x60, 4, [
    ⟨0, 48, .ro, .now, false, 0, none⟩]⟩,
  ⟨"ILK_RPHI", 0x150, 0x60, 4, [
    ⟨0, 48, .ro, .now, false, 0, none⟩]⟩,
  ⟨"ILK_RTT", 0x158, 0x60, 4, [
    ⟨0, 48, .ro, .now, false, 0, none⟩]⟩,
  ⟨"ILK_PPM", 0x160, 0x60, 4, [
    ⟨0, 16, .ro, .now, false, 0, none⟩]⟩,
  ⟨"ILK_CODE", 0x168, 0x60, 4, [
    ⟨0, 32, .ro, .now, false, 0, none⟩, ⟨32, 32, .ro, .now, false, 0, none⟩]⟩,
  ⟨"ILK_CRC", 0x170, 0x60, 4, [
    ⟨0, 32, .ro, .now, false, 0, none⟩, ⟨32, 32, .ro, .now, false, 0, none⟩]⟩,
  ⟨"ILK_FRM", 0x178, 0x60, 4, [
    ⟨0, 32, .ro, .now, false, 0, none⟩, ⟨32, 32, .ro, .now, false, 0, none⟩]⟩,
  ⟨"ILK_VLOG", 0x2a0, 0x8, 28, [
    ⟨0, 64, .ro, .now, false, 0, none⟩]⟩]

/-- The registers of BCAST (0x9000). -/
def rowsBCAST : List RegRow := [
  ⟨"BCAST_LEAD", 0x80, 0x8, 1, [
    ⟨0, 32, .ro, .now, false, 0, none⟩]⟩,
  ⟨"BCAST_SEQ", 0x88, 0x8, 1, [
    ⟨0, 16, .ro, .now, false, 0, none⟩, ⟨16, 16, .ro, .now, false, 0, none⟩]⟩,
  ⟨"BCAST_LAST", 0x90, 0x8, 1, [
    ⟨0, 4, .ro, .now, false, 0, none⟩, ⟨4, 3, .ro, .now, false, 0, none⟩, ⟨8, 8, .ro, .now, false, 0, none⟩,
    ⟨32, 32, .ro, .now, false, 0, none⟩]⟩,
  ⟨"BCAST_STATUS", 0x98, 0x8, 1, [
    ⟨0, 16, .ro, .now, false, 0, none⟩, ⟨16, 16, .ro, .now, false, 0, none⟩, ⟨32, 16, .ro, .now, false, 0, none⟩,
    ⟨48, 16, .ro, .now, false, 0, none⟩]⟩,
  ⟨"BCAST_MISS", 0xa0, 0x8, 8, [
    ⟨0, 4, .ro, .now, false, 0, none⟩, ⟨4, 3, .ro, .now, false, 0, none⟩, ⟨8, 8, .ro, .now, false, 0, none⟩,
    ⟨16, 16, .ro, .now, false, 0, none⟩, ⟨32, 32, .ro, .now, false, 0, none⟩]⟩,
  ⟨"BCAST_CTRL", 0xe0, 0x8, 1, [
    ⟨0, 3, .rw, .stroke, false, 7, none⟩]⟩,
  ⟨"BCAST_RESEND", 0xe8, 0x8, 1, [
    ⟨0, 32, .ro, .now, false, 0, none⟩]⟩,
  ⟨"BCAST_RX", 0xf0, 0x8, 1, [
    ⟨0, 32, .ro, .now, false, 0, none⟩, ⟨32, 32, .ro, .now, false, 0, none⟩]⟩,
  ⟨"BCAST_TIME", 0xf8, 0x8, 1, [
    ⟨0, 32, .ro, .now, false, 0, none⟩, ⟨32, 32, .ro, .now, false, 0, none⟩]⟩]

/-- The registers of FEGRP (0x10000). -/
def rowsFEGRP : List RegRow := [
  ⟨"FEGRP_CFG", 0x80, 0x20, 32, [
    ⟨0, 12, .rw, .stroke, false, 750, none⟩, ⟨12, 12, .rw, .stroke, false, 3346, none⟩, ⟨24, 12, .rw, .stroke, false, 200, none⟩,
    ⟨36, 12, .rw, .stroke, false, 2000, none⟩, ⟨48, 8, .rw, .stroke, false, 50, none⟩, ⟨56, 2, .rw, .stroke, false, 0, none⟩]⟩,
  ⟨"FEGRP_REF", 0x88, 0x20, 32, [
    ⟨0, 23, .ro, .now, false, 0, none⟩, ⟨32, 1, .ro, .now, false, 0, none⟩, ⟨40, 8, .ro, .now, false, 0, none⟩]⟩,
  ⟨"FEGRP_STATUS", 0x90, 0x20, 32, [
    ⟨0, 16, .ro, .now, false, 0, none⟩, ⟨16, 4, .ro, .now, false, 0, none⟩, ⟨32, 16, .ro, .now, false, 0, none⟩]⟩,
  ⟨"FEGRP_COUNT", 0x98, 0x20, 32, [
    ⟨0, 32, .ro, .now, false, 0, none⟩, ⟨32, 32, .ro, .now, false, 0, none⟩]⟩]

/-- The registers of FECH0 (0x11000). -/
def rowsFECH0 : List RegRow := [
  ⟨"FECH0_CFG", 0x80, 0x8, 256, [
    ⟨0, 2, .rw, .stroke, false, 0, none⟩, ⟨2, 2, .rw, .stroke, false, 0, none⟩, ⟨4, 2, .rw, .stroke, false, 1, none⟩,
    ⟨48, 1, .ro, .now, false, 0, none⟩, ⟨49, 1, .ro, .now, false, 0, none⟩, ⟨50, 1, .ro, .now, false, 0, none⟩,
    ⟨51, 1, .ro, .now, false, 0, none⟩, ⟨52, 2, .ro, .now, false, 0, none⟩, ⟨56, 8, .ro, .now, false, 0, none⟩]⟩]

/-- The registers of FECH1 (0x12000). -/
def rowsFECH1 : List RegRow := [
  ⟨"FECH1_CFG", 0x80, 0x8, 256, [
    ⟨0, 2, .rw, .stroke, false, 0, none⟩, ⟨2, 2, .rw, .stroke, false, 0, none⟩, ⟨4, 2, .rw, .stroke, false, 1, none⟩,
    ⟨48, 1, .ro, .now, false, 0, none⟩, ⟨49, 1, .ro, .now, false, 0, none⟩, ⟨50, 1, .ro, .now, false, 0, none⟩,
    ⟨51, 1, .ro, .now, false, 0, none⟩, ⟨52, 2, .ro, .now, false, 0, none⟩, ⟨56, 8, .ro, .now, false, 0, none⟩]⟩]

/-- The registers of SLOW (0x13000). -/
def rowsSLOW : List RegRow := [
  ⟨"SLOW_CFG", 0x80, 0x18, 64, [
    ⟨0, 3, .rw, .stroke, false, 0, none⟩, ⟨4, 2, .rw, .stroke, false, 0, none⟩, ⟨6, 2, .rw, .stroke, false, 1, none⟩,
    ⟨8, 2, .rw, .stroke, false, 2, some (1, 3)⟩, ⟨10, 1, .rw, .stroke, false, 1, none⟩, ⟨12, 2, .rw, .stroke, false, 1, none⟩,
    ⟨16, 16, .rw, .stroke, false, 2000, some (1, 2000)⟩, ⟨32, 16, .rw, .stroke, false, 1000, none⟩]⟩,
  ⟨"SLOW_TIME", 0x88, 0x18, 64, [
    ⟨0, 16, .rw, .stroke, false, 1000, some (16, 65535)⟩, ⟨16, 8, .rw, .stroke, false, 0, none⟩]⟩,
  ⟨"SLOW_STATUS", 0x90, 0x18, 64, [
    ⟨0, 32, .ro, .now, false, 0, none⟩, ⟨32, 16, .ro, .now, false, 0, none⟩, ⟨48, 6, .ro, .now, false, 0, none⟩,
    ⟨54, 2, .ro, .now, false, 0, none⟩, ⟨56, 8, .ro, .now, false, 0, none⟩]⟩]

/-- The registers of EXC (0x14000). -/
def rowsEXC : List RegRow := [
  ⟨"EXC_CFG", 0x80, 0x18, 16, [
    ⟨0, 7, .rw, .stroke, false, 0, some (0, 100)⟩]⟩,
  ⟨"EXC_MEAS", 0x88, 0x18, 16, [
    ⟨0, 21, .ro, .now, false, 0, none⟩, ⟨32, 32, .ro, .now, false, 0, none⟩]⟩,
  ⟨"EXC_STATUS", 0x90, 0x18, 16, [
    ⟨0, 1, .ro, .now, false, 0, none⟩, ⟨1, 1, .ro, .now, false, 0, none⟩, ⟨2, 1, .ro, .now, false, 0, none⟩,
    ⟨16, 16, .ro, .now, false, 0, none⟩]⟩]

/-- The registers of NIB (0x15000). -/
def rowsNIB : List RegRow := [
  ⟨"NIB_CORR", 0x80, 0x8, 72, [
    ⟨0, 24, .ro, .stroke, false, 0, none⟩, ⟨24, 24, .ro, .stroke, false, 0, none⟩, ⟨48, 16, .ro, .stroke, false, 0, none⟩]⟩,
  ⟨"NIB_STAT", 0x2c0, 0x8, 72, [
    ⟨0, 2, .ro, .now, false, 0, none⟩, ⟨4, 4, .ro, .now, false, 0, none⟩, ⟨8, 16, .ro, .now, false, 0, none⟩,
    ⟨24, 16, .ro, .now, false, 0, none⟩, ⟨40, 8, .ro, .now, false, 0, none⟩, ⟨52, 4, .ro, .now, false, 0, none⟩,
    ⟨56, 4, .ro, .now, false, 0, none⟩, ⟨51, 1, .ro, .now, false, 1, none⟩]⟩,
  ⟨"NIB_CTRL", 0x500, 0x8, 1, [
    ⟨0, 1, .rw, .stroke, false, 1, none⟩, ⟨1, 1, .rw, .stroke, false, 1, none⟩]⟩,
  ⟨"NIB_STATE", 0x508, 0x8, 1, [
    ⟨0, 7, .ro, .now, false, 0, none⟩, ⟨8, 7, .ro, .now, false, 0, none⟩, ⟨16, 5, .ro, .now, false, 0, none⟩,
    ⟨21, 1, .ro, .now, false, 0, none⟩, ⟨24, 3, .ro, .now, false, 0, none⟩, ⟨32, 6, .ro, .now, false, 32, none⟩,
    ⟨40, 4, .ro, .now, false, 0, none⟩, ⟨48, 16, .ro, .now, false, 0, none⟩]⟩,
  ⟨"NIB_SLOTS", 0x510, 0x8, 1, [
    ⟨0, 16, .ro, .now, false, 0, none⟩, ⟨16, 6, .ro, .now, false, 0, none⟩, ⟨32, 16, .ro, .now, false, 0, none⟩,
    ⟨48, 16, .ro, .now, false, 0, none⟩]⟩,
  ⟨"NIB_TIER", 0x518, 0x8, 1, [
    ⟨0, 2, .rw, .stroke, false, 0, none⟩, ⟨2, 2, .rw, .stroke, false, 0, none⟩, ⟨4, 2, .rw, .stroke, false, 0, none⟩,
    ⟨6, 2, .rw, .stroke, false, 0, none⟩, ⟨8, 2, .rw, .stroke, false, 0, none⟩, ⟨10, 2, .rw, .stroke, false, 0, none⟩,
    ⟨12, 2, .rw, .stroke, false, 0, none⟩, ⟨14, 2, .rw, .stroke, false, 0, none⟩, ⟨16, 2, .rw, .stroke, false, 0, none⟩,
    ⟨18, 2, .rw, .stroke, false, 0, none⟩, ⟨20, 2, .rw, .stroke, false, 0, none⟩, ⟨22, 2, .rw, .stroke, false, 0, none⟩,
    ⟨24, 2, .rw, .stroke, false, 0, none⟩, ⟨26, 2, .rw, .stroke, false, 0, none⟩, ⟨28, 2, .rw, .stroke, false, 0, none⟩,
    ⟨30, 2, .rw, .stroke, false, 0, none⟩, ⟨32, 2, .rw, .stroke, false, 0, none⟩, ⟨34, 2, .rw, .stroke, false, 0, none⟩,
    ⟨36, 2, .rw, .stroke, false, 0, none⟩, ⟨38, 2, .rw, .stroke, false, 0, none⟩, ⟨40, 2, .rw, .stroke, false, 0, none⟩,
    ⟨42, 2, .rw, .stroke, false, 0, none⟩, ⟨44, 2, .rw, .stroke, false, 0, none⟩, ⟨46, 2, .rw, .stroke, false, 0, none⟩,
    ⟨48, 2, .rw, .stroke, false, 0, none⟩, ⟨50, 2, .rw, .stroke, false, 0, none⟩, ⟨52, 2, .rw, .stroke, false, 0, none⟩,
    ⟨54, 2, .rw, .stroke, false, 0, none⟩, ⟨56, 2, .rw, .stroke, false, 0, none⟩, ⟨58, 2, .rw, .stroke, false, 0, none⟩,
    ⟨60, 2, .rw, .stroke, false, 0, none⟩, ⟨62, 2, .rw, .stroke, false, 0, none⟩]⟩,
  ⟨"NIB_SHED0", 0x520, 0x8, 1, [
    ⟨0, 5, .rw, .stroke, false, 31, none⟩, ⟨5, 5, .rw, .stroke, false, 30, none⟩, ⟨10, 5, .rw, .stroke, false, 29, none⟩,
    ⟨15, 5, .rw, .stroke, false, 28, none⟩, ⟨20, 5, .rw, .stroke, false, 27, none⟩, ⟨25, 5, .rw, .stroke, false, 26, none⟩,
    ⟨30, 5, .rw, .stroke, false, 25, none⟩, ⟨35, 5, .rw, .stroke, false, 24, none⟩, ⟨40, 5, .rw, .stroke, false, 23, none⟩,
    ⟨45, 5, .rw, .stroke, false, 22, none⟩, ⟨50, 5, .rw, .stroke, false, 21, none⟩, ⟨55, 5, .rw, .stroke, false, 20, none⟩]⟩,
  ⟨"NIB_SHED1", 0x528, 0x8, 1, [
    ⟨0, 5, .rw, .stroke, false, 19, none⟩, ⟨5, 5, .rw, .stroke, false, 18, none⟩, ⟨10, 5, .rw, .stroke, false, 17, none⟩,
    ⟨15, 5, .rw, .stroke, false, 16, none⟩, ⟨20, 5, .rw, .stroke, false, 15, none⟩, ⟨25, 5, .rw, .stroke, false, 14, none⟩,
    ⟨30, 5, .rw, .stroke, false, 13, none⟩, ⟨35, 5, .rw, .stroke, false, 12, none⟩, ⟨40, 5, .rw, .stroke, false, 11, none⟩,
    ⟨45, 5, .rw, .stroke, false, 10, none⟩, ⟨50, 5, .rw, .stroke, false, 9, none⟩, ⟨55, 5, .rw, .stroke, false, 8, none⟩]⟩,
  ⟨"NIB_SHED2", 0x530, 0x8, 1, [
    ⟨0, 5, .rw, .stroke, false, 7, none⟩, ⟨5, 5, .rw, .stroke, false, 6, none⟩, ⟨10, 5, .rw, .stroke, false, 5, none⟩,
    ⟨15, 5, .rw, .stroke, false, 4, none⟩, ⟨20, 5, .rw, .stroke, false, 3, none⟩, ⟨25, 5, .rw, .stroke, false, 2, none⟩,
    ⟨30, 5, .rw, .stroke, false, 1, none⟩, ⟨35, 5, .rw, .stroke, false, 0, none⟩]⟩,
  ⟨"NIB_DX", 0x538, 0x8, 1, [
    ⟨0, 16, .rw, .stroke, false, 65535, none⟩, ⟨16, 4, .rw, .stroke, false, 10, some (0, 10)⟩]⟩,
  ⟨"NIB_CHECK", 0x540, 0x8, 1, [
    ⟨0, 16, .rw, .stroke, false, 64, none⟩, ⟨16, 16, .rw, .stroke, false, 32, none⟩, ⟨32, 4, .rw, .stroke, false, 3, some (1, 15)⟩,
    ⟨40, 8, .rw, .stroke, false, 8, none⟩, ⟨48, 16, .rw, .stroke, false, 256, none⟩]⟩,
  ⟨"NIB_RETIRE", 0x548, 0x8, 1, [
    ⟨0, 7, .wo, .now, false, 0, none⟩, ⟨8, 2, .wo, .now, false, 0, none⟩, ⟨16, 16, .wo, .now, false, 0, none⟩]⟩,
  ⟨"NIB_SVC0", 0x550, 0x8, 1, [
    ⟨0, 64, .ro, .now, false, 0, none⟩]⟩,
  ⟨"NIB_SVC1", 0x558, 0x8, 1, [
    ⟨0, 8, .ro, .now, false, 0, none⟩]⟩,
  ⟨"NIB_LEDGER_SEL", 0x560, 0x8, 1, [
    ⟨0, 9, .rw, .now, false, 0, none⟩, ⟨16, 10, .ro, .now, false, 0, none⟩, ⟨26, 1, .ro, .now, false, 0, none⟩]⟩,
  ⟨"NIB_LEDGER", 0x568, 0x8, 1, [
    ⟨0, 64, .ro, .now, false, 0, none⟩]⟩,
  ⟨"NIB_COUNT", 0x570, 0x8, 1, [
    ⟨0, 16, .ro, .now, false, 0, none⟩, ⟨16, 8, .ro, .now, false, 0, none⟩, ⟨24, 8, .ro, .now, false, 0, none⟩,
    ⟨32, 32, .ro, .now, false, 0, none⟩]⟩,
  ⟨"NIB_ROT", 0x578, 0x8, 1, [
    ⟨0, 16, .rw, .stroke, false, 44257, some (1, 65535)⟩]⟩]

/-- The registers of TRIM (0x16000). -/
def rowsTRIM : List RegRow := [
  ⟨"TRIM_CTRL", 0x80, 0x8, 1, [
    ⟨0, 1, .w1s, .now, false, 0, none⟩, ⟨1, 1, .w1s, .now, false, 0, none⟩, ⟨2, 1, .rw, .now, false, 0, none⟩,
    ⟨3, 1, .rw, .now, false, 1, none⟩, ⟨4, 1, .rw, .now, false, 1, none⟩, ⟨8, 8, .rw, .now, false, 8, none⟩]⟩,
  ⟨"TRIM_TRIG", 0x88, 0x8, 1, [
    ⟨0, 8, .rw, .now, false, 30, none⟩, ⟨8, 6, .rw, .now, false, 63, none⟩, ⟨16, 6, .rw, .now, false, 0, none⟩,
    ⟨22, 1, .rw, .now, false, 0, none⟩]⟩,
  ⟨"TRIM_BOARD", 0x90, 0x8, 1, [
    ⟨0, 32, .rw, .now, false, 262144, none⟩]⟩,
  ⟨"TRIM_SCHED", 0x98, 0x8, 1, [
    ⟨0, 32, .rw, .now, false, 3600, none⟩, ⟨32, 16, .rw, .now, false, 60, none⟩]⟩,
  ⟨"TRIM_FE", 0xa0, 0x8, 1, [
    ⟨0, 5, .rw, .now, false, 20, some (16, 24)⟩, ⟨16, 16, .rw, .now, false, 20, none⟩, ⟨32, 16, .rw, .now, false, 1, none⟩]⟩,
  ⟨"TRIM_FEGRP", 0xa8, 0x8, 1, [
    ⟨0, 32, .rw, .now, false, 4294967295, none⟩]⟩,
  ⟨"TRIM_STATUS", 0xb0, 0x8, 1, [
    ⟨0, 3, .ro, .now, false, 0, none⟩, ⟨3, 1, .ro, .now, false, 0, none⟩, ⟨4, 3, .ro, .now, false, 0, none⟩,
    ⟨8, 24, .ro, .now, false, 256, none⟩]⟩,
  ⟨"TRIM_PROGRESS", 0xb8, 0x8, 1, [
    ⟨0, 32, .ro, .now, false, 0, none⟩, ⟨32, 32, .ro, .now, false, 0, none⟩]⟩,
  ⟨"TRIM_LAST", 0xc0, 0x8, 1, [
    ⟨0, 3, .ro, .now, false, 0, none⟩, ⟨32, 32, .ro, .now, false, 0, none⟩]⟩,
  ⟨"TRIM_TEMPREF", 0xc8, 0x8, 1, [
    ⟨0, 10, .ro, .now, false, 512, none⟩, ⟨10, 10, .ro, .now, false, 512, none⟩, ⟨20, 10, .ro, .now, false, 512, none⟩,
    ⟨30, 10, .ro, .now, false, 512, none⟩, ⟨40, 10, .ro, .now, false, 512, none⟩, ⟨50, 10, .ro, .now, false, 512, none⟩]⟩,
  ⟨"TRIM_REFS", 0xd0, 0x8, 1, [
    ⟨0, 16, .ro, .now, false, 0, none⟩, ⟨16, 16, .ro, .now, false, 0, none⟩]⟩,
  ⟨"TRIM_LIM_REF", 0xd8, 0x8, 1, [
    ⟨0, 16, .rw, .now, false, 100, none⟩, ⟨16, 16, .rw, .now, false, 2000, none⟩]⟩,
  ⟨"TRIM_LIM_NIB", 0xe0, 0x8, 1, [
    ⟨0, 16, .rw, .now, false, 8192, none⟩, ⟨16, 16, .rw, .now, false, 256, none⟩, ⟨32, 16, .rw, .now, false, 10000, none⟩,
    ⟨48, 16, .rw, .now, false, 500, none⟩]⟩,
  ⟨"TRIM_LIM_LIN", 0xe8, 0x8, 1, [
    ⟨0, 16, .rw, .now, false, 4, none⟩]⟩,
  ⟨"TRIM_LIM_FE", 0xf0, 0x8, 1, [
    ⟨0, 16, .rw, .now, false, 1000, none⟩, ⟨16, 16, .rw, .now, false, 100, none⟩, ⟨32, 16, .rw, .now, false, 5000, none⟩,
    ⟨48, 16, .rw, .now, false, 500, none⟩]⟩,
  ⟨"TRIM_LIM_EXC", 0xf8, 0x8, 1, [
    ⟨0, 16, .rw, .now, false, 10000, none⟩, ⟨16, 16, .rw, .now, false, 500, none⟩]⟩,
  ⟨"TRIM_FE_SEL", 0x100, 0x8, 1, [
    ⟨0, 10, .rw, .now, false, 0, some (0, 515)⟩, ⟨16, 2, .rw, .now, false, 0, none⟩]⟩,
  ⟨"TRIM_FE_DATA", 0x108, 0x8, 1, [
    ⟨0, 32, .ro, .stroke, false, 0, none⟩, ⟨32, 24, .ro, .stroke, false, 0, none⟩, ⟨56, 8, .ro, .now, false, 0, none⟩]⟩,
  ⟨"TRIM_W_SEL", 0x110, 0x8, 1, [
    ⟨0, 7, .rw, .now, false, 0, none⟩, ⟨8, 5, .rw, .now, false, 0, some (0, 21)⟩]⟩,
  ⟨"TRIM_W_DATA", 0x118, 0x8, 1, [
    ⟨0, 32, .ro, .stroke, false, 0, none⟩]⟩,
  ⟨"TRIM_COUNT", 0x120, 0x8, 1, [
    ⟨0, 16, .ro, .now, false, 0, none⟩, ⟨16, 16, .ro, .now, false, 0, none⟩, ⟨32, 16, .ro, .now, false, 0, none⟩,
    ⟨48, 16, .ro, .now, false, 0, none⟩]⟩,
  ⟨"TRIM_NIBFAIL0", 0x128, 0x8, 1, [
    ⟨0, 64, .ro, .now, false, 0, none⟩]⟩,
  ⟨"TRIM_NIBFAIL1", 0x130, 0x8, 1, [
    ⟨0, 8, .ro, .now, false, 0, none⟩]⟩,
  ⟨"TRIM_FEFAIL", 0x138, 0x8, 8, [
    ⟨0, 64, .ro, .now, false, 0, none⟩]⟩,
  ⟨"TRIM_FEUNM", 0x178, 0x8, 8, [
    ⟨0, 64, .ro, .now, false, 0, none⟩]⟩,
  ⟨"TRIM_LANEFAIL", 0x1b8, 0x8, 1, [
    ⟨0, 4, .ro, .now, false, 0, none⟩]⟩,
  ⟨"TRIM_HIST", 0x1c0, 0x8, 8, [
    ⟨0, 3, .ro, .now, false, 0, none⟩, ⟨4, 3, .ro, .now, false, 0, none⟩, ⟨8, 24, .ro, .now, false, 0, none⟩,
    ⟨32, 32, .ro, .now, false, 0, none⟩]⟩]

/-- The registers of FLT (0x17000). -/
def rowsFLT : List RegRow := [
  ⟨"FLT_CTRL", 0x80, 0x8, 1, [
    ⟨0, 1, .w1s, .now, false, 0, none⟩, ⟨1, 1, .rw, .now, false, 0, none⟩, ⟨2, 1, .rw, .now, false, 0, none⟩,
    ⟨8, 1, .ro, .now, false, 0, none⟩, ⟨9, 1, .w1c, .now, false, 0, none⟩, ⟨10, 1, .w1c, .now, false, 0, none⟩,
    ⟨11, 1, .w1c, .now, false, 0, none⟩, ⟨12, 1, .w1c, .now, false, 0, none⟩]⟩,
  ⟨"FLT_SYNC", 0x88, 0x8, 1, [
    ⟨0, 64, .rw, .now, false, 18446744073709551615, none⟩]⟩,
  ⟨"FLT_PHASE", 0x90, 0x8, 1, [
    ⟨0, 64, .ro, .now, false, 0, none⟩]⟩,
  ⟨"FLT_FLR_REQ", 0x98, 0x8, 1, [
    ⟨0, 10, .rw, .stroke, false, 0, none⟩, ⟨16, 10, .rw, .stroke, false, 0, none⟩, ⟨32, 6, .rw, .stroke, false, 0, none⟩,
    ⟨40, 12, .rw, .stroke, false, 0, none⟩]⟩,
  ⟨"FLT_LOAD", 0xa0, 0x8, 1, [
    ⟨0, 20, .ro, .now, false, 0, none⟩, ⟨20, 20, .ro, .now, false, 0, none⟩, ⟨40, 8, .rw, .now, false, 90, some (1, 100)⟩]⟩,
  ⟨"FLT_REFUSE", 0xa8, 0x8, 1, [
    ⟨0, 10, .ro, .now, false, 0, none⟩, ⟨12, 3, .ro, .now, false, 0, none⟩, ⟨15, 1, .ro, .now, false, 0, none⟩,
    ⟨16, 1, .ro, .now, false, 0, none⟩, ⟨32, 32, .ro, .now, false, 0, none⟩]⟩,
  ⟨"FLT_COUNT", 0xb0, 0x8, 1, [
    ⟨0, 16, .ro, .now, false, 0, none⟩, ⟨16, 16, .ro, .now, false, 0, none⟩, ⟨32, 16, .ro, .now, false, 0, none⟩,
    ⟨48, 16, .ro, .now, false, 0, none⟩]⟩,
  ⟨"FLT_SATCNT", 0xb8, 0x8, 1, [
    ⟨0, 32, .ro, .now, false, 0, none⟩, ⟨32, 16, .ro, .now, false, 0, none⟩]⟩,
  ⟨"FLT_DESC_INDEX", 0xc0, 0x8, 1, [
    ⟨0, 16, .rw, .now, false, 0, none⟩, ⟨16, 8, .rw, .now, false, 0, none⟩, ⟨24, 1, .rw, .now, false, 0, none⟩]⟩,
  ⟨"FLT_DESC_DATA_LO", 0xc8, 0x8, 1, [
    ⟨0, 64, .rw, .now, false, 0, none⟩]⟩,
  ⟨"FLT_DESC_DATA_HI", 0xd0, 0x8, 1, [
    ⟨0, 64, .rw, .now, false, 0, none⟩]⟩,
  ⟨"FLT_DESC_CTRL", 0xd8, 0x8, 1, [
    ⟨0, 2, .rw, .now, false, 0, none⟩, ⟨8, 1, .w1s, .now, false, 0, none⟩, ⟨9, 1, .ro, .now, false, 0, none⟩,
    ⟨10, 1, .w1c, .now, false, 0, none⟩]⟩,
  ⟨"FLT_ROM_INDEX", 0xe0, 0x8, 1, [
    ⟨0, 16, .rw, .now, false, 0, none⟩, ⟨16, 8, .rw, .now, false, 0, none⟩, ⟨24, 1, .rw, .now, false, 0, none⟩]⟩,
  ⟨"FLT_ROM_DATA_LO", 0xe8, 0x8, 1, [
    ⟨0, 64, .rw, .now, false, 0, none⟩]⟩,
  ⟨"FLT_ROM_DATA_HI", 0xf0, 0x8, 1, [
    ⟨0, 64, .rw, .now, false, 0, none⟩]⟩,
  ⟨"FLT_ROM_CTRL", 0xf8, 0x8, 1, [
    ⟨0, 2, .rw, .now, false, 0, none⟩, ⟨8, 1, .w1s, .now, false, 0, none⟩, ⟨9, 1, .ro, .now, false, 0, none⟩,
    ⟨10, 1, .w1c, .now, false, 0, none⟩]⟩,
  ⟨"FLT_CHAN", 0x100, 0x8, 64, [
    ⟨0, 6, .rw, .stroke, false, 0, none⟩, ⟨8, 6, .rw, .stroke, false, 0, none⟩, ⟨16, 6, .rw, .stroke, false, 0, none⟩,
    ⟨24, 6, .rw, .stroke, false, 0, none⟩, ⟨32, 6, .rw, .stroke, false, 0, none⟩, ⟨40, 6, .rw, .stroke, false, 0, none⟩,
    ⟨48, 6, .rw, .stroke, false, 0, none⟩, ⟨56, 6, .rw, .stroke, false, 0, none⟩, ⟨6, 1, .rw, .stroke, false, 0, none⟩,
    ⟨14, 1, .rw, .stroke, false, 0, none⟩, ⟨22, 1, .rw, .stroke, false, 0, none⟩, ⟨30, 1, .rw, .stroke, false, 0, none⟩,
    ⟨38, 1, .rw, .stroke, false, 0, none⟩, ⟨46, 1, .rw, .stroke, false, 0, none⟩, ⟨54, 1, .rw, .stroke, false, 0, none⟩,
    ⟨62, 1, .rw, .stroke, false, 0, none⟩]⟩,
  ⟨"FLT_DINFO", 0x300, 0x8, 64, [
    ⟨0, 24, .ro, .now, false, 0, none⟩, ⟨24, 12, .ro, .now, false, 0, none⟩, ⟨36, 28, .ro, .now, false, 0, none⟩]⟩,
  ⟨"FLT_PRIME", 0x500, 0x8, 8, [
    ⟨0, 64, .ro, .now, false, 0, none⟩]⟩,
  ⟨"FLT_FADE", 0x540, 0x8, 8, [
    ⟨0, 64, .ro, .now, false, 0, none⟩]⟩,
  ⟨"FLT_QUEUE", 0x580, 0x8, 8, [
    ⟨0, 64, .ro, .now, false, 0, none⟩]⟩,
  ⟨"FLT_FILL", 0x5c0, 0x8, 8, [
    ⟨0, 64, .ro, .now, false, 0, none⟩]⟩,
  ⟨"FLT_SAT", 0x600, 0x8, 8, [
    ⟨0, 64, .w1c, .now, false, 0, none⟩]⟩,
  ⟨"FLT_REFUSED", 0x640, 0x8, 8, [
    ⟨0, 64, .w1c, .now, false, 0, none⟩]⟩]

/-- The registers of FAST (0x18000). -/
def rowsFAST : List RegRow := [
  ⟨"FAST_CTRL", 0x80, 0x8, 1, [
    ⟨0, 1, .rw, .stroke, false, 1, none⟩]⟩,
  ⟨"FAST_CFORM", 0x88, 0x8, 1, [
    ⟨0, 2, .rw, .stroke, false, 0, none⟩, ⟨2, 2, .rw, .stroke, false, 0, none⟩, ⟨4, 2, .rw, .stroke, false, 0, none⟩,
    ⟨6, 2, .rw, .stroke, false, 0, none⟩, ⟨8, 2, .rw, .stroke, false, 0, none⟩, ⟨10, 2, .rw, .stroke, false, 0, none⟩,
    ⟨12, 2, .rw, .stroke, false, 0, none⟩, ⟨14, 2, .rw, .stroke, false, 0, none⟩, ⟨16, 2, .rw, .stroke, false, 0, none⟩,
    ⟨18, 2, .rw, .stroke, false, 0, none⟩, ⟨20, 2, .rw, .stroke, false, 0, none⟩, ⟨22, 2, .rw, .stroke, false, 0, none⟩,
    ⟨24, 2, .rw, .stroke, false, 0, none⟩, ⟨26, 2, .rw, .stroke, false, 0, none⟩, ⟨28, 2, .rw, .stroke, false, 0, none⟩,
    ⟨30, 2, .rw, .stroke, false, 0, none⟩, ⟨32, 2, .rw, .stroke, false, 0, none⟩, ⟨34, 2, .rw, .stroke, false, 0, none⟩,
    ⟨36, 2, .rw, .stroke, false, 0, none⟩, ⟨38, 2, .rw, .stroke, false, 0, none⟩, ⟨40, 2, .rw, .stroke, false, 0, none⟩,
    ⟨42, 2, .rw, .stroke, false, 0, none⟩, ⟨44, 2, .rw, .stroke, false, 0, none⟩, ⟨46, 2, .rw, .stroke, false, 0, none⟩,
    ⟨48, 2, .rw, .stroke, false, 0, none⟩, ⟨50, 2, .rw, .stroke, false, 0, none⟩, ⟨52, 2, .rw, .stroke, false, 0, none⟩,
    ⟨54, 2, .rw, .stroke, false, 0, none⟩, ⟨56, 2, .rw, .stroke, false, 0, none⟩, ⟨58, 2, .rw, .stroke, false, 0, none⟩,
    ⟨60, 2, .rw, .stroke, false, 0, none⟩, ⟨62, 2, .rw, .stroke, false, 0, none⟩]⟩,
  ⟨"FAST_PEEK_SEL", 0x90, 0x8, 1, [
    ⟨0, 10, .rw, .now, false, 0, some (0, 511)⟩, ⟨16, 1, .w1s, .now, false, 0, none⟩, ⟨17, 1, .ro, .now, false, 0, none⟩]⟩,
  ⟨"FAST_PEEK_FINE", 0x98, 0x8, 1, [
    ⟨0, 32, .ro, .now, false, 0, none⟩, ⟨32, 6, .ro, .now, false, 0, none⟩, ⟨40, 2, .ro, .now, false, 0, none⟩]⟩,
  ⟨"FAST_PEEK_COARSE", 0xa0, 0x8, 1, [
    ⟨0, 32, .ro, .now, false, 0, none⟩, ⟨32, 6, .ro, .now, false, 0, none⟩, ⟨40, 2, .ro, .now, false, 0, none⟩]⟩,
  ⟨"FAST_PEEK_STROKE", 0xa8, 0x8, 1, [
    ⟨0, 64, .ro, .now, false, 0, none⟩]⟩,
  ⟨"FAST_COUNT", 0xb0, 0x8, 1, [
    ⟨0, 32, .ro, .now, false, 0, none⟩]⟩,
  ⟨"FAST_CDELAY", 0xb8, 0x8, 1, [
    ⟨0, 8, .ro, .boot, false, 3, none⟩, ⟨8, 8, .ro, .boot, false, 3, none⟩, ⟨16, 8, .ro, .boot, false, 0, none⟩,
    ⟨24, 8, .ro, .boot, false, 1, none⟩]⟩,
  ⟨"FAST_CLAMP", 0xc0, 0x8, 8, [
    ⟨0, 64, .w1c, .now, false, 0, none⟩]⟩]

/-- The registers of TRG (0x19000). -/
def rowsTRG : List RegRow := [
  ⟨"TRG_CFG", 0x80, 0x10, 64, [
    ⟨0, 10, .rw, .stroke, false, 0, none⟩, ⟨10, 4, .rw, .stroke, false, 15, none⟩, ⟨14, 2, .rw, .stroke, false, 1, none⟩,
    ⟨16, 2, .rw, .stroke, false, 0, none⟩, ⟨18, 6, .rw, .stroke, false, 52, none⟩, ⟨24, 1, .rw, .stroke, false, 0, none⟩,
    ⟨25, 1, .rw, .stroke, false, 0, none⟩, ⟨26, 3, .rw, .stroke, false, 0, none⟩, ⟨32, 16, .rw, .stroke, false, 0, none⟩,
    ⟨48, 1, .ro, .now, false, 0, none⟩, ⟨49, 1, .ro, .now, false, 0, none⟩]⟩,
  ⟨"TRG_LEVEL", 0x88, 0x10, 64, [
    ⟨0, 32, .rw, .stroke, false, 0, none⟩, ⟨32, 31, .rw, .stroke, false, 0, none⟩]⟩,
  ⟨"TRG_CTRL", 0x480, 0x8, 1, [
    ⟨0, 1, .rw, .stroke, false, 1, none⟩]⟩,
  ⟨"TRG_ARM", 0x488, 0x8, 1, [
    ⟨0, 64, .w1s, .now, false, 0, none⟩]⟩,
  ⟨"TRG_DISARM", 0x490, 0x8, 1, [
    ⟨0, 64, .w1s, .now, false, 0, none⟩]⟩,
  ⟨"TRG_ARMED", 0x498, 0x8, 1, [
    ⟨0, 64, .ro, .now, false, 0, none⟩]⟩,
  ⟨"TRG_FIRED", 0x4a0, 0x8, 1, [
    ⟨0, 64, .w1c, .now, false, 0, none⟩]⟩,
  ⟨"TRG_PRIMED", 0x4a8, 0x8, 1, [
    ⟨0, 64, .ro, .now, false, 0, none⟩]⟩,
  ⟨"TRG_REMOTE", 0x4b0, 0x8, 1, [
    ⟨0, 1, .rw, .stroke, false, 1, none⟩, ⟨1, 1, .rw, .stroke, false, 0, none⟩, ⟨2, 3, .rw, .stroke, false, 0, none⟩]⟩,
  ⟨"TRG_COUNT", 0x4b8, 0x8, 1, [
    ⟨0, 16, .ro, .now, false, 0, none⟩, ⟨16, 16, .ro, .now, false, 0, none⟩, ⟨32, 16, .ro, .now, false, 0, none⟩,
    ⟨48, 16, .ro, .now, false, 0, none⟩]⟩,
  ⟨"TRG_FIRE", 0x4c0, 0x8, 16, [
    ⟨0, 16, .ro, .now, false, 0, none⟩, ⟨16, 16, .ro, .now, false, 0, none⟩, ⟨32, 16, .ro, .now, false, 0, none⟩,
    ⟨48, 16, .ro, .now, false, 0, none⟩]⟩,
  ⟨"TRG_SUPP", 0x540, 0x8, 16, [
    ⟨0, 16, .ro, .now, false, 0, none⟩, ⟨16, 16, .ro, .now, false, 0, none⟩, ⟨32, 16, .ro, .now, false, 0, none⟩,
    ⟨48, 16, .ro, .now, false, 0, none⟩]⟩,
  ⟨"TRG_LAST", 0x5c0, 0x8, 16, [
    ⟨0, 16, .ro, .now, false, 0, none⟩, ⟨16, 16, .ro, .now, false, 0, none⟩, ⟨32, 16, .ro, .now, false, 0, none⟩,
    ⟨48, 16, .ro, .now, false, 0, none⟩]⟩,
  ⟨"TRG_RLOG", 0x640, 0x8, 8, [
    ⟨0, 10, .ro, .now, false, 0, none⟩, ⟨10, 6, .ro, .now, false, 0, none⟩, ⟨16, 3, .ro, .now, false, 0, none⟩,
    ⟨32, 32, .ro, .now, false, 0, none⟩]⟩]

/-- The registers of CAP (0x1a000). -/
def rowsCAP : List RegRow := [
  ⟨"CAP_CTRL", 0x80, 0x8, 1, [
    ⟨0, 8, .rw, .stroke, false, 255, none⟩, ⟨8, 7, .rw, .now, false, 80, some (1, 100)⟩]⟩,
  ⟨"CAP_BUDGET", 0x88, 0x8, 1, [
    ⟨0, 6, .rw, .stroke, false, 25, some (0, 50)⟩, ⟨16, 32, .ro, .now, false, 0, none⟩]⟩,
  ⟨"CAP_USE", 0x90, 0x8, 1, [
    ⟨0, 48, .ro, .now, false, 0, none⟩]⟩,
  ⟨"CAP_RELEASE", 0x98, 0x8, 1, [
    ⟨0, 4, .rw, .now, false, 0, none⟩, ⟨8, 1, .w1s, .now, false, 0, none⟩]⟩,
  ⟨"CAP_SLOTS", 0xa0, 0x8, 1, [
    ⟨0, 16, .ro, .now, false, 65535, none⟩, ⟨16, 16, .ro, .now, false, 0, none⟩, ⟨32, 16, .ro, .now, false, 0, none⟩]⟩,
  ⟨"CAP_COUNT", 0xa8, 0x8, 1, [
    ⟨0, 16, .ro, .now, false, 0, none⟩, ⟨16, 16, .ro, .now, false, 0, none⟩, ⟨32, 16, .ro, .now, false, 0, none⟩,
    ⟨48, 16, .ro, .now, false, 0, none⟩]⟩,
  ⟨"CAP_BPS", 0xb0, 0x8, 1, [
    ⟨0, 32, .ro, .now, false, 0, none⟩]⟩,
  ⟨"CAP_LAST", 0xb8, 0x8, 1, [
    ⟨0, 4, .ro, .now, false, 0, none⟩, ⟨32, 32, .ro, .now, false, 0, none⟩]⟩,
  ⟨"CAP_WIN", 0xc0, 0x8, 8, [
    ⟨0, 32, .rw, .stroke, false, 0, none⟩, ⟨32, 32, .rw, .stroke, false, 0, none⟩]⟩,
  ⟨"CAP_REC_A", 0x100, 0x18, 16, [
    ⟨0, 2, .ro, .now, false, 0, none⟩, ⟨2, 1, .ro, .now, false, 0, none⟩, ⟨3, 1, .ro, .now, false, 0, none⟩,
    ⟨4, 1, .ro, .now, false, 0, none⟩, ⟨8, 6, .ro, .now, false, 0, none⟩, ⟨16, 10, .ro, .now, false, 0, none⟩,
    ⟨32, 2, .ro, .now, false, 0, none⟩, ⟨48, 16, .ro, .now, false, 0, none⟩]⟩,
  ⟨"CAP_REC_STROKE", 0x108, 0x18, 16, [
    ⟨0, 64, .ro, .now, false, 0, none⟩]⟩,
  ⟨"CAP_REC_GOT", 0x110, 0x18, 16, [
    ⟨0, 32, .ro, .now, false, 0, none⟩, ⟨32, 32, .ro, .now, false, 0, none⟩]⟩]

/-- The registers of DUC (0x1b000). -/
def rowsDUC : List RegRow := [
  ⟨"DUC_CTRL", 0x80, 0x8, 1, [
    ⟨0, 1, .rw, .stroke, false, 1, none⟩, ⟨16, 16, .rw, .stroke, false, 47040, none⟩, ⟨32, 16, .rw, .stroke, false, 60, none⟩,
    ⟨48, 16, .rw, .stroke, false, 256, none⟩]⟩,
  ⟨"DUC_LIMITS", 0x88, 0x8, 1, [
    ⟨0, 5, .rw, .stroke, false, 16, some (1, 16)⟩, ⟨8, 16, .rw, .stroke, false, 16, none⟩]⟩,
  ⟨"DUC_SESS_INDEX", 0x90, 0x8, 1, [
    ⟨0, 16, .rw, .now, false, 0, none⟩, ⟨16, 8, .rw, .now, false, 0, none⟩, ⟨24, 1, .rw, .now, false, 0, none⟩]⟩,
  ⟨"DUC_SESS_DATA_LO", 0x98, 0x8, 1, [
    ⟨0, 64, .rw, .now, false, 0, none⟩]⟩,
  ⟨"DUC_SESS_DATA_HI", 0xa0, 0x8, 1, [
    ⟨0, 64, .rw, .now, false, 0, none⟩]⟩,
  ⟨"DUC_SESS_CTRL", 0xa8, 0x8, 1, [
    ⟨0, 2, .rw, .now, false, 0, none⟩, ⟨8, 1, .w1s, .now, false, 0, none⟩, ⟨9, 1, .ro, .now, false, 0, none⟩,
    ⟨10, 1, .w1c, .now, false, 0, none⟩]⟩,
  ⟨"DUC_KEY_INDEX", 0xb0, 0x8, 1, [
    ⟨0, 16, .rw, .now, false, 0, none⟩, ⟨16, 8, .rw, .now, false, 0, none⟩, ⟨24, 1, .rw, .now, false, 0, none⟩]⟩,
  ⟨"DUC_KEY_DATA_LO", 0xb8, 0x8, 1, [
    ⟨0, 64, .rw, .now, false, 0, none⟩]⟩,
  ⟨"DUC_KEY_DATA_HI", 0xc0, 0x8, 1, [
    ⟨0, 64, .rw, .now, false, 0, none⟩]⟩,
  ⟨"DUC_KEY_CTRL", 0xc8, 0x8, 1, [
    ⟨0, 2, .rw, .now, false, 0, none⟩, ⟨8, 1, .w1s, .now, false, 0, none⟩, ⟨9, 1, .ro, .now, false, 0, none⟩,
    ⟨10, 1, .w1c, .now, false, 0, none⟩]⟩,
  ⟨"DUC_REPLAY_STATE", 0xd0, 0x8, 1, [
    ⟨0, 5, .ro, .now, false, 0, none⟩, ⟨16, 10, .ro, .now, false, 0, none⟩]⟩,
  ⟨"DUC_COUNT_CTRL", 0xd8, 0x8, 1, [
    ⟨0, 16, .ro, .now, false, 0, none⟩, ⟨16, 16, .ro, .now, false, 0, none⟩, ⟨32, 16, .ro, .now, false, 0, none⟩,
    ⟨48, 16, .ro, .now, false, 0, none⟩]⟩,
  ⟨"DUC_COUNT_REPLAY", 0xe0, 0x8, 1, [
    ⟨0, 16, .ro, .now, false, 0, none⟩, ⟨16, 16, .ro, .now, false, 0, none⟩, ⟨32, 16, .ro, .now, false, 0, none⟩,
    ⟨48, 16, .ro, .now, false, 0, none⟩]⟩,
  ⟨"DUC_GAP", 0xe8, 0x8, 1, [
    ⟨0, 32, .ro, .now, false, 0, none⟩, ⟨32, 32, .ro, .now, false, 0, none⟩]⟩,
  ⟨"DUC_REFUSE", 0xf0, 0x8, 1, [
    ⟨0, 4, .ro, .now, false, 0, none⟩, ⟨8, 8, .ro, .now, false, 0, none⟩, ⟨16, 3, .ro, .now, false, 0, none⟩,
    ⟨32, 32, .ro, .now, false, 0, none⟩]⟩,
  ⟨"DUC_STAT_SEL", 0xf8, 0x8, 1, [
    ⟨0, 8, .rw, .now, false, 0, none⟩, ⟨8, 1, .rw, .now, false, 0, none⟩]⟩,
  ⟨"DUC_STAT_FRAMES", 0x100, 0x8, 1, [
    ⟨0, 32, .ro, .now, false, 0, none⟩, ⟨32, 32, .ro, .now, false, 0, none⟩]⟩,
  ⟨"DUC_STAT_LAG", 0x108, 0x8, 1, [
    ⟨0, 32, .ro, .now, false, 0, none⟩, ⟨32, 16, .ro, .now, false, 0, none⟩, ⟨48, 16, .ro, .now, false, 0, none⟩]⟩,
  ⟨"DUC_ON", 0x110, 0x8, 4, [
    ⟨0, 64, .ro, .now, false, 0, none⟩]⟩,
  ⟨"DUC_LAG", 0x130, 0x8, 4, [
    ⟨0, 64, .ro, .now, false, 0, none⟩]⟩,
  ⟨"DUC_BOUND", 0x150, 0x8, 4, [
    ⟨0, 64, .ro, .now, false, 0, none⟩]⟩,
  ⟨"DUC_VLOG", 0x170, 0x8, 50, [
    ⟨0, 64, .ro, .now, false, 0, none⟩]⟩]

/-- The registers of ETH (0x1c000). -/
def rowsETH : List RegRow := [
  ⟨"ETH_MAC", 0x80, 0x8, 1, [
    ⟨0, 48, .rw, .stroke, true, 0, none⟩]⟩,
  ⟨"ETH_IP4", 0x88, 0x8, 1, [
    ⟨0, 32, .rw, .stroke, false, 0, none⟩, ⟨32, 6, .rw, .stroke, false, 0, none⟩]⟩,
  ⟨"ETH_GW4", 0x90, 0x8, 1, [
    ⟨0, 32, .rw, .stroke, false, 0, none⟩]⟩,
  ⟨"ETH_IP6_HI", 0x98, 0x8, 1, [
    ⟨0, 64, .rw, .stroke, false, 0, none⟩]⟩,
  ⟨"ETH_IP6_LO", 0xa0, 0x8, 1, [
    ⟨0, 64, .rw, .stroke, false, 0, none⟩]⟩,
  ⟨"ETH_IP6_CFG", 0xa8, 0x8, 1, [
    ⟨0, 7, .rw, .stroke, false, 0, none⟩, ⟨8, 1, .rw, .stroke, false, 0, none⟩]⟩,
  ⟨"ETH_GW6", 0xb0, 0x8, 1, [
    ⟨0, 48, .rw, .stroke, false, 0, none⟩]⟩,
  ⟨"ETH_CTRL", 0xb8, 0x8, 1, [
    ⟨0, 1, .rw, .stroke, false, 1, none⟩, ⟨1, 7, .rw, .stroke, false, 90, none⟩, ⟨8, 8, .rw, .stroke, false, 1, none⟩,
    ⟨16, 16, .rw, .stroke, false, 300, none⟩]⟩,
  ⟨"ETH_PCFG", 0xc0, 0xc0, 4, [
    ⟨0, 1, .rw, .stroke, false, 1, none⟩, ⟨1, 1, .rw, .stroke, false, 0, none⟩, ⟨2, 2, .rw, .stroke, false, 0, none⟩,
    ⟨4, 1, .rw, .stroke, false, 1, none⟩, ⟨6, 2, .rw, .stroke, false, 0, none⟩]⟩,
  ⟨"ETH_PSTAT", 0xc8, 0xc0, 4, [
    ⟨0, 2, .ro, .now, false, 0, none⟩, ⟨2, 1, .ro, .now, false, 0, none⟩, ⟨3, 1, .ro, .now, false, 0, none⟩,
    ⟨4, 1, .ro, .now, false, 0, none⟩]⟩,
  ⟨"ETH_LOAD", 0xd0, 0xc0, 4, [
    ⟨0, 20, .ro, .now, false, 0, none⟩, ⟨20, 20, .ro, .now, false, 0, none⟩]⟩,
  ⟨"ETH_TXF", 0xd8, 0xc0, 4, [
    ⟨0, 64, .ro, .now, false, 0, none⟩]⟩,
  ⟨"ETH_RXF", 0xe0, 0xc0, 4, [
    ⟨0, 64, .ro, .now, false, 0, none⟩]⟩,
  ⟨"ETH_TXB", 0xe8, 0xc0, 4, [
    ⟨0, 64, .ro, .now, false, 0, none⟩]⟩,
  ⟨"ETH_RXB", 0xf0, 0xc0, 4, [
    ⟨0, 64, .ro, .now, false, 0, none⟩]⟩,
  ⟨"ETH_RXERR", 0xf8, 0xc0, 4, [
    ⟨0, 16, .ro, .now, false, 0, none⟩, ⟨16, 16, .ro, .now, false, 0, none⟩, ⟨32, 16, .ro, .now, false, 0, none⟩,
    ⟨48, 16, .ro, .now, false, 0, none⟩]⟩,
  ⟨"ETH_RXDROP", 0x100, 0xc0, 4, [
    ⟨0, 32, .ro, .now, false, 0, none⟩, ⟨32, 32, .ro, .now, false, 0, none⟩]⟩,
  ⟨"ETH_BRIDGE", 0x108, 0xc0, 4, [
    ⟨0, 32, .ro, .now, false, 0, none⟩, ⟨32, 32, .ro, .now, false, 0, none⟩]⟩,
  ⟨"ETH_PREEMPT", 0x110, 0xc0, 4, [
    ⟨0, 32, .ro, .now, false, 0, none⟩, ⟨32, 16, .ro, .now, false, 0, none⟩, ⟨48, 16, .ro, .now, false, 0, none⟩]⟩,
  ⟨"ETH_FEC", 0x118, 0xc0, 4, [
    ⟨0, 32, .ro, .now, false, 0, none⟩, ⟨32, 32, .ro, .now, false, 0, none⟩]⟩,
  ⟨"ETH_PCS", 0x120, 0xc0, 4, [
    ⟨0, 16, .ro, .now, false, 0, none⟩, ⟨16, 16, .ro, .now, false, 0, none⟩, ⟨32, 32, .ro, .now, false, 0, none⟩]⟩,
  ⟨"ETH_COARSE", 0x128, 0xc0, 4, [
    ⟨0, 32, .ro, .now, false, 0, none⟩, ⟨32, 32, .ro, .now, false, 0, none⟩]⟩,
  ⟨"ETH_FALLBACK", 0x130, 0xc0, 4, [
    ⟨0, 32, .ro, .now, false, 0, none⟩, ⟨32, 32, .ro, .now, false, 0, none⟩]⟩,
  ⟨"ETH_ARP", 0x138, 0xc0, 4, [
    ⟨0, 16, .ro, .now, false, 0, none⟩, ⟨16, 16, .ro, .now, false, 0, none⟩, ⟨32, 16, .ro, .now, false, 0, none⟩,
    ⟨48, 16, .ro, .now, false, 0, none⟩]⟩,
  ⟨"ETH_ND", 0x140, 0xc0, 4, [
    ⟨0, 16, .ro, .now, false, 0, none⟩, ⟨16, 16, .ro, .now, false, 0, none⟩, ⟨32, 16, .ro, .now, false, 0, none⟩,
    ⟨48, 16, .ro, .now, false, 0, none⟩]⟩,
  ⟨"ETH_IPERR", 0x148, 0xc0, 4, [
    ⟨0, 16, .ro, .now, false, 0, none⟩, ⟨16, 16, .ro, .now, false, 0, none⟩, ⟨32, 16, .ro, .now, false, 0, none⟩]⟩,
  ⟨"ETH_TXHOLD", 0x150, 0xc0, 4, [
    ⟨0, 32, .ro, .now, false, 0, none⟩, ⟨32, 32, .ro, .now, false, 0, none⟩]⟩,
  ⟨"ETH_LINKS", 0x158, 0xc0, 4, [
    ⟨0, 16, .ro, .now, false, 0, none⟩, ⟨16, 16, .ro, .now, false, 0, none⟩, ⟨32, 32, .ro, .now, false, 0, none⟩]⟩,
  ⟨"ETH_TXDROP", 0x160, 0xc0, 4, [
    ⟨0, 32, .ro, .now, false, 0, none⟩, ⟨32, 32, .ro, .now, false, 0, none⟩]⟩,
  ⟨"ETH_RXOWN", 0x168, 0xc0, 4, [
    ⟨0, 32, .ro, .now, false, 0, none⟩, ⟨32, 32, .ro, .now, false, 0, none⟩]⟩,
  ⟨"ETH_RXVLAN", 0x170, 0xc0, 4, [
    ⟨0, 32, .ro, .now, false, 0, none⟩, ⟨32, 32, .ro, .now, false, 0, none⟩]⟩,
  ⟨"ETH_MTU", 0x178, 0xc0, 4, [
    ⟨0, 14, .rw, .stroke, false, 9216, some (1518, 9216)⟩]⟩,
  ⟨"ETH_VLOG", 0x3c0, 0x8, 24, [
    ⟨0, 64, .ro, .now, false, 0, none⟩]⟩]

/-- The registers of QUE (0x1d000). -/
def rowsQUE : List RegRow := [
  ⟨"QUE_q_DATA", 0x80, 0x40, 7, [
    ⟨0, 64, .ro, .now, false, 0, none⟩]⟩,
  ⟨"QUE_q_DATA_END", 0x88, 0x40, 7, [
    ⟨0, 64, .ro, .now, false, 0, none⟩]⟩,
  ⟨"QUE_q_TAG", 0x90, 0x40, 7, [
    ⟨0, 1, .ro, .now, false, 0, none⟩, ⟨1, 1, .ro, .now, false, 0, none⟩, ⟨2, 1, .ro, .now, false, 0, none⟩,
    ⟨3, 1, .ro, .now, false, 0, none⟩, ⟨4, 1, .ro, .now, false, 0, none⟩, ⟨5, 1, .ro, .now, false, 0, none⟩,
    ⟨16, 8, .ro, .now, false, 0, none⟩]⟩,
  ⟨"QUE_0_LEVEL", 0x98, 0x40, 1, [
    ⟨0, 16, .ro, .now, false, 0, none⟩, ⟨16, 16, .ro, .now, false, 0, none⟩, ⟨32, 16, .ro, .now, false, 0, none⟩,
    ⟨48, 16, .ro, .now, false, 256, none⟩]⟩,
  ⟨"QUE_1_LEVEL", 0xd8, 0x40, 1, [
    ⟨0, 16, .ro, .now, false, 0, none⟩, ⟨16, 16, .ro, .now, false, 0, none⟩, ⟨32, 16, .ro, .now, false, 0, none⟩,
    ⟨48, 16, .ro, .now, false, 256, none⟩]⟩,
  ⟨"QUE_2_LEVEL", 0x118, 0x40, 1, [
    ⟨0, 16, .ro, .now, false, 0, none⟩, ⟨16, 16, .ro, .now, false, 0, none⟩, ⟨32, 16, .ro, .now, false, 0, none⟩,
    ⟨48, 16, .ro, .now, false, 512, none⟩]⟩,
  ⟨"QUE_3_LEVEL", 0x158, 0x40, 1, [
    ⟨0, 16, .ro, .now, false, 0, none⟩, ⟨16, 16, .ro, .now, false, 0, none⟩, ⟨32, 16, .ro, .now, false, 0, none⟩,
    ⟨48, 16, .ro, .now, false, 1024, none⟩]⟩,
  ⟨"QUE_4_LEVEL", 0x198, 0x40, 1, [
    ⟨0, 16, .ro, .now, false, 0, none⟩, ⟨16, 16, .ro, .now, false, 0, none⟩, ⟨32, 16, .ro, .now, false, 0, none⟩,
    ⟨48, 16, .ro, .now, false, 1024, none⟩]⟩,
  ⟨"QUE_5_LEVEL", 0x1d8, 0x40, 1, [
    ⟨0, 16, .ro, .now, false, 0, none⟩, ⟨16, 16, .ro, .now, false, 0, none⟩, ⟨32, 16, .ro, .now, false, 0, none⟩,
    ⟨48, 16, .ro, .now, false, 256, none⟩]⟩,
  ⟨"QUE_6_LEVEL", 0x218, 0x40, 1, [
    ⟨0, 16, .ro, .now, false, 0, none⟩, ⟨16, 16, .ro, .now, false, 0, none⟩, ⟨32, 16, .ro, .now, false, 0, none⟩,
    ⟨48, 16, .ro, .now, false, 256, none⟩]⟩,
  ⟨"QUE_q_THR", 0xa0, 0x40, 7, [
    ⟨0, 16, .rw, .now, false, 0, none⟩]⟩,
  ⟨"QUE_q_CTRL", 0xa8, 0x40, 7, [
    ⟨0, 1, .w1s, .now, false, 0, none⟩, ⟨1, 1, .ro, .now, false, 0, none⟩, ⟨2, 1, .ro, .now, false, 0, none⟩]⟩,
  ⟨"QUE_q_COUNT", 0xb0, 0x40, 7, [
    ⟨0, 32, .ro, .now, false, 0, none⟩, ⟨32, 16, .ro, .now, false, 0, none⟩, ⟨48, 16, .ro, .now, false, 0, none⟩]⟩,
  ⟨"QUE_q_COUNT2", 0xb8, 0x40, 7, [
    ⟨0, 16, .ro, .now, false, 0, none⟩, ⟨16, 16, .ro, .now, false, 0, none⟩, ⟨32, 32, .ro, .now, false, 0, none⟩]⟩,
  ⟨"QUE_CTRL", 0x240, 0x8, 1, [
    ⟨0, 7, .w1s, .now, false, 0, none⟩]⟩,
  ⟨"QUE_SUMMARY", 0x248, 0x8, 1, [
    ⟨0, 7, .ro, .now, false, 0, none⟩, ⟨8, 7, .ro, .now, false, 0, none⟩, ⟨16, 7, .ro, .now, false, 0, none⟩]⟩,
  ⟨"QUE_INT", 0x250, 0x8, 14, [
    ⟨0, 16, .ro, .now, false, 0, none⟩, ⟨16, 32, .ro, .now, false, 0, none⟩]⟩]

/-- The registers of INKW (0x1e000). -/
def rowsINKW : List RegRow := [
  ⟨"INKW_CFG", 0x80, 0x8, 1, [
    ⟨0, 2, .ro, .boot, false, 0, none⟩, ⟨2, 1, .ro, .boot, false, 0, none⟩, ⟨3, 1, .ro, .boot, false, 0, none⟩,
    ⟨4, 1, .ro, .boot, false, 0, none⟩, ⟨5, 4, .ro, .boot, false, 0, none⟩, ⟨9, 2, .ro, .boot, false, 0, none⟩,
    ⟨11, 1, .ro, .boot, false, 0, none⟩]⟩,
  ⟨"INKW_STATE", 0x88, 0x8, 1, [
    ⟨0, 4, .ro, .now, false, 0, none⟩, ⟨4, 4, .ro, .now, false, 0, none⟩, ⟨8, 1, .ro, .now, false, 0, none⟩,
    ⟨16, 25, .ro, .now, false, 0, none⟩]⟩,
  ⟨"INKW_MIRROR", 0x90, 0x8, 1, [
    ⟨0, 2, .rw, .stroke, false, 0, none⟩, ⟨16, 16, .rw, .stroke, false, 2000, none⟩]⟩,
  ⟨"INKW_REFRESH", 0x98, 0x8, 1, [
    ⟨0, 2, .rw, .stroke, false, 0, none⟩, ⟨2, 1, .rw, .stroke, false, 1, none⟩, ⟨8, 8, .rw, .stroke, false, 85, none⟩]⟩,
  ⟨"INKW_PWR", 0xa0, 0x8, 1, [
    ⟨0, 1, .rw, .stroke, false, 1, none⟩, ⟨4, 12, .rw, .stroke, false, 64, none⟩, ⟨16, 1, .rw, .stroke, false, 0, none⟩,
    ⟨17, 10, .rw, .stroke, false, 64, none⟩, ⟨32, 16, .rw, .stroke, false, 100, none⟩, ⟨48, 16, .rw, .stroke, false, 512, none⟩]⟩,
  ⟨"INKW_RH", 0xa8, 0x8, 1, [
    ⟨0, 16, .rw, .stroke, false, 8192, none⟩, ⟨16, 16, .rw, .stroke, false, 500, none⟩, ⟨32, 2, .rw, .stroke, false, 2, some (1, 2)⟩]⟩,
  ⟨"INKW_RH_STAT", 0xb0, 0x8, 1, [
    ⟨0, 8, .ro, .now, false, 0, none⟩, ⟨32, 32, .ro, .now, false, 0, none⟩]⟩,
  ⟨"INKW_RD", 0xb8, 0x8, 1, [
    ⟨0, 16, .rw, .stroke, false, 4000, none⟩]⟩,
  ⟨"INKW_SCRUB", 0xc0, 0x8, 1, [
    ⟨0, 8, .rw, .stroke, false, 24, none⟩, ⟨8, 1, .rw, .stroke, false, 1, none⟩, ⟨16, 8, .rw, .stroke, false, 4, none⟩]⟩,
  ⟨"INKW_RETRAIN", 0xc8, 0x8, 1, [
    ⟨0, 32, .rw, .stroke, false, 3600, none⟩, ⟨32, 8, .rw, .stroke, false, 10, none⟩, ⟨40, 8, .rw, .stroke, false, 8, none⟩,
    ⟨48, 8, .rw, .stroke, false, 60, none⟩, ⟨56, 8, .rw, .stroke, false, 16, none⟩]⟩,
  ⟨"INKW_CTRL", 0xd0, 0x8, 1, [
    ⟨0, 1, .w1s, .now, false, 0, none⟩, ⟨1, 1, .w1s, .now, false, 0, none⟩, ⟨2, 1, .rw, .now, false, 0, none⟩,
    ⟨3, 1, .rw, .now, false, 0, none⟩, ⟨4, 1, .rw, .stroke, false, 0, none⟩, ⟨16, 16, .rw, .stroke, false, 16, none⟩]⟩,
  ⟨"INKW_FREEZE", 0xd8, 0x8, 1, [
    ⟨0, 2, .rw, .now, false, 0, none⟩, ⟨2, 1, .w1s, .now, false, 0, none⟩, ⟨16, 16, .rw, .stroke, false, 600, none⟩]⟩,
  ⟨"INKW_LOSS", 0xe0, 0x8, 1, [
    ⟨0, 32, .ro, .now, false, 0, none⟩, ⟨32, 16, .ro, .now, false, 0, none⟩]⟩,
  ⟨"INKW_LOSS_LAST", 0xe8, 0x8, 1, [
    ⟨0, 64, .ro, .now, false, 0, none⟩]⟩,
  ⟨"INKW_WIN", 0xf0, 0x8, 1, [
    ⟨26, 22, .rw, .now, false, 0, none⟩, ⟨48, 2, .rw, .now, false, 0, none⟩, ⟨50, 1, .rw, .now, false, 0, none⟩]⟩,
  ⟨"INKW_SRWAIT", 0xf8, 0x8, 1, [
    ⟨0, 32, .ro, .now, false, 0, none⟩, ⟨32, 16, .ro, .now, false, 0, none⟩]⟩,
  ⟨"INKW_CHST", 0x100, 0x80, 2, [
    ⟨0, 4, .ro, .now, false, 0, none⟩, ⟨32, 32, .ro, .now, false, 0, none⟩]⟩,
  ⟨"INKW_CE", 0x108, 0x80, 2, [
    ⟨0, 32, .ro, .now, false, 0, none⟩, ⟨32, 32, .ro, .now, false, 0, none⟩]⟩,
  ⟨"INKW_UE", 0x110, 0x80, 2, [
    ⟨0, 16, .ro, .now, false, 0, none⟩, ⟨16, 16, .ro, .now, false, 0, none⟩, ⟨32, 32, .ro, .now, false, 0, none⟩]⟩,
  ⟨"INKW_LINKERR", 0x118, 0x80, 2, [
    ⟨0, 32, .ro, .now, false, 0, none⟩, ⟨32, 32, .ro, .now, false, 0, none⟩]⟩,
  ⟨"INKW_TRAIN", 0x120, 0x80, 2, [
    ⟨0, 2, .ro, .now, false, 0, none⟩, ⟨16, 16, .ro, .now, false, 0, none⟩, ⟨32, 32, .ro, .now, false, 0, none⟩]⟩,
  ⟨"INKW_TRAIN_EYE", 0x128, 0x80, 2, [
    ⟨0, 16, .ro, .now, false, 0, none⟩, ⟨16, 16, .ro, .now, false, 0, none⟩, ⟨32, 8, .ro, .now, false, 0, none⟩]⟩,
  ⟨"INKW_PPR", 0x130, 0x80, 2, [
    ⟨0, 8, .ro, .now, false, 0, none⟩, ⟨8, 8, .ro, .now, false, 0, none⟩, ⟨16, 8, .ro, .now, false, 0, none⟩,
    ⟨32, 16, .ro, .now, false, 0, none⟩]⟩,
  ⟨"INKW_REF", 0x138, 0x80, 2, [
    ⟨0, 32, .ro, .now, false, 0, none⟩, ⟨36, 1, .ro, .now, false, 0, none⟩, ⟨37, 2, .ro, .now, false, 0, none⟩]⟩,
  ⟨"INKW_RESID", 0x140, 0x80, 2, [
    ⟨0, 20, .ro, .now, false, 0, none⟩, ⟨20, 20, .ro, .now, false, 0, none⟩, ⟨40, 24, .ro, .now, false, 0, none⟩]⟩,
  ⟨"INKW_BW", 0x148, 0x80, 2, [
    ⟨0, 16, .ro, .now, false, 0, none⟩, ⟨16, 16, .ro, .now, false, 0, none⟩, ⟨32, 16, .ro, .now, false, 0, none⟩]⟩,
  ⟨"INKW_CATCHUP", 0x150, 0x80, 2, [
    ⟨0, 32, .ro, .now, false, 0, none⟩, ⟨32, 32, .ro, .now, false, 0, none⟩]⟩,
  ⟨"INKW_SCRUBST", 0x158, 0x80, 2, [
    ⟨0, 16, .ro, .now, false, 0, none⟩, ⟨16, 32, .ro, .now, false, 0, none⟩]⟩,
  ⟨"INKW_RTFAIL", 0x160, 0x80, 2, [
    ⟨0, 8, .ro, .now, false, 0, none⟩, ⟨16, 16, .ro, .now, false, 0, none⟩, ⟨32, 32, .ro, .now, false, 0, none⟩]⟩,
  ⟨"INKW_CHRET", 0x168, 0x80, 2, [
    ⟨0, 4, .ro, .now, false, 0, none⟩, ⟨4, 1, .ro, .now, false, 0, none⟩, ⟨32, 32, .ro, .now, false, 0, none⟩]⟩,
  ⟨"INKW_DTEMP", 0x170, 0x80, 2, [
    ⟨0, 2, .ro, .now, false, 0, none⟩, ⟨2, 2, .ro, .now, false, 0, none⟩, ⟨8, 8, .ro, .now, false, 0, none⟩]⟩,
  ⟨"INKW_THROTTLE", 0x178, 0x80, 2, [
    ⟨0, 32, .ro, .now, false, 0, none⟩]⟩,
  ⟨"INKW_FRZ0", 0x200, 0x8, 1, [
    ⟨0, 1, .ro, .now, false, 0, none⟩, ⟨1, 1, .ro, .now, false, 0, none⟩, ⟨2, 4, .ro, .now, false, 0, none⟩,
    ⟨6, 1, .ro, .now, false, 0, none⟩, ⟨7, 2, .ro, .now, false, 0, none⟩, ⟨9, 2, .ro, .now, false, 0, none⟩,
    ⟨11, 18, .ro, .now, false, 0, none⟩, ⟨29, 10, .ro, .now, false, 0, none⟩, ⟨39, 3, .ro, .now, false, 0, none⟩]⟩,
  ⟨"INKW_FRZ1", 0x208, 0x8, 1, [
    ⟨0, 64, .ro, .now, false, 0, none⟩]⟩,
  ⟨"INKW_FRZ2", 0x210, 0x8, 1, [
    ⟨0, 32, .ro, .now, false, 0, none⟩, ⟨32, 30, .ro, .now, false, 0, none⟩]⟩,
  ⟨"INKW_FRZ3", 0x218, 0x8, 1, [
    ⟨0, 32, .ro, .now, false, 0, none⟩, ⟨32, 5, .ro, .now, false, 0, none⟩]⟩,
  ⟨"INKW_FRZ4", 0x220, 0x8, 1, [
    ⟨0, 36, .ro, .now, false, 0, none⟩]⟩,
  ⟨"INKW_FRZ5", 0x228, 0x8, 1, [
    ⟨0, 16, .ro, .now, false, 0, none⟩, ⟨16, 32, .ro, .now, false, 0, none⟩]⟩,
  ⟨"INKW_RCFG0", 0x230, 0x20, 1, [
    ⟨0, 1, .rw, .stroke, false, 1, none⟩, ⟨1, 7, .rw, .stroke, false, 1, none⟩, ⟨8, 8, .rw, .stroke, false, 0, none⟩,
    ⟨32, 32, .ro, .now, false, 0, none⟩]⟩,
  ⟨"INKW_RCFG", 0x250, 0x20, 7, [
    ⟨0, 1, .rw, .stroke, false, 0, none⟩, ⟨1, 7, .rw, .stroke, false, 0, none⟩, ⟨8, 8, .rw, .stroke, false, 0, none⟩,
    ⟨32, 32, .ro, .now, false, 0, none⟩]⟩,
  ⟨"INKW_RSIZE", 0x238, 0x20, 8, [
    ⟨0, 48, .ro, .now, false, 0, none⟩, ⟨48, 16, .ro, .now, false, 0, none⟩]⟩,
  ⟨"INKW_ROLD", 0x240, 0x20, 8, [
    ⟨0, 64, .ro, .now, false, 0, none⟩]⟩,
  ⟨"INKW_RNEW", 0x248, 0x20, 8, [
    ⟨0, 64, .ro, .now, false, 0, none⟩]⟩,
  ⟨"INKW_RSEL_INDEX", 0x330, 0x8, 1, [
    ⟨0, 16, .rw, .now, false, 0, none⟩, ⟨16, 8, .rw, .now, false, 0, none⟩, ⟨24, 1, .rw, .now, false, 0, none⟩]⟩,
  ⟨"INKW_RSEL_DATA_LO", 0x338, 0x8, 1, [
    ⟨0, 64, .rw, .now, false, 0, none⟩]⟩,
  ⟨"INKW_RSEL_DATA_HI", 0x340, 0x8, 1, [
    ⟨0, 64, .rw, .now, false, 0, none⟩]⟩,
  ⟨"INKW_RSEL_CTRL", 0x348, 0x8, 1, [
    ⟨0, 2, .rw, .now, false, 0, none⟩, ⟨8, 1, .w1s, .now, false, 0, none⟩, ⟨9, 1, .ro, .now, false, 0, none⟩,
    ⟨10, 1, .w1c, .now, false, 0, none⟩]⟩,
  ⟨"INKW_ROWLOG", 0x350, 0x8, 28, [
    ⟨0, 1, .ro, .now, false, 0, none⟩, ⟨1, 1, .ro, .now, false, 0, none⟩, ⟨2, 2, .ro, .now, false, 0, none⟩,
    ⟨4, 2, .ro, .now, false, 0, none⟩, ⟨6, 18, .ro, .now, false, 0, none⟩, ⟨24, 4, .ro, .now, false, 0, none⟩,
    ⟨28, 3, .ro, .now, false, 0, none⟩, ⟨32, 32, .ro, .now, false, 0, none⟩]⟩,
  ⟨"INKW_HPPR", 0x430, 0x8, 8, [
    ⟨0, 64, .ro, .boot, false, 0, none⟩]⟩,
  ⟨"INKW_RCHK", 0x470, 0x8, 1, [
    ⟨0, 4, .ro, .now, false, 0, none⟩, ⟨4, 1, .ro, .now, false, 0, none⟩, ⟨5, 3, .ro, .now, false, 0, none⟩,
    ⟨32, 32, .ro, .now, false, 0, none⟩]⟩,
  ⟨"INKW_COUNT", 0x478, 0x8, 1, [
    ⟨0, 16, .ro, .now, false, 0, none⟩, ⟨16, 16, .ro, .now, false, 0, none⟩, ⟨32, 16, .ro, .now, false, 0, none⟩,
    ⟨48, 16, .ro, .now, false, 0, none⟩]⟩]

/-- The registers of DMA (0x1f000). -/
def rowsDMA : List RegRow := [
  ⟨"DMA_CTRL", 0x80, 0x8, 1, [
    ⟨0, 1, .rw, .now, false, 1, none⟩, ⟨1, 1, .w1s, .now, false, 0, none⟩, ⟨2, 1, .rw, .now, false, 0, none⟩,
    ⟨16, 16, .rw, .now, false, 100, none⟩]⟩,
  ⟨"DMA_STATUS", 0x88, 0x8, 1, [
    ⟨0, 2, .ro, .now, false, 0, none⟩, ⟨2, 2, .ro, .now, false, 0, none⟩, ⟨4, 2, .ro, .now, false, 0, none⟩,
    ⟨8, 1, .ro, .now, false, 0, none⟩, ⟨9, 1, .ro, .now, false, 0, none⟩]⟩,
  ⟨"DMA_RESUME", 0x90, 0x8, 1, [
    ⟨0, 2, .rw, .now, false, 0, none⟩, ⟨2, 2, .rw, .now, false, 0, none⟩, ⟨8, 1, .w1s, .now, false, 0, none⟩,
    ⟨16, 16, .rw, .now, false, 0, none⟩]⟩,
  ⟨"DMA_PARK", 0x98, 0x8, 1, [
    ⟨0, 16, .ro, .now, false, 0, none⟩, ⟨16, 16, .ro, .now, false, 0, none⟩, ⟨32, 16, .ro, .now, false, 0, none⟩]⟩,
  ⟨"DMA_RING_INDEX", 0xa0, 0x8, 1, [
    ⟨0, 16, .rw, .now, false, 0, none⟩, ⟨16, 8, .rw, .now, false, 0, none⟩, ⟨24, 1, .rw, .now, false, 0, none⟩]⟩,
  ⟨"DMA_RING_DATA_LO", 0xa8, 0x8, 1, [
    ⟨0, 64, .rw, .now, false, 0, none⟩]⟩,
  ⟨"DMA_RING_DATA_HI", 0xb0, 0x8, 1, [
    ⟨0, 64, .rw, .now, false, 0, none⟩]⟩,
  ⟨"DMA_RING_CTRL", 0xb8, 0x8, 1, [
    ⟨0, 2, .rw, .now, false, 0, none⟩, ⟨8, 1, .w1s, .now, false, 0, none⟩, ⟨9, 1, .ro, .now, false, 0, none⟩,
    ⟨10, 1, .w1c, .now, false, 0, none⟩]⟩,
  ⟨"DMA_DONE", 0xc0, 0x8, 1, [
    ⟨0, 32, .w1c, .now, false, 0, none⟩]⟩,
  ⟨"DMA_COUNT0", 0xc8, 0x8, 1, [
    ⟨0, 32, .ro, .now, false, 0, none⟩, ⟨32, 32, .ro, .now, false, 0, none⟩]⟩,
  ⟨"DMA_COUNT1", 0xd0, 0x8, 1, [
    ⟨0, 32, .ro, .now, false, 0, none⟩, ⟨32, 16, .ro, .now, false, 0, none⟩, ⟨48, 16, .ro, .now, false, 0, none⟩]⟩,
  ⟨"DMA_IMG_ADDR", 0xd8, 0x8, 1, [
    ⟨0, 64, .rw, .now, false, 0, none⟩]⟩,
  ⟨"DMA_IMG_CTRL", 0xe0, 0x8, 1, [
    ⟨0, 24, .rw, .now, false, 0, none⟩, ⟨32, 1, .w1s, .now, false, 0, none⟩, ⟨33, 1, .w1s, .now, false, 0, none⟩,
    ⟨34, 2, .ro, .now, false, 0, none⟩, ⟨36, 1, .ro, .now, false, 0, none⟩]⟩,
  ⟨"DMA_LINK", 0xe8, 0x8, 1, [
    ⟨0, 32, .ro, .now, false, 0, none⟩, ⟨32, 16, .ro, .now, false, 0, none⟩, ⟨48, 16, .ro, .now, false, 0, none⟩]⟩,
  ⟨"DMA_WRBYTES", 0xf0, 0x8, 1, [
    ⟨0, 64, .ro, .now, false, 0, none⟩]⟩,
  ⟨"DMA_RDBYTES", 0xf8, 0x8, 1, [
    ⟨0, 64, .ro, .now, false, 0, none⟩]⟩,
  ⟨"DMA_TAIL", 0x100, 0x8, 32, [
    ⟨0, 19, .rw, .now, false, 0, none⟩, ⟨32, 19, .ro, .now, false, 0, none⟩, ⟨56, 1, .ro, .now, false, 0, none⟩,
    ⟨57, 1, .ro, .now, false, 0, none⟩, ⟨58, 1, .ro, .now, false, 0, none⟩]⟩,
  ⟨"DMA_RSTAT", 0x200, 0x8, 32, [
    ⟨0, 32, .ro, .now, false, 0, none⟩, ⟨32, 16, .ro, .now, false, 0, none⟩, ⟨48, 8, .ro, .now, false, 0, none⟩,
    ⟨56, 8, .ro, .now, false, 0, none⟩]⟩]

/-- The registers of ATU (0x20000). -/
def rowsATU : List RegRow := [
  ⟨"ATU_CTRL", 0x80, 0x8, 1, [
    ⟨0, 1, .rw, .now, false, 0, none⟩]⟩,
  ⟨"ATU_ROOT", 0x88, 0x8, 1, [
    ⟨12, 40, .rw, .now, false, 0, none⟩]⟩,
  ⟨"ATU_INV", 0x90, 0x8, 1, [
    ⟨0, 1, .w1s, .now, false, 0, none⟩, ⟨1, 2, .rw, .now, false, 0, none⟩, ⟨3, 1, .ro, .now, false, 1, none⟩,
    ⟨4, 1, .ro, .now, false, 0, none⟩]⟩,
  ⟨"ATU_INV_BASE", 0x98, 0x8, 1, [
    ⟨12, 36, .rw, .now, false, 0, none⟩]⟩,
  ⟨"ATU_INV_LEN", 0xa0, 0x8, 1, [
    ⟨0, 36, .rw, .now, false, 0, none⟩]⟩,
  ⟨"ATU_TLB_INDEX", 0xa8, 0x8, 1, [
    ⟨0, 16, .rw, .now, false, 0, none⟩, ⟨16, 8, .rw, .now, false, 0, none⟩, ⟨24, 1, .rw, .now, false, 0, none⟩]⟩,
  ⟨"ATU_TLB_DATA_LO", 0xb0, 0x8, 1, [
    ⟨0, 64, .rw, .now, false, 0, none⟩]⟩,
  ⟨"ATU_TLB_DATA_HI", 0xb8, 0x8, 1, [
    ⟨0, 64, .rw, .now, false, 0, none⟩]⟩,
  ⟨"ATU_TLB_CTRL", 0xc0, 0x8, 1, [
    ⟨0, 2, .rw, .now, false, 0, none⟩, ⟨8, 1, .w1s, .now, false, 0, none⟩, ⟨9, 1, .ro, .now, false, 0, none⟩,
    ⟨10, 1, .w1c, .now, false, 0, none⟩]⟩,
  ⟨"ATU_STATS", 0xc8, 0x8, 1, [
    ⟨0, 32, .ro, .now, false, 0, none⟩, ⟨32, 32, .ro, .now, false, 0, none⟩]⟩,
  ⟨"ATU_WALK", 0xd0, 0x8, 1, [
    ⟨0, 32, .ro, .now, false, 0, none⟩, ⟨32, 16, .ro, .now, false, 0, none⟩]⟩,
  ⟨"ATU_FAULTS", 0xd8, 0x8, 1, [
    ⟨0, 16, .ro, .now, false, 0, none⟩, ⟨16, 16, .ro, .now, false, 0, none⟩, ⟨32, 16, .ro, .now, false, 0, none⟩,
    ⟨48, 16, .ro, .now, false, 0, none⟩]⟩,
  ⟨"ATU_PROBE", 0xe0, 0x8, 1, [
    ⟨0, 64, .rw, .now, false, 0, none⟩]⟩,
  ⟨"ATU_PROBE_RES", 0xe8, 0x8, 1, [
    ⟨12, 40, .ro, .now, false, 0, none⟩, ⟨1, 2, .ro, .now, false, 0, none⟩, ⟨3, 4, .ro, .now, false, 0, none⟩,
    ⟨7, 1, .ro, .now, false, 0, none⟩]⟩,
  ⟨"ATU_OCC", 0xf0, 0x8, 1, [
    ⟨0, 11, .ro, .now, false, 0, none⟩, ⟨16, 11, .ro, .now, false, 0, none⟩, ⟨32, 11, .ro, .now, false, 0, none⟩]⟩,
  ⟨"ATU_INVCNT", 0xf8, 0x8, 1, [
    ⟨0, 32, .ro, .now, false, 0, none⟩, ⟨32, 32, .ro, .now, false, 0, none⟩]⟩,
  ⟨"ATU_FLOG", 0x100, 0x8, 16, [
    ⟨0, 48, .ro, .now, false, 0, none⟩, ⟨48, 4, .ro, .now, false, 0, none⟩, ⟨52, 4, .ro, .now, false, 0, none⟩,
    ⟨56, 2, .ro, .now, false, 0, none⟩, ⟨58, 5, .ro, .now, false, 0, none⟩]⟩]

/-- The registers of PCIE (0x21000). -/
def rowsPCIE : List RegRow := [
  ⟨"PCIE_ID", 0x80, 0x8, 1, [
    ⟨0, 16, .ro, .boot, false, 0, none⟩, ⟨16, 16, .ro, .boot, false, 0, none⟩, ⟨32, 8, .ro, .boot, false, 0, none⟩]⟩,
  ⟨"PCIE_LINK", 0x88, 0x8, 1, [
    ⟨0, 3, .ro, .now, false, 0, none⟩, ⟨3, 4, .ro, .now, false, 0, none⟩, ⟨7, 1, .ro, .now, false, 0, none⟩,
    ⟨8, 1, .ro, .now, false, 0, none⟩, ⟨9, 1, .ro, .now, false, 0, none⟩]⟩,
  ⟨"PCIE_CTRL", 0x90, 0x8, 1, [
    ⟨0, 1, .rw, .now, false, 1, none⟩, ⟨1, 1, .w1s, .now, false, 0, none⟩, ⟨2, 1, .rw, .now, false, 0, none⟩,
    ⟨3, 1, .rw, .now, false, 0, none⟩, ⟨8, 8, .rw, .now, false, 16, none⟩]⟩,
  ⟨"PCIE_SIZES", 0x98, 0x8, 1, [
    ⟨0, 10, .ro, .now, false, 128, none⟩, ⟨16, 10, .ro, .now, false, 512, none⟩]⟩,
  ⟨"PCIE_LCNT", 0xa0, 0x8, 1, [
    ⟨0, 16, .ro, .now, false, 0, none⟩, ⟨16, 16, .ro, .now, false, 0, none⟩, ⟨32, 16, .ro, .now, false, 0, none⟩,
    ⟨48, 16, .ro, .now, false, 0, none⟩]⟩,
  ⟨"PCIE_ERR", 0xa8, 0x8, 1, [
    ⟨0, 16, .ro, .now, false, 0, none⟩, ⟨16, 16, .ro, .now, false, 0, none⟩, ⟨32, 16, .ro, .now, false, 0, none⟩,
    ⟨48, 16, .ro, .now, false, 0, none⟩]⟩,
  ⟨"PCIE_CPL", 0xb0, 0x8, 1, [
    ⟨0, 16, .ro, .now, false, 0, none⟩, ⟨16, 16, .ro, .now, false, 0, none⟩, ⟨32, 16, .ro, .now, false, 0, none⟩,
    ⟨48, 16, .ro, .now, false, 0, none⟩]⟩,
  ⟨"PCIE_AER", 0xb8, 0x8, 1, [
    ⟨0, 32, .ro, .now, false, 0, none⟩, ⟨32, 32, .ro, .now, false, 0, none⟩]⟩,
  ⟨"PCIE_TXB", 0xc0, 0x8, 1, [
    ⟨0, 64, .ro, .now, false, 0, none⟩]⟩,
  ⟨"PCIE_RXB", 0xc8, 0x8, 1, [
    ⟨0, 64, .ro, .now, false, 0, none⟩]⟩,
  ⟨"PCIE_CREDIT", 0xd0, 0x8, 1, [
    ⟨0, 32, .ro, .now, false, 0, none⟩]⟩,
  ⟨"PCIE_BAR2", 0xd8, 0x8, 1, [
    ⟨0, 32, .ro, .now, false, 0, none⟩, ⟨32, 32, .ro, .now, false, 0, none⟩]⟩,
  ⟨"PCIE_BAR4", 0xe0, 0x8, 1, [
    ⟨0, 32, .ro, .now, false, 0, none⟩, ⟨32, 32, .ro, .now, false, 0, none⟩]⟩,
  ⟨"PCIE_RESETS", 0xe8, 0x8, 1, [
    ⟨0, 16, .ro, .now, false, 0, none⟩, ⟨16, 16, .ro, .now, false, 0, none⟩, ⟨32, 16, .ro, .now, false, 0, none⟩]⟩,
  ⟨"PCIE_DOWN", 0xf0, 0x8, 1, [
    ⟨0, 64, .ro, .now, false, 0, none⟩]⟩,
  ⟨"PCIE_UP", 0xf8, 0x8, 1, [
    ⟨0, 64, .ro, .now, false, 0, none⟩]⟩,
  ⟨"PCIE_VLOG", 0x100, 0x8, 16, [
    ⟨0, 64, .ro, .now, false, 0, none⟩]⟩]

/-- The registers of LDU (0x22000). -/
def rowsLDU : List RegRow := [
  ⟨"LDU_CTRL", 0x80, 0x8, 1, [
    ⟨0, 1, .rw, .stroke, false, 0, none⟩, ⟨8, 4, .wo, .now, false, 0, none⟩, ⟨12, 1, .w1s, .now, false, 0, none⟩,
    ⟨16, 16, .wo, .now, false, 0, none⟩]⟩,
  ⟨"LDU_PTURN", 0x88, 0x8, 1, [
    ⟨0, 64, .rw, .now, false, 0, none⟩]⟩,
  ⟨"LDU_PTURN_CTRL", 0x90, 0x8, 1, [
    ⟨0, 2, .rw, .now, false, 0, none⟩, ⟨2, 1, .w1s, .now, false, 0, none⟩, ⟨3, 1, .rw, .now, false, 0, none⟩,
    ⟨8, 1, .ro, .now, false, 0, none⟩, ⟨9, 1, .w1c, .now, false, 0, none⟩, ⟨10, 1, .w1c, .now, false, 0, none⟩,
    ⟨11, 1, .w1c, .now, false, 0, none⟩, ⟨12, 1, .w1c, .now, false, 0, none⟩, ⟨16, 2, .ro, .now, false, 0, none⟩,
    ⟨32, 32, .ro, .now, false, 0, none⟩]⟩,
  ⟨"LDU_MATRIX", 0x98, 0x8, 1, [
    ⟨0, 1, .rw, .stroke, false, 0, none⟩, ⟨1, 15, .rw, .stroke, false, 256, some (64, 32767)⟩, ⟨16, 16, .rw, .stroke, false, 1344, some (256, 65535)⟩]⟩,
  ⟨"LDU_DIM", 0xa0, 0x8, 1, [
    ⟨0, 16, .rw, .stroke, false, 12800, some (256, 65535)⟩]⟩,
  ⟨"LDU_DIAG", 0xa8, 0x8, 1, [
    ⟨0, 16, .rw, .stroke, false, 10, none⟩, ⟨16, 1, .rw, .stroke, false, 0, none⟩, ⟨17, 15, .rw, .stroke, false, 1000, none⟩,
    ⟨32, 4, .rw, .stroke, false, 3, some (1, 15)⟩, ⟨40, 8, .rw, .stroke, false, 10, none⟩, ⟨48, 4, .rw, .stroke, false, 4, some (1, 15)⟩]⟩,
  ⟨"LDU_COLOUR", 0xb0, 0x8, 4, [
    ⟨0, 16, .rw, .page, false, 0, none⟩, ⟨16, 8, .rw, .page, false, 25, none⟩]⟩,
  ⟨"LDU_THERM", 0xd0, 0x8, 1, [
    ⟨0, 16, .rw, .stroke, false, 30, none⟩, ⟨16, 7, .rw, .stroke, false, 50, some (1, 100)⟩]⟩,
  ⟨"LDU_COUNT", 0xd8, 0x8, 1, [
    ⟨0, 16, .ro, .now, false, 0, none⟩, ⟨16, 16, .ro, .now, false, 0, none⟩, ⟨32, 16, .ro, .now, false, 0, none⟩,
    ⟨48, 16, .ro, .now, false, 0, none⟩]⟩,
  ⟨"LDU_LTAB_INDEX", 0xe0, 0x8, 1, [
    ⟨0, 16, .rw, .now, false, 0, none⟩, ⟨16, 8, .rw, .now, false, 0, none⟩, ⟨24, 1, .rw, .now, false, 0, none⟩]⟩,
  ⟨"LDU_LTAB_DATA_LO", 0xe8, 0x8, 1, [
    ⟨0, 64, .rw, .now, false, 0, none⟩]⟩,
  ⟨"LDU_LTAB_DATA_HI", 0xf0, 0x8, 1, [
    ⟨0, 64, .rw, .now, false, 0, none⟩]⟩,
  ⟨"LDU_LTAB_CTRL", 0xf8, 0x8, 1, [
    ⟨0, 2, .rw, .now, false, 0, none⟩, ⟨8, 1, .w1s, .now, false, 0, none⟩, ⟨9, 1, .ro, .now, false, 0, none⟩,
    ⟨10, 1, .w1c, .now, false, 0, none⟩]⟩,
  ⟨"LDU_PAGEW_INDEX", 0x100, 0x8, 1, [
    ⟨0, 16, .rw, .now, false, 0, none⟩, ⟨16, 8, .rw, .now, false, 0, none⟩, ⟨24, 1, .rw, .now, false, 0, none⟩]⟩,
  ⟨"LDU_PAGEW_DATA_LO", 0x108, 0x8, 1, [
    ⟨0, 64, .rw, .now, false, 0, none⟩]⟩,
  ⟨"LDU_PAGEW_DATA_HI", 0x110, 0x8, 1, [
    ⟨0, 64, .rw, .now, false, 0, none⟩]⟩,
  ⟨"LDU_PAGEW_CTRL", 0x118, 0x8, 1, [
    ⟨0, 2, .rw, .now, false, 0, none⟩, ⟨8, 1, .w1s, .now, false, 0, none⟩, ⟨9, 1, .ro, .now, false, 0, none⟩,
    ⟨10, 1, .w1c, .now, false, 0, none⟩]⟩,
  ⟨"LDU_TIN", 0x120, 0x8, 8, [
    ⟨0, 24, .rw, .stroke, false, 0, none⟩, ⟨24, 32, .rw, .stroke, false, 0, none⟩, ⟨56, 6, .rw, .stroke, false, 0, none⟩,
    ⟨62, 1, .rw, .stroke, false, 0, none⟩]⟩,
  ⟨"LDU_LINE", 0x160, 0x8, 8, [
    ⟨0, 1, .rw, .stroke, false, 1, none⟩, ⟨1, 1, .rw, .stroke, false, 0, none⟩, ⟨2, 8, .rw, .stroke, false, 16, none⟩]⟩,
  ⟨"LDU_SCFG", 0x1a0, 0x20, 16, [
    ⟨0, 1, .rw, .stroke, false, 0, none⟩, ⟨1, 1, .rw, .stroke, false, 0, none⟩, ⟨2, 1, .w1s, .now, false, 0, none⟩,
    ⟨6, 10, .rw, .stroke, false, 256, some (64, 1023)⟩, ⟨16, 12, .rw, .stroke, false, 1000, none⟩, ⟨28, 12, .rw, .stroke, false, 100, none⟩]⟩,
  ⟨"LDU_SSET", 0x1a8, 0x20, 16, [
    ⟨0, 12, .rw, .stroke, false, 0, none⟩]⟩,
  ⟨"LDU_SSTAT", 0x1b0, 0x20, 16, [
    ⟨0, 2, .ro, .now, false, 0, none⟩, ⟨2, 2, .ro, .now, false, 0, none⟩, ⟨4, 12, .ro, .now, false, 0, none⟩,
    ⟨16, 12, .ro, .now, false, 0, none⟩, ⟨32, 12, .ro, .now, false, 0, none⟩]⟩,
  ⟨"LDU_SCNT", 0x1b8, 0x20, 16, [
    ⟨0, 16, .ro, .now, false, 0, none⟩, ⟨16, 16, .ro, .now, false, 0, none⟩, ⟨32, 16, .ro, .now, false, 0, none⟩,
    ⟨48, 16, .ro, .now, false, 0, none⟩]⟩,
  ⟨"LDU_OPEN", 0x3a0, 0x8, 4, [
    ⟨0, 64, .ro, .now, false, 0, none⟩]⟩,
  ⟨"LDU_SHORT", 0x3c0, 0x8, 4, [
    ⟨0, 64, .ro, .now, false, 0, none⟩]⟩,
  ⟨"LDU_UNDIAG", 0x3e0, 0x8, 4, [
    ⟨0, 64, .ro, .now, false, 0, none⟩]⟩,
  ⟨"LDU_FAULTED", 0x400, 0x8, 4, [
    ⟨0, 64, .ro, .now, false, 0, none⟩]⟩,
  ⟨"LDU_DERATED", 0x420, 0x8, 4, [
    ⟨0, 64, .ro, .now, false, 0, none⟩]⟩,
  ⟨"LDU_INHIB", 0x440, 0x8, 4, [
    ⟨0, 64, .ro, .now, false, 0, none⟩]⟩,
  ⟨"LDU_TNOW", 0x460, 0x8, 4, [
    ⟨0, 24, .ro, .now, false, 0, none⟩, ⟨24, 1, .ro, .now, false, 0, none⟩, ⟨25, 1, .ro, .now, false, 0, none⟩,
    ⟨32, 24, .ro, .now, false, 0, none⟩, ⟨56, 1, .ro, .now, false, 0, none⟩, ⟨57, 1, .ro, .now, false, 0, none⟩]⟩]

/-- The registers of TEST (0x23000). -/
def rowsTEST : List RegRow := [
  ⟨"TEST_CTRL", 0x80, 0x8, 1, [
    ⟨0, 1, .w1s, .now, false, 0, none⟩]⟩,
  ⟨"TEST_EYE", 0x88, 0x8, 1, [
    ⟨0, 5, .rw, .now, false, 0, none⟩, ⟨5, 6, .rw, .now, false, 0, none⟩, ⟨11, 7, .rw, .now, false, 0, none⟩,
    ⟨18, 6, .rw, .now, false, 30, some (20, 40)⟩, ⟨24, 1, .w1s, .now, false, 0, none⟩, ⟨25, 1, .ro, .now, false, 0, none⟩]⟩,
  ⟨"TEST_EYE_RES", 0x90, 0x8, 1, [
    ⟨0, 48, .ro, .now, false, 0, none⟩, ⟨48, 16, .ro, .now, false, 0, none⟩]⟩,
  ⟨"TEST_USER", 0x98, 0x8, 2, [
    ⟨0, 64, .rw, .now, false, 0, none⟩]⟩,
  ⟨"TEST_JTAG", 0xa8, 0x8, 1, [
    ⟨0, 1, .rw, .now, false, 0, none⟩, ⟨8, 8, .ro, .now, false, 0, none⟩, ⟨16, 16, .ro, .now, false, 0, none⟩]⟩,
  ⟨"TEST_COUNT", 0xb0, 0x8, 1, [
    ⟨0, 16, .ro, .now, false, 0, none⟩, ⟨16, 16, .ro, .now, false, 0, none⟩, ⟨32, 16, .ro, .now, false, 0, none⟩,
    ⟨48, 16, .ro, .now, false, 0, none⟩]⟩,
  ⟨"TEST_STATUS", 0xb8, 0x8, 1, [
    ⟨0, 18, .ro, .now, false, 0, none⟩, ⟨32, 18, .ro, .now, false, 0, none⟩]⟩,
  ⟨"TEST_CFG", 0xc0, 0x20, 18, [
    ⟨0, 3, .rw, .now, false, 0, none⟩, ⟨3, 1, .rw, .now, false, 0, none⟩, ⟨4, 1, .rw, .now, false, 0, none⟩,
    ⟨5, 2, .rw, .now, false, 0, none⟩, ⟨7, 1, .w1s, .now, false, 0, none⟩, ⟨8, 1, .w1s, .now, false, 0, none⟩,
    ⟨9, 1, .rw, .now, false, 0, none⟩, ⟨10, 1, .rw, .now, false, 0, none⟩, ⟨11, 1, .rw, .now, false, 0, none⟩,
    ⟨16, 16, .rw, .now, false, 0, none⟩, ⟨32, 4, .ro, .now, false, 0, none⟩, ⟨36, 3, .ro, .now, false, 0, none⟩,
    ⟨40, 3, .ro, .now, false, 0, none⟩]⟩,
  ⟨"TEST_SEED", 0xc8, 0x20, 18, [
    ⟨0, 31, .rw, .now, false, 1, some (1, 2147483647)⟩, ⟨32, 32, .rw, .now, false, 0, none⟩]⟩,
  ⟨"TEST_ERR", 0xd0, 0x20, 18, [
    ⟨0, 48, .ro, .now, false, 0, none⟩, ⟨48, 16, .ro, .now, false, 0, none⟩]⟩,
  ⟨"TEST_BITS", 0xd8, 0x20, 18, [
    ⟨0, 64, .ro, .now, false, 0, none⟩]⟩]

/-- The registers of MON (0x24000). -/
def rowsMON : List RegRow := [
  ⟨"MON_CTRL", 0x80, 0x8, 1, [
    ⟨0, 8, .rw, .now, false, 100, none⟩, ⟨8, 8, .rw, .now, false, 30, none⟩]⟩,
  ⟨"MON_TJ", 0x88, 0x8, 1, [
    ⟨0, 16, .ro, .now, false, 0, none⟩, ⟨16, 3, .ro, .now, false, 0, none⟩, ⟨32, 16, .ro, .now, false, 0, none⟩]⟩,
  ⟨"MON_TJ_MEAN", 0x90, 0x8, 1, [
    ⟨0, 16, .ro, .now, false, 0, none⟩, ⟨32, 32, .ro, .now, false, 0, none⟩]⟩,
  ⟨"MON_LIFE", 0x98, 0x8, 1, [
    ⟨0, 48, .ro, .now, false, 0, none⟩, ⟨48, 16, .ro, .now, false, 0, none⟩]⟩,
  ⟨"MON_SUPPLY", 0xa0, 0x8, 1, [
    ⟨0, 6, .ro, .now, false, 0, none⟩, ⟨8, 6, .ro, .now, false, 0, none⟩]⟩,
  ⟨"MON_WEAR", 0xa8, 0x8, 1, [
    ⟨0, 3, .ro, .now, false, 0, none⟩, ⟨3, 3, .ro, .now, false, 0, none⟩, ⟨6, 5, .ro, .now, false, 0, none⟩,
    ⟨16, 10, .ro, .now, false, 0, none⟩, ⟨26, 1, .ro, .now, false, 0, none⟩, ⟨27, 2, .ro, .now, false, 0, none⟩,
    ⟨29, 1, .ro, .now, false, 0, none⟩]⟩,
  ⟨"MON_COUNT", 0xb0, 0x8, 1, [
    ⟨0, 16, .ro, .now, false, 0, none⟩, ⟨16, 16, .ro, .now, false, 0, none⟩, ⟨32, 16, .ro, .now, false, 0, none⟩,
    ⟨48, 16, .ro, .now, false, 0, none⟩]⟩,
  ⟨"MON_UPTIME", 0xb8, 0x8, 1, [
    ⟨0, 32, .ro, .now, false, 0, none⟩]⟩,
  ⟨"MON_SPI_VLOG", 0xc0, 0x8, 8, [
    ⟨0, 64, .ro, .now, false, 0, none⟩]⟩]

/-- The rows of a page; a number that names no page has none. -/
def pageRows : Nat → List RegRow
  | 0 => rowsSYS
  | 1 => rowsPEN
  | 2 => rowsSCRR
  | 3 => rowsSCRV
  | 4 => rowsEVA
  | 5 => rowsTSU
  | 6 => rowsPTP
  | 7 => rowsTOUT
  | 8 => rowsILK
  | 9 => rowsBCAST
  | 16 => rowsFEGRP
  | 17 => rowsFECH0
  | 18 => rowsFECH1
  | 19 => rowsSLOW
  | 20 => rowsEXC
  | 21 => rowsNIB
  | 22 => rowsTRIM
  | 23 => rowsFLT
  | 24 => rowsFAST
  | 25 => rowsTRG
  | 26 => rowsCAP
  | 27 => rowsDUC
  | 28 => rowsETH
  | 29 => rowsQUE
  | 30 => rowsINKW
  | 31 => rowsDMA
  | 32 => rowsATU
  | 33 => rowsPCIE
  | 34 => rowsLDU
  | 35 => rowsTEST
  | 36 => rowsMON
  | _ => []

/-- Registers of a page, the 16 of its header among them (R44); 0 where there is no page. -/
def pageSize : Nat → Nat
  | 0 => 40
  | 1 => 24
  | 2 => 48
  | 3 => 48
  | 4 => 48
  | 5 => 56
  | 6 => 96
  | 7 => 48
  | 8 => 112
  | 9 => 32
  | 16 => 144
  | 17 => 272
  | 18 => 272
  | 19 => 208
  | 20 => 64
  | 21 => 176
  | 22 => 64
  | 23 => 208
  | 24 => 32
  | 25 => 208
  | 26 => 80
  | 27 => 96
  | 28 => 144
  | 29 => 88
  | 30 => 144
  | 31 => 96
  | 32 => 48
  | 33 => 48
  | 34 => 144
  | 35 => 96
  | 36 => 32
  | _ => 0

/-- The owner class of a page (R33, R44): 0 P, 1 H, 2 X. -/
def pageClass : Nat → Nat
  | 0 => 1
  | 1 => 2
  | 2 => 2
  | 3 => 2
  | 4 => 1
  | 29 => 1
  | 31 => 1
  | 32 => 1
  | 33 => 1
  | 35 => 1
  | 36 => 1
  | _ => 0

/-- PAGE_ID.NAME (R29): five ASCII characters, space-padded. -/
def pageName : Nat → Nat
  | 0 => 0x5359532020
  | 1 => 0x50454e2020
  | 2 => 0x5343525220
  | 3 => 0x5343525620
  | 4 => 0x4556412020
  | 5 => 0x5453552020
  | 6 => 0x5054502020
  | 7 => 0x544f555420
  | 8 => 0x494c4b2020
  | 9 => 0x4243415354
  | 16 => 0x4645475250
  | 17 => 0x4645434830
  | 18 => 0x4645434831
  | 19 => 0x534c4f5720
  | 20 => 0x4558432020
  | 21 => 0x4e49422020
  | 22 => 0x5452494d20
  | 23 => 0x464c542020
  | 24 => 0x4641535420
  | 25 => 0x5452472020
  | 26 => 0x4341502020
  | 27 => 0x4455432020
  | 28 => 0x4554482020
  | 29 => 0x5155452020
  | 30 => 0x494e4b5720
  | 31 => 0x444d412020
  | 32 => 0x4154552020
  | 33 => 0x5043494520
  | 34 => 0x4c44552020
  | 35 => 0x5445535420
  | 36 => 0x4d4f4e2020
  | _ => 0

/-- VLOG_PTR (R29): slot offset and length of the page's violation log; 0 where the page has none. -/
def pageVlog : Nat → Nat × Nat
  | 6 => (64, 32)
  | 8 => (84, 28)
  | 27 => (46, 50)
  | 28 => (120, 24)
  | 33 => (32, 16)
  | 36 => (24, 8)
  | _ => (0, 0)

/-- The indirect windows (R43), as (page, offset of INDEX). -/
def windowPlaces : List (Nat × Nat) := [
  (23, 0xc0), (23, 0xe0), (5, 0x150), (8, 0x100), (27, 0x90), (27, 0xb0), (31, 0xa0), (32, 0xa8), (34, 0xe0), (34, 0x100), (2, 0xe0), (3, 0xe0), (0, 0xe0), (30, 0x330)]

end Sys2Proof.Machine
end

