-- ==== Sys2Proof/Machine/Ops.lean ====
section
/-!
DEFINITION. The named operations over the register table, the page header and the outbox that every meaning is written with.
-/

namespace Sys2Proof.Machine

/-! ### The register table -/

/-- The row of a page's table that holds the register at `o` bytes into the page. -/
def findRow (o : Nat) : List RegRow → Option RegRow
  | [] => none
  | r :: rest =>
    if r.off ≤ o ∧ o < r.off + r.stride * r.count ∧ (o - r.off) % r.stride = 0 then some r else findRow o rest

/-- The field of a row whose lowest bit is `lo`. -/
def findField (lo : Nat) : List FieldRow → Option FieldRow
  | [] => none
  | f :: rest => if f.lo = lo then some f else findField lo rest

/-- What a field reads as after reset, by its bit address (the tables' Reset columns; EVT_MASK resets to all ones, R29). -/
def resetOf (key : Nat) : Nat :=
  let off := key % strokeBase / 64 * 8
  let o := off % 4096
  if o < 0x80 then (if o = 0x30 then 0x1FFFF else 0)
  else
    match findRow o (pageRows (off / 4096)) with
    | none => 0
    | some r => match findField (key % 64) r.fields with
      | none => 0
      | some f => f.reset

/-- A field of the register at an offset, as `F` names it. -/
def fieldOf (off : Nat) (f : FieldRow) : Fld := ⟨(if f.commit = .stroke then strokeBase else 0) + off * 8 + f.lo, f.width⟩

/-- A field's live value. -/
def rget (s : State) (f : Fld) : Nat := if strokeBase ≤ f.key then mget resetOf s.live f.key else mget resetOf s.regs f.key

/-- The state with a field's live value made `v`. -/
def rset (f : Fld) (v : Nat) (s : State) : State :=
  { s with regs := if strokeBase ≤ f.key then s.regs else mput resetOf f.key (v % 2 ^ f.width) s.regs
           live := if strokeBase ≤ f.key then mput resetOf f.key (v % 2 ^ f.width) s.live else s.live }

/-- A field's shadow. -/
def sget (s : State) (f : Fld) : Nat := mget resetOf s.shad f.key

/-- The state with a field's shadow made `v`. -/
def sset (f : Fld) (v : Nat) (s : State) : State := { s with shad := mput resetOf f.key (v % 2 ^ f.width) s.shad }

/-- The state with a field's live value and shadow made `v`. -/
def bset (f : Fld) (v : Nat) (s : State) : State := sset f v (rset f v s)

/-- A field read as two's complement. -/
def rgetI (s : State) (f : Fld) : Int := asInt f.width (rget s f)

/-- Whether a one-bit field is 1. -/
def on (s : State) (f : Fld) : Bool := rget s f == 1

/-- A counter field with `n` added, saturating at all ones (R30 and the register chapters). -/
def incBy (f : Fld) (n : Nat) (s : State) : State := rset f (satAdd f.width (rget s f) n) s

/-- A counter field with 1 added. -/
def inc (f : Fld) (s : State) : State := incBy f 1 s

/-- A bit map field with bit `i` made 1. -/
def setBitOf (f : Fld) (i : Nat) (s : State) : State := rset f (setBit (rget s f) i) s

/-- A bit map field with bit `i` made 0. -/
def clrBitOf (f : Fld) (i : Nat) (s : State) : State := rset f (clrBit (rget s f) i) s

/-- Fields set to 0. -/
def clearAll (fs : List Fld) (s : State) : State := fs.foldl (fun t f => rset f 0 t) s

/-- `f` done for each element in order. -/
def forAll (xs : List α) (f : α → State → State) (s : State) : State := xs.foldl (fun t x => f x t) s

/-- `f` if the condition holds. -/
def whenB (c : Bool) (f : State → State) (s : State) : State := if c then f s else s

/-! ### Pages, events and refusals -/

abbrev pSYS : Nat := 0x00
abbrev pPEN : Nat := 0x01
abbrev pSCRR : Nat := 0x02
abbrev pSCRV : Nat := 0x03
abbrev pEVA : Nat := 0x04
abbrev pTSU : Nat := 0x05
abbrev pPTP : Nat := 0x06
abbrev pTOUT : Nat := 0x07
abbrev pILK : Nat := 0x08
abbrev pBCAST : Nat := 0x09
abbrev pFEGRP : Nat := 0x10
abbrev pFECH0 : Nat := 0x11
abbrev pFECH1 : Nat := 0x12
abbrev pSLOW : Nat := 0x13
abbrev pEXC : Nat := 0x14
abbrev pNIB : Nat := 0x15
abbrev pTRIM : Nat := 0x16
abbrev pFLT : Nat := 0x17
abbrev pFAST : Nat := 0x18
abbrev pTRG : Nat := 0x19
abbrev pCAP : Nat := 0x1A
abbrev pDUC : Nat := 0x1B
abbrev pETH : Nat := 0x1C
abbrev pQUE : Nat := 0x1D
abbrev pINKW : Nat := 0x1E
abbrev pDMA : Nat := 0x1F
abbrev pATU : Nat := 0x20
abbrev pPCIE : Nat := 0x21
abbrev pLDU : Nat := 0x22
abbrev pTEST : Nat := 0x23
abbrev pMON : Nat := 0x24

/-- Every page of the map (R44). -/
def allPages : List Nat := List.range 10 ++ (List.range 21).map (· + 16)

/-- The P pages, written only under the pen (R33, R44). -/
def pPages : List Nat := allPages.filter (fun p => pageClass p == 0)

/-- A page source is raised: its EVT_RAW bit is 1 for the cycle, and EVT_PEND latches it (R29). A rise of an unmasked bit is noted
for EVA, with the detail word that its EVQ item carries, if any (R382, R386). -/
def raiseD (p b : Nat) (detail : Option Nat) (s : State) : State :=
  if bitSet (rget s (F.EVT_PEND.PEND p)) b then s
  else
    let t := setBitOf (F.EVT_PEND.PEND p) b s
    if bitSet (rget s (F.EVT_MASK.MASK p)) b then t
    else { t with eva := { t.eva with rises := t.eva.rises ++ [(p, b, detail)] } }

/-- A page source is raised whose EVQ item has no detail words. -/
def raise (p b : Nat) (s : State) : State := raiseD p b none s

/-- A field of MON_WEAR takes a value; a change raises MON SRC[4] (R392, R398). -/
def wear (f : Fld) (v : Nat) (s : State) : State := if rget s f = v % 2 ^ f.width then s else s |> rset f v |> raise pMON 4

/-- The header source of a page, HDR. -/
abbrev hdrBit : Nat := 16

/-- How a requester is named in LAST_REQ (R30). -/
def reqCode : Requester → Nat
  | .recto => 0
  | .verso => 1
  | .bar0 => 2
  | .spi => 3

/-- An SPI write refused by OWNER or LOCK adds to REFUSED (R28). -/
def spiRefuse (r : Requester) (s : State) : State :=
  if r = .spi then { s with spine := { s.spine with refused := satAdd 32 s.spine.refused 1 } } else s

/-- A refusal counted in OWN_DENIED, with LAST_REQ and HDR (R29, R30). -/
def denyOwn (r : Requester) (p : Nat) (s : State) : State :=
  s |> inc (F.PAGE_STATUS.OWN_DENIED p) |> rset (F.PAGE_STATUS.LAST_REQ p) (reqCode r) |> raise p hdrBit |> spiRefuse r

/-- A refusal counted in LOCK_DENIED, with LAST_REQ and HDR (R29, R30, R36). -/
def denyLock (r : Requester) (p : Nat) (s : State) : State :=
  s |> inc (F.PAGE_STATUS.LOCK_DENIED p) |> rset (F.PAGE_STATUS.LAST_REQ p) (reqCode r) |> raise p hdrBit |> spiRefuse r

/-- What the hub sends or drives is written down in order (the model's own record). -/
def emit (e : Emit) (s : State) : State := { s with out := s.out ++ [e] }

/-! ### Strokes and time -/

/-- M, the divider of the stroke rate (R381). -/
def mLive (s : State) : Nat := rget s F.SYS_STROKE_CFG.M_MINUS1 + 1

/-- DCLK cycles of a stroke. -/
def strokeLen (s : State) : Nat := 500 * mLive s

/-- The stroke counter. -/
def strokeNow (s : State) : Nat := rget s F.SYS_STROKE_NOW.STROKE

/-- The stroke that the next strike belongs to: the first strike strikes the stroke the counter stands at (R376). -/
def nextStroke (s : State) : Nat := if s.struck then strokeNow s + 1 else strokeNow s

/-- The DCLK cycle of a request, counted from the release of PORST_N. -/
def dclkAt (r : Req) (s : State) : Nat := s.strikeDclk + r.cyc

/-- Strokes that cover a number of microseconds, rounded up (a stroke lasts M / 1.024 µs). -/
def strokesOfUs (us : Nat) (s : State) : Nat := ceilDiv (us * 1024) (1000 * mLive s)

/-- A fresh free value of `w` bits. -/
def freeVal (w : Nat) (s : State) : Nat := (Config.freeWord s.free).toNat % 2 ^ w

/-- The free value's counter is advanced. -/
def freeNext (s : State) : State := { s with free := s.free + 1 }

/-! ### Violation logs (R389 to R391) -/

/-- A log entry without REPEAT and STROKE_LO: CODE, VALID, CLASS, PORT, DETAIL. -/
def vlogHead (cls code port detail : Nat) : Nat := code * 2 ^ 24 + 2 ^ 23 + cls * 2 ^ 20 + (port % 4) * 2 ^ 18 + (detail % 1024) * 2 ^ 8

/-- A violation goes into a page's log: folded into VLOG0 when it is equal and within 1 s of it, else a new entry that moves the
others down and raises the page's log source. -/
def vlog (p src n : Nat) (entry : Nat → Fld) (cls code port detail : Nat) (s : State) : State :=
  let top := rget s (entry 0)
  let head := vlogHead cls code port detail
  let now := strokeNow s % 2 ^ 32
  let gap := (now + 2 ^ 32 - top % 2 ^ 32) % 2 ^ 32
  if top / 2 ^ 40 * 2 ^ 8 = head ∧ gap * mLive s < 1024000 then
    rset (entry 0) (head * 2 ^ 32 + min 255 (slice 32 8 top + 1) * 2 ^ 32 + now) s
  else
    s |> forAll ((List.range (n - 1)).reverse) (fun i s => rset (entry (i + 1)) (rget s (entry i)) s)
      |> rset (entry 0) (head * 2 ^ 32 + now) |> raiseD p src (some (head * 2 ^ 32 + now))

/-! ### Who may write (R34, R35, R344) -/

/-- Who holds the pen (R33): 0 none, 1 Recto, 2 Verso, 3 frozen. -/
def penHolder (s : State) : Nat := rget s F.PEN_STATE.HOLDER

/-- Whether a requester is the half that holds the pen. -/
def holdsPen (r : Requester) (s : State) : Bool :=
  (r == .recto && penHolder s == 1) || (r == .verso && penHolder s == 2)

/-- The P-page rule (R34), with the HOST_GRANT of page `p`. -/
def penRule (r : Requester) (p : Nat) (s : State) : Bool :=
  penHolder s != 3 && (holdsPen r s || ((r == .bar0 || r == .spi) && on s (F.OWNER.HOST_GRANT p)))

end Sys2Proof.Machine
end

