-- ==== Sys2Proof/Machine/FrontEnd.lean ====
section
/-!
DEFINITION. The fast front end: what a strike finds on each channel (R45 to R57), and the flags and values of its words.
-/

namespace Sys2Proof.Machine

/-! ### Fields of one fast channel (R68) and of its group (R66, R67) -/

/-- A field of FECH_CFG of channel `c`, which stands on FECH0 or on FECH1. -/
abbrev fech (lo w c : Nat) : Fld := ⟨(if c < 256 then 0x11080 + 8 * c else 0x12080 + 8 * (c - 256)) * 8 + lo, w⟩
abbrev fcRange (c : Nat) : Fld := fech strokeBase 2 c
abbrev fcMode (c : Nat) : Fld := fech (strokeBase + 2) 2 c
abbrev fcBias (c : Nat) : Fld := fech (strokeBase + 4) 2 c
abbrev fcOvr (c : Nat) : Fld := fech 48 1 c
abbrev fcNbr (c : Nat) : Fld := fech 49 1 c
abbrev fcOpen (c : Nat) : Fld := fech 50 1 c
abbrev fcSettle (c : Nat) : Fld := fech 51 1 c
abbrev fcFault (c : Nat) : Fld := fech 52 2 c
abbrev fcOvrCnt (c : Nat) : Fld := fech 56 8 c

/-- The page that shows a fast channel. -/
def fechPage (c : Nat) : Nat := if c < 256 then pFECH0 else pFECH1

/-- The front-end group of a channel (R45). -/
def groupOf (c : Nat) : Nat := c / 16

def chanFe (s : State) (c : Nat) : ChanFe := mget (fun _ => {}) s.chanFe c
def setChanFe (c : Nat) (x : ChanFe) (s : State) : State := { s with chanFe := mput (fun _ => {}) c x s.chanFe }
def groupFe (s : State) (g : Nat) : GroupFe := mget (fun _ => {}) s.groupFe g
def setGroupFe (g : Nat) (x : GroupFe) (s : State) : State := { s with groupFe := mput (fun _ => {}) g x s.groupFe }

/-! ### Ranges (R50, R51) -/

/-- The +FS clamp of a range on the Q1.31 scale. -/
def plusClamp (rng : Nat) : Int := (2 ^ (31 - 2 * rng) : Nat) - 1

/-- The −FS clamp of a range. -/
def minusClamp (rng : Nat) : Int := -(2 ^ (31 - 2 * rng) : Nat)

/-! ### Flag bits of the tagged word (R70) -/

abbrev flOVR : Nat := 0
abbrev flNBR : Nat := 1
abbrev flOPEN : Nat := 2
abbrev flSETTLE : Nat := 3
abbrev flFILL : Nat := 4
abbrev flSKIP : Nat := 5

/-- A flag as a number to add to a flag set. -/
def flagIf (c : Bool) (b : Nat) : Nat := if c then 1 <<< b else 0

/-! ### Overrange and neighbours (R52, R53) -/

/-- Strokes past the last overranged one to which NBR may extend (R53). -/
def nbrReach (s : State) : Nat := if mLive s = 1 then 2 else 1

/-- Channel `c` is overranged on stroke `n`: its own flag and counts, and NBR for the other 15 channels of its group. -/
def overrange (n c : Nat) (s : State) : State :=
  let g := groupOf c
  let i := c % 16
  let now := rget s (F.FEGRP_STATUS.OVR_NOW g)
  let gf := groupFe s g
  if bitSet now i then s else
  s |> whenB (now == 0) (fun s => s
        |> inc (F.FEGRP_COUNT.OVR_STROKES g)
        |> whenB (!gf.prevOvr) (raise pFEGRP 0)
        |> whenB (gf.nbrMask == 0) (inc (F.FEGRP_COUNT.NBR_STROKES g)))
    |> setBitOf (F.FEGRP_STATUS.OVR_NOW g) i
    |> rset (F.FEGRP_STATUS.NBR_LEFT g) (nbrReach s)
    |> setGroupFe g { gf with nbrMask := gf.nbrMask ||| clrBit 0xFFFF i, lastOvr := n }
    |> rset (fcOvr c) 1
    |> inc (fcOvrCnt c)

/-- What a strike does to a group before its channels are looked at: the overranges of the stroke before are past, and NBR ends
where the reference buffer is found settled or its longest reach is over (R53). -/
def strikeGroup (n : Nat) (settled : List Nat) (g : Nat) (s : State) : State :=
  let now := rget s (F.FEGRP_STATUS.OVR_NOW g)
  let gf := groupFe s g
  let stays := gf.nbrMask != 0 && !settled.contains g && decide (n ≤ gf.lastOvr + nbrReach s)
  s |> forAll (indicesWhere 16 (bitSet now)) (fun i => rset (fcOvr (16 * g + i)) 0)
    |> rset (F.FEGRP_STATUS.OVR_NOW g) 0
    |> setGroupFe g { gf with prevOvr := now != 0, nbrMask := if stays then gf.nbrMask else 0 }
    |> rset (F.FEGRP_STATUS.NBR_LEFT g) (if stays then gf.lastOvr + nbrReach s - n else 0)
    |> whenB stays (inc (F.FEGRP_COUNT.NBR_STROKES g))

/-! ### Open inputs (R56, R57) -/

/-- The monitor of channel `c` trips with a cause: its words carry OPEN from stroke `n` on. -/
def openTrip (n cause c : Nat) (s : State) : State :=
  if on s (fcOpen c) then s else
  s |> rset (fcOpen c) 1 |> rset (fcFault c) cause |> setBitOf (F.FEGRP_STATUS.OPEN_NOW (groupOf c)) (c % 16)
    |> setChanFe c { chanFe s c with openFrom := n, inRun := 0 }
    |> raise (fechPage c) 0

/-- OPEN ends on channel `c`. -/
def openEnd (c : Nat) (s : State) : State :=
  s |> rset (fcOpen c) 0 |> rset (fcFault c) 0 |> clrBitOf (F.FEGRP_STATUS.OPEN_NOW (groupOf c)) (c % 16)
    |> setChanFe c { chanFe s c with outRun := 0, inRun := 0 }
    |> raise (fechPage c) 1

/-- The words of channel `c` carry SETTLE for `k` strokes from stroke `n` (R54, R55). -/
def settleFor (n k c : Nat) (s : State) : State :=
  let x := chanFe s c
  if x.settleUntil < n + k then setChanFe c { x with settleUntil := n + k } s else s

/-- Whether the pins of channel `c` are found outside the pin window (R56): levels in mV, limits of 4 mV. -/
def pinsOutside (pins : List (Nat × Int × Int)) (c : Nat) (s : State) : Bool :=
  let hi := 4 * rgetI s (F.FEGRP_CFG.PINWIN_HI (groupOf c))
  let lo := 4 * rgetI s (F.FEGRP_CFG.PINWIN_LO (groupOf c))
  pins.any (fun x => x.1 == c && (decide (hi < x.2.1) || decide (x.2.1 < lo) || decide (hi < x.2.2) || decide (x.2.2 < lo)))

/-- Whether the sensor line of an AC channel is found outside AC_LO to AC_HI: levels in mV, limits of 10 mV. -/
def lineOutside (lines : List (Nat × Nat)) (c : Nat) (s : State) : Bool :=
  let hi := 10 * rget s (F.FEGRP_CFG.AC_HI (groupOf c))
  let lo := 10 * rget s (F.FEGRP_CFG.AC_LO (groupOf c))
  lines.any (fun x => x.1 == c && (decide (hi < x.2) || decide (x.2 < lo)))

/-- What the strike of stroke `n` does to the monitor of channel `c` (R56, R57). -/
def strikeMonitor (n : Nat) (e : StrikeEnv) (c : Nat) (s : State) : State :=
  let mode := rget s (fcMode c)
  let x := chanFe s c
  let isOpen := on s (fcOpen c)
  if mode = 3 then s
  else if mode = 2 then
    if isOpen then setChanFe c { x with inRun := if lineOutside e.lines c s then 0 else x.inRun + 1 } s else s
  else
    let out := rget s (fcBias c) != 0 && pinsOutside e.pins c s
    let refBad := mode == 1 && isOpen && rget s (fcFault c) == 3 && !on s (F.FEGRP_REF.REFG_OK (groupOf c))
    let run := if out then x.outRun + 1 else 0
    let s' := if run == x.outRun && !isOpen then s else
      setChanFe c { x with outRun := min run 2, inRun := if !isOpen || out || refBad then 0 else x.inRun + 1 } s
    if out && run ≥ 2 then openTrip n 3 c s' else s'

/-- The overload comparator of channel `c` trips at the strike; the clamp of an OPEN channel keeps it quiet (R52, R56). -/
def strikeTrip (n c : Nat) (s : State) : State :=
  if 512 ≤ c ∨ (on s (fcOpen c) ∧ (chanFe s c).openFrom < n) ∨ rget s (fcMode c) = 3 then s else overrange n c s

/-- The front end's part of the strike of stroke `n` (R45, R52, R53, R56). -/
def strikeFrontEnd (n : Nat) (e : StrikeEnv) (s : State) : State :=
  s |> forAll (List.range 32) (strikeGroup n e.settled)
    |> forAll (List.range 512) (strikeMonitor n e)
    |> forAll e.trips (strikeTrip n)

/-! ### Commits of front-end settings (R54, R55, R57) -/

/-- Strokes of SETTLE on entry to AC mode (R55): AC_SETTLE in steps of 10 ms, 10,240 / M strokes each, and at least 3. -/
def acSettle (c : Nat) (s : State) : Nat :=
  max 3 (ceilDiv (10240 * rget s (F.FEGRP_CFG.AC_SETTLE (groupOf c))) (mLive s))

/-- What the commit on stroke `n` means for channel `c`, given the state before it. -/
def commitChan (n : Nat) (before : State) (c : Nat) (s : State) : State :=
  let mode := rget s (fcMode c)
  let bias := rget s (fcBias c)
  let mode' := rget before (fcMode c)
  let changed := mode != mode' || bias != rget before (fcBias c) || rget s (fcRange c) != rget before (fcRange c)
  let aa := rget s (F.FEGRP_CFG.AA (groupOf c)) != rget before (F.FEGRP_CFG.AA (groupOf c))
  s |> whenB (on s (fcOpen c) && changed && (mode == 3 || (mode != 2 && bias == 0 && (rget before (fcBias c) != 0 || mode != mode')))) (openEnd c)
    |> whenB changed (settleFor n (if mode == 2 && mode' != 2 then acSettle c s else 3) c)
    |> whenB aa (settleFor n 3 c)

/-- The flags a word of channel `c` carries on stroke `n`, OVR apart. -/
def wordFlags (n c : Nat) (s : State) : Nat :=
  flagIf (bitSet (groupFe s (groupOf c)).nbrMask (c % 16)) flNBR
    + flagIf (on s (fcOpen c) && decide ((chanFe s c).openFrom ≤ n)) flOPEN
    + flagIf (decide (n < (chanFe s c).settleUntil)) flSETTLE

/-- VREFG of group `g`, held on stroke `n`, is `uv` µV (R48, R67). -/
def refgResult (n g uv : Nat) (s : State) : State :=
  let ok := decide (500000 ≤ uv ∧ uv ≤ 5000000)
  let was := on s (F.FEGRP_REF.REFG_OK g)
  let t := s |> rset (F.FEGRP_REF.REFG_UV g) uv |> rset (F.FEGRP_REF.REFG_OK g) (if ok then 1 else 0)
    |> rset (F.FEGRP_REF.AGE g) 0 |> setGroupFe g { groupFe s g with refgStroke := n }
    |> whenB (was && !ok) (raise pFEGRP 1)
  if ok then t else
    forAll (indicesWhere 16 (fun i => rget s (fcMode (16 * g + i)) == 1)) (fun i => openTrip n 3 (16 * g + i)) t

/-- The age of every VREFG at the strike of stroke `n` (R67). -/
def refgAge (n g : Nat) (s : State) : State :=
  if rget s (F.FEGRP_REF.REFG_UV g) = 0 then s
  else rset (F.FEGRP_REF.AGE g) (min 255 (n - (groupFe s g).refgStroke)) s

/-- Whether a group has a channel in bridge mode (R48). -/
def hasBridge (s : State) (g : Nat) : Bool := (List.range 16).any (fun i => rget s (fcMode (16 * g + i)) == 1)

end Sys2Proof.Machine
end

