-- ==== Sys2Proof/Machine/Queue.lean ====
section
/-!
DEFINITION. The seven hardware queues: items in, words out, overwrite and flush (R248 to R262).
-/

namespace Sys2Proof.Machine

abbrev qCMD : Nat := 0
abbrev qRSP : Nat := 1
abbrev qFLT : Nat := 2
abbrev qEV : Nat := 3
abbrev qRUB : Nat := 4
abbrev qMBXR : Nat := 5
abbrev qMBXV : Nat := 6

/-- Depths in words (R249). -/
def qDepth : Nat → Nat
  | 2 => 512
  | 3 => 1024
  | 4 => 1024
  | _ => 256

def queue (s : State) (q : Nat) : QueueSt := mget (fun _ => {}) s.queues q
def setQueue (q : Nat) (x : QueueSt) (s : State) : State := { s with queues := mput (fun _ => {}) q x s.queues }

/-- LEVEL.FILL: visible words. -/
def qFill (x : QueueSt) : Nat := x.words.length

/-- LEVEL.PKTS: whole items present. -/
def qItems (x : QueueSt) : Nat := (x.words.filter (·.last)).length

/-- Room for `n` more words. -/
def qFits (s : State) (q n : Nat) : Bool :=
  decide ((queue s q).words.length + (queue s q).pend.length + n ≤ qDepth q)

/-- The words of a whole item, with their tags. -/
def tagItem : List Nat → List QWord
  | [] => []
  | [a] => [⟨a, true, true⟩]
  | a :: rest => ⟨a, true, false⟩ :: tagRest rest
where
  tagRest : List Nat → List QWord
    | [] => []
    | [a] => [⟨a, false, true⟩]
    | a :: rest => ⟨a, false, false⟩ :: tagRest rest

/-- The queue without its oldest whole item, or without what is left of a partly popped one (R258). -/
def dropItem : List QWord → List QWord
  | [] => []
  | w :: rest => if w.last then rest else dropItem rest

/-- The threshold's source, when FILL rose to THR (R257). -/
def thrCheck (q before : Nat) (s : State) : State :=
  let thr := rget s (F.QUE_q_THR.THR q)
  if thr ≠ 0 ∧ before < thr ∧ thr ≤ qFill (queue s q) then raise pQUE q s else s

/-- Oldest items go until `n` words fit (R258); `fuel` bounds the items there can be. -/
def makeRoom (q n : Nat) : Nat → State → State
  | 0, s => s
  | fuel + 1, s =>
    if qFits s q n || (queue s q).words.isEmpty then s else
    let x := queue s q
    makeRoom q n fuel (s |> setQueue q { x with words := dropItem x.words, lost := true }
      |> inc (F.QUE_q_COUNT.LOST q) |> raise pQUE 8)

/-- A whole item is placed at the tail. -/
def placeItem (q : Nat) (ws : List Nat) (s : State) : State :=
  let x := queue s q
  thrCheck q (qFill x) (setQueue q { x with words := x.words ++ tagItem ws } s)

/-- A refusal of a word or record (R249, R261). -/
def pushRefused (q : Nat) (s : State) : State := s |> inc (F.QUE_q_COUNT2.PUSH_REFUSED q) |> raise pQUE 9

/-- A producer writes a whole item: EVQ and RUBQ overwrite, a nib check's record is refused on a full FLTQ, and the others have
waited until it fits (R249, R258). -/
def pushItem (q : Nat) (ws : List Nat) (s : State) : State :=
  if q = qEV ∨ q = qRUB then placeItem q ws (makeRoom q ws.length (qDepth q) s)
  else if qFits s q ws.length then placeItem q ws s
  else pushRefused q s

/-- Words of the head's item still to pop. -/
def wordsLeft : List QWord → Nat
  | [] => 0
  | w :: rest => if w.last then 1 else 1 + wordsLeft rest

/-- What a pop returns (R256). -/
def popValue (s : State) (q : Nat) : Nat :=
  match (queue s q).words with
  | [] => (queue s q).lastPop
  | w :: _ => w.data

/-- The tags of a pop, as QUE_q_TAG latches them. -/
def setTag (q : Nat) (fst lst blot under flushed lost : Bool) (left : Nat) (s : State) : State :=
  s |> rset (F.QUE_q_TAG.FIRST q) fst.toNat |> rset (F.QUE_q_TAG.END q) lst.toNat |> rset (F.QUE_q_TAG.BLOT q) blot.toNat
    |> rset (F.QUE_q_TAG.UNDERRUN q) under.toNat |> rset (F.QUE_q_TAG.FLUSHED q) flushed.toNat
    |> rset (F.QUE_q_TAG.LOST q) lost.toNat |> rset (F.QUE_q_TAG.LEFT q) left

/-- A read of QUE_q_DATA (R256); `bad` says that the word's parity fails. -/
def popWord (q : Nat) (bad : Bool) (s : State) : State :=
  let x := queue s q
  match x.words with
  | [] => s |> setTag q (on s (F.QUE_q_TAG.FIRST q)) (on s (F.QUE_q_TAG.END q)) (on s (F.QUE_q_TAG.BLOT q)) true
        (on s (F.QUE_q_TAG.FLUSHED q) || x.flushed) (on s (F.QUE_q_TAG.LOST q)) (rget s (F.QUE_q_TAG.LEFT q))
      |> setQueue q { x with flushed := false } |> inc (F.QUE_q_COUNT.UNDERRUNS q)
  | w :: rest => s |> setTag q w.first w.last bad false x.flushed x.lost (wordsLeft x.words - 1)
      |> setQueue q { x with words := rest, lastPop := w.data, flushed := false, lost := false }
      |> whenB bad (fun s => s |> inc (F.QUE_q_COUNT.BLOTS q) |> raise pQUE 7)

/-- A flush of queue `q` (R259). -/
def flushQueue (q : Nat) (s : State) : State :=
  let x := queue s q
  setQueue q { x with words := [], pend := [], draining := x.draining || !x.pend.isEmpty, flushed := true } s
    |> inc (F.QUE_q_COUNT2.FLUSHES q)

/-- The host pushes a word of a CMDQ item; `last` for DATA_END (R249, R250, R259). -/
def cmdPush (v : Nat) (last : Bool) (s : State) : State :=
  let x := queue s qCMD
  if x.draining then
    if last then s |> setQueue qCMD { x with draining := false } |> inc (F.QUE_q_COUNT2.DRAINED qCMD) else s
  else if !qFits s qCMD 1 then
    s |> pushRefused qCMD
      |> setQueue qCMD { x with pend := [], draining := !last }
      |> whenB last (inc (F.QUE_q_COUNT2.DRAINED qCMD))
  else if last then
    thrCheck qCMD (qFill x) (setQueue qCMD { x with words := x.words ++ tagItem (x.pend ++ [v]), pend := [] } s)
  else setQueue qCMD { x with pend := x.pend ++ [v] } s

/-- The words of the head item of CMDQ, as far as it reaches. -/
def headItem : List QWord → List Nat
  | [] => []
  | w :: rest => if w.last then [w.data] else w.data :: headItem rest

/-- The executor takes the head item from CMDQ. -/
def cmdTake (s : State) : State :=
  let x := queue s qCMD
  setQueue qCMD { x with words := dropItem x.words } s

/-- The fault record of a nib check (R86, R255). -/
def nibRecord (nib reason lastPass now : Nat) : List Nat := [2 * 2 ^ 56 + 2 ^ 48 + nib * 256 + reason, lastPass, now]

end Sys2Proof.Machine
end

