-- ==== Sys2Proof/Machine/Round.lean ====
section
/-!
DEFINITION. The rounding and the scaling of the sample path: round half to even (R79, R114 to R117) and its division.
-/

namespace Sys2Proof.Machine

/-- `a / b` for a positive `b`, rounded to nearest, ties to even. -/
def divHalfEven (a : Int) (b : Nat) : Int :=
  if b = 0 then 0 else
  let q := a / (b : Int)
  let r := a % (b : Int)
  if 2 * r < b then q else if 2 * r > b then q + 1 else if q % 2 = 0 then q else q + 1

/-- `x / 2 ^ n`, rounded half to even. -/
def shiftHalfEven (n : Nat) (x : Int) : Int := divHalfEven x (2 ^ n)

end Sys2Proof.Machine
end

