-- ==== Sys2Proof/Machine/NibPool.lean ====
section
/-!
DEFINITION. The nib pool: who is serviceable, the slot table of a stroke, the ladder, the correction, the checks, retirement and
the wear ledger (R72 to R93).
-/

namespace Sys2Proof.Machine

/-! ### Serviceable nibs and the service list (R74) -/

/-- NIB_STAT.STATE of a nib: 0 in service, 1 reserve, 2 parked, 3 retired. -/
def nibState (s : State) (n : Nat) : Nat := rget s (F.NIB_STAT.STATE n)

/-- The service list L, in ascending nib number; nothing is in service before the pool is first built (R89). -/
def serviceList (s : State) : List Nat :=
  if s.nibs.built then indicesWhere 72 (fun n => nibState s n == 0) else []

/-- The reserves, in ascending nib number. -/
def reserveList (s : State) : List Nat :=
  if s.nibs.built then indicesWhere 72 (fun n => nibState s n == 1) else []

/-- N, the serviceable nibs. -/
def nServ (s : State) : Nat := (serviceList s).length + (reserveList s).length

/-- N_in. -/
def nIn (s : State) : Nat := (serviceList s).length

def nibSt (s : State) (n : Nat) : NibSt := mget (fun _ => {}) s.nibs.st n
def setNibSt (n : Nat) (x : NibSt) (s : State) : State :=
  { s with nibs := { s.nibs with st := mput (fun _ => {}) n x s.nibs.st } }

/-! ### The slot table (R73, R78, R81, R91) -/

/-- The numbers a stroke's slot table follows from. -/
structure SlotTable where
  slots : Nat
  fastSlots : Nat
  n : Nat
  nin : Nat
  kept : Nat
  chans : Nat
  rounds : Nat
  dual : Bool
  idle : Nat
  refgRes : Nat
  trim : Nat
  deriving DecidableEq, Repr

/-- The shed order (R91): the listed groups, each at its first place, then those missing, highest first. -/
def shedOrder (s : State) : List Nat :=
  let listed := (List.range 12).map (fun k => rget s (F.NIB_SHED0.ENTRY k))
    ++ (List.range 12).map (fun k => rget s (F.NIB_SHED1.ENTRY k)) ++ (List.range 8).map (fun k => rget s (F.NIB_SHED2.ENTRY k))
  let first := listed.foldl (fun acc g => if acc.contains g then acc else acc ++ [g]) []
  first ++ ((List.range 32).reverse.filter (fun g => !first.contains g))

/-- Whether dual conversion passes R81 but for DUAL_EN. -/
def dualFits (m sl fast n c r : Nat) : Bool :=
  decide (2 ≤ m) && decide (2 * r ≤ fast) && decide (400 * m + 2 * c + 38 ≤ sl * n)

/-- The slot table for a number of serviceable nibs and in-service nibs. -/
def slotTable (s : State) : SlotTable :=
  let m := mLive s
  let sl := (500 * m - 20) / 32
  let fast := min sl 31
  let n := nServ s
  let nin := nIn s
  let g := min 32 ((fast * nin - 9) / 16)
  let c := 16 * g
  let r := ceilDiv c nin
  let dual := on s F.NIB_CTRL.DUAL_EN && dualFits m sl fast n c r
  let used := if dual then 2 * c else c
  let idle := sl * n - used
  let open' := fast * n - used
  let res := min 32 (min (idle - 7) (open' - 1))
  { slots := sl, fastSlots := fast, n := n, nin := nin, kept := g, chans := c, rounds := r, dual := dual, idle := idle,
    refgRes := res, trim := idle - 6 - res }

/-- The groups shed under a slot table, as a bit map. -/
def shedMask (s : State) (t : SlotTable) : Nat := bitsOf ((shedOrder s).take (32 - t.kept))

/-- The ladder step (R90). -/
def ladderStep (s : State) (t : SlotTable) : Nat :=
  if t.kept < 32 then 5
  else if t.trim < 400 * mLive s then 4
  else if t.n ≤ 63 ∧ !dualFits (mLive s) t.slots t.fastSlots t.n t.chans t.rounds then 3
  else if t.n ≤ 63 then 2
  else if t.n ≤ 71 then 1 else 0

/-- TRIM_STATUS.STRETCH: 400M / T in Q16.8, all ones where T is 0 (R112). -/
def stretchOf (m t : Nat) : Nat :=
  if t = 0 then 0xFFFFFF else if 400 * m ≤ t then 0x100 else min 0xFFFFFF ((400 * m * 256 * 2 + t) / (2 * t))

/-- The channels of the slot table in their order of conversion (R75). -/
def fastOrder (s : State) : List Nat :=
  let gs := (List.range 32).filter (fun g => !bitSet s.nibs.shed g)
  let tier (k : Nat) := gs.filter (fun g => rget s (F.NIB_TIER.TIER g) == k)
  ((List.range 4).flatMap tier).flatMap (fun g => (List.range 16).map (fun i => 16 * g + i))

/-- The offset o_s of the rotation (R76). -/
def rotation (s : State) : Nat :=
  if nIn s = 0 then 0 else (if on s F.NIB_CTRL.ROT then s.nibs.lfsr else strokeNow s) % nIn s

/-- One step of the LFSR, polynomial x¹⁶ + x¹⁵ + x¹³ + x⁴ + 1 (R76; log entry 12). -/
def lfsrStep (x : Nat) : Nat :=
  (2 * x + (bit x 15 + bit x 14 + bit x 12 + bit x 3) % 2) % 65536

/-! ### What a nib-slot of the stroke converts (R75 to R78, R82) -/

/-- What a nib-slot is claimed for. -/
inductive Claim where
  | fast (chan : Nat)
  | fastAgain (chan : Nat)
  | check
  | refg (group : Nat)
  | lane (k : Nat)
  | dx
  | trim
  | idle
  deriving DecidableEq, Repr

/-- Values converted in round slot `k` (0 past the last round). -/
def roundCount (t : SlotTable) (k : Nat) : Nat := min t.nin (t.chans - k * t.nin)

/-- Whether the `i`th nib of the rotated service list converts a fast value in slot `k`. -/
def fastUses (t : SlotTable) (k i : Nat) : Bool :=
  if k < t.rounds then decide (i < roundCount t k)
  else if t.dual && decide (k < 2 * t.rounds) then
    decide ((i + t.nin - t.nin / 2) % t.nin < roundCount t (k - t.rounds))
  else false

/-- Free nib-slots of slot `k` among the first `i` places of its order. -/
def freeBelow (t : SlotTable) (k i : Nat) : Nat :=
  ((List.range (min i t.nin)).filter (fun j => !fastUses t k j)).length + (i - t.nin)

/-- Free nib-slots before place `i` of slot `k`, in the claim order of R78. -/
def freeRank (t : SlotTable) (k i : Nat) : Nat :=
  let busy := if t.dual then 2 * t.rounds else t.rounds
  (List.range (min k busy)).foldl (fun a j => a + freeBelow t j t.n) 0 + (k - busy) * t.n + freeBelow t k i

/-- A nib's place in a slot's order: its place in the rotated service list, or after it for a reserve. -/
def nibPlace (s : State) (nib : Nat) : Option Nat :=
  let l := serviceList s
  match l.findIdx? (· == nib) with
  | some j => some ((j + l.length - rotation s) % l.length)
  | none => match (reserveList s).findIdx? (· == nib) with
    | some j => some (l.length + j)
    | none => none

/-- The nib that the check of this stroke takes: the first serviceable one from the pointer on, else the lowest (R84). -/
def checkedNib (s : State) : Option Nat :=
  let all := indicesWhere 72 (fun n => (nibState s n == 0 || nibState s n == 1) && s.nibs.built)
  match all.find? (fun n => decide (s.nibs.checkNext ≤ n)) with
  | some n => some n
  | none => all.head?

/-- The first slot in which the nib at place `i` is free. -/
def firstFree (t : SlotTable) (i : Nat) : Nat :=
  if t.nin ≤ i then 0 else
  match (List.range (2 * t.rounds + 1)).find? (fun k => !fastUses t k i) with
  | some k => k
  | none => 0

/-- The groups whose REFG conversions this stroke makes, in order (R78). -/
def refgOrder (s : State) (t : SlotTable) : List Nat :=
  (((List.range 32).map (fun j => (s.nibs.refgFrom + j) % 32)).filter (hasBridge s)).take t.refgRes

/-- What nib `nib` converts in slot `k` of the present stroke. -/
def claimOf (s : State) (nib k : Nat) : Claim :=
  let t := slotTable s
  match nibPlace s nib with
  | none => .idle
  | some i =>
    if t.slots ≤ k then .idle
    else if i < t.nin ∧ fastUses t k i then
      if k < t.rounds then .fast (nth 0 (fastOrder s) (k * t.nin + i))
      else .fastAgain (nth 0 (fastOrder s) ((k - t.rounds) * t.nin + (i + t.nin - t.nin / 2) % t.nin))
    else
      let chk := (checkedNib s).bind (fun c => (nibPlace s c).map (fun ci => (firstFree t ci, ci)))
      if chk = some (k, i) then .check
      else
        let before := match chk with
          | some (ck, ci) => if ck < k ∨ (ck = k ∧ ci < i) then 1 else 0
          | none => 0
        let r := freeRank t k i - before
        if r < t.refgRes then
          match (refgOrder s t)[r]? with
          | some g => .refg g
          | none => .idle
        else if r < t.refgRes + 4 then .lane (r - t.refgRes)
        else if r = t.refgRes + 4 then .dx
        else .trim

/-! ### The correction of step 4 (R79) -/

/-- The decisions' weighted sum. -/
def weigh (s : State) (nib d : Nat) : Int :=
  (List.range 22).foldl (fun acc i =>
    let w : Nat := mget zeroAt s.trim.wt (22 * nib + i)
    acc + (if bitSet d i then (w : Int) else -(w : Int))) 0

/-- The corrected 24-bit value and whether it lay beyond full scale. -/
def correct (s : State) (nib d : Nat) : Int × Bool :=
  let acc := weigh s nib d - rgetI s (F.NIB_CORR.OFS nib)
  let y := shiftHalfEven 28 (acc * (rget s (F.NIB_CORR.GAIN nib) : Int))
  let c := clampSigned 24 y
  (c, c != y)

/-! ### Retirement (R84, R85, R87) -/

/-- A retirement, parking or unparking is decided; it takes effect under R85. -/
def decideNib (nib op reason : Nat) (s : State) : State :=
  if s.nibs.retiring.any (fun x => x.1 == nib) then s
  else { s with nibs := { s.nibs with retiring := s.nibs.retiring ++ [(nib, op, reason)] } }

/-- CRC-8, polynomial 0x07, over the low `n` bits of `v`, highest bit first. -/
def crc8 (v : Nat) : Nat → Nat → Nat
  | 0, c => c
  | n + 1, c =>
    let b := (bit c 7 + bit v n) % 2
    let c' := (2 * c) % 256
    crc8 v n (if b = 1 then c' ^^^ 0x07 else c')

/-- Die temperature of DX12 in whole °C, signed, for a ledger entry (R88, R93); 0 until DX12 has a result. -/
def dieTemp (s : State) : Int :=
  if bitSet s.nibs.dxHas 12 then (mget (fun _ => 0) s.nibs.dxVal 12 * 4096 * 100 / (2 ^ 31 : Nat) - 273150) / 1000 else 0

/-- TAI seconds for a ledger entry; 0 when the hub holds no valid time (R88). -/
def ledgerSecs (s : State) : Nat :=
  if s.tsu.valid then (s.tsu.t / (2 ^ 48 * 1000000000)) % 2 ^ 32 else 0

/-- A ledger entry (R88), its CRC over bits [63:8]. -/
def ledgerEntry (kind unit reason : Nat) (s : State) : Nat :=
  let body := kind * 2 ^ 52 + (unit % 256) * 2 ^ 44 + (reason % 16) * 2 ^ 40 + ofInt 8 (dieTemp s) * 2 ^ 32 + ledgerSecs s
  body * 256 + crc8 body 56 0

/-- An entry is put on its way to the ledger. -/
def ledgerPut (kind unit reason : Nat) (s : State) : State :=
  { s with nibs := { s.nibs with ledgerQ := s.nibs.ledgerQ ++ [{ entry := ledgerEntry kind unit reason s }] } }

/-- A ledger write lost, or an entry skipped (R89, R94). -/
def ledgerLost (s : State) : State := s |> inc F.NIB_COUNT.LEDGER_LOST |> raise pNIB 4

/-- Reserves join the list while it is short of min(N, 64); `fuel` bounds them. A joining nib that still has its seeds asks for a
trim run (R74, R85). -/
def fillService : Nat → State → State
  | 0, s => s
  | fuel + 1, s =>
    match reserveList s with
    | [] => s
    | r :: _ => if nIn s < 64 then
        fillService fuel (s |> rset (F.NIB_STAT.STATE r) 0 |> raise pNIB 1
          |> whenB (on s (F.NIB_STAT.SEEDED r)) (fun s => { s with nibs := { s.nibs with joinSeeded := true } }))
      else s

/-- The pool's registers follow from its slot table (R90, R96), with the events of what changed (R94). `n` is the stroke from
which the table holds. -/
def showPool (n : Nat) (s : State) : State :=
  let t := slotTable s
  let step := ladderStep s t
  let shed := shedMask s t
  let stretch := stretchOf (mLive s) t.trim
  s |> whenB (step != rget s F.NIB_STATE.LADDER) (fun s => s |> raise pNIB 2 |> rset F.NIB_STATE.LADDER_STROKE n)
    |> whenB (shed != s.nibs.shed) (raise pNIB 5)
    |> whenB (t.dual != on s F.NIB_STATE.DUAL_ON) (raise pNIB 6)
    |> whenB (stretch != rget s F.TRIM_STATUS.STRETCH) (raise pTRIM 5)
    |> rset F.NIB_STATE.SERVICEABLE t.n |> rset F.NIB_STATE.IN_SERVICE t.nin |> rset F.NIB_STATE.ROUNDS t.rounds
    |> rset F.NIB_STATE.DUAL_ON t.dual.toNat |> rset F.NIB_STATE.LADDER step |> rset F.NIB_STATE.KEPT t.kept
    |> rset F.NIB_STATE.RESERVES (t.n - t.nin)
    |> rset F.NIB_SLOTS.IDLE (min 0xFFFF t.idle) |> rset F.NIB_SLOTS.REFG_RES t.refgRes
    |> rset F.NIB_SLOTS.TRIM (min 0xFFFF t.trim) |> rset F.NIB_SLOTS.SLOTS (min 0xFFFF t.slots)
    |> rset F.NIB_SVC0.SVC_LO (bitsOf (indicesWhere 64 (fun i => nibState s i == 0 || nibState s i == 1)))
    |> rset F.NIB_SVC1.SVC_HI (bitsOf (indicesWhere 8 (fun i => nibState s (64 + i) == 0 || nibState s (64 + i) == 1)))
    |> rset F.TRIM_STATUS.STRETCH stretch
    |> wear F.MON_WEAR.NIB_STEP step
    |> fun s => { s with nibs := { s.nibs with shed := shed } }

/-- The pool is built from the nibs' states: used once the ledger has been read (R89). -/
def buildPool (s : State) : State :=
  let good := indicesWhere 72 (fun n => nibState s n != 3)
  { s with nibs := { s.nibs with built := true } }
    |> forAll (good.drop 64) (fun n => rset (F.NIB_STAT.STATE n) 1)
    |> showPool (strokeNow s)

/-- A failing check, under any reason of R84, writes a fault record; with the retirement condition met it retires the nib, else it
raises NIB SRC[3] (R84, R86, R94; log entry 47). -/
def checkFailed (nib reason : Nat) (retire : Bool) (s : State) : State :=
  s |> pushItem qFLT (nibRecord nib reason (nibSt s nib).lastPass (strokeNow s))
    |> whenB retire (decideNib nib 1 reason) |> whenB (!retire) (raise pNIB 3)

/-- A conversion's decisions left the redundancy range: it is counted, and more than RDO_LIM of them in 2²⁰ conversions retire the
nib (R84). -/
def redundancy (nib : Nat) (s : State) : State :=
  let x := nibSt s nib
  let near := (x.convs :: x.rdoAt).filter (fun c => decide (x.convs < c + 2 ^ 20))
  s |> setNibSt nib { x with rdoAt := near } |> inc (F.NIB_STAT.RDO_CNT nib)
    |> checkFailed nib 3 (decide (rget s F.NIB_CHECK.RDO_LIM < near.length))

/-- A parity failure of a nib's weights; the second since power-up retires it (R84). -/
def weightParity (nib : Nat) (s : State) : State :=
  let x := nibSt s nib
  s |> setNibSt nib { x with parity := x.parity + 1 } |> checkFailed nib 5 (decide (1 ≤ x.parity))

/-- Insertion into a list of integers in rising order. -/
def insertInt (x : Int) : List Int → List Int
  | [] => [x]
  | a :: rest => if x ≤ a then x :: a :: rest else a :: insertInt x rest

/-- The median of R84: with an even number of results the lower of the two in the middle. -/
def medianInt (xs : List Int) : Int :=
  let ys := xs.foldr insertInt []
  nth 0 ys ((ys.length - 1) / 2)

/-- A check's outcome is counted, recorded and, at CONSEC failures in a row, retires the nib (R84, R86, R94). -/
def checkOutcome (nib reason : Nat) (fails : Fld) (failed : Bool) (s : State) : State :=
  if failed then
    let k := min 15 (rget s fails + 1)
    s |> rset fails k |> checkFailed nib reason (decide (rget s F.NIB_CHECK.CONSEC ≤ k))
  else s |> rset fails 0 |> setNibSt nib { nibSt s nib with lastPass := strokeNow s }

/-- The check conversion of a nib (R84). -/
def nibCheck (nib : Nat) (y : Int) (s : State) : State :=
  let s := { s with nibs := { s.nibs with checkDone := true } }
  if s.nibs.checkGnd then
    s |> rset (F.NIB_STAT.GND_DEV nib) (ofInt 16 (clampSigned 16 y))
      |> checkOutcome nib 2 (F.NIB_STAT.GND_FAILS nib) (decide (rget s F.NIB_CHECK.GND_LIM < y.natAbs))
  else
    let s := setNibSt nib { nibSt s nib with dx00 := some y } s
    let xs := (serviceList s ++ reserveList s).filterMap (fun n => (nibSt s n).dx00)
    let dev := y - medianInt xs
    s |> rset (F.NIB_STAT.REF_DEV nib) (ofInt 16 (clampSigned 16 dev))
      |> checkOutcome nib 1 (F.NIB_STAT.REF_FAILS nib) (decide (rget s F.NIB_CHECK.REF_LIM < dev.natAbs))

/-- At a strike the check's pointer passes the nib that was checked; after the last one the next pass takes the other kind (R84),
the REFG service moves on (R78) and the LFSR steps (R76). -/
def strikePool (s : State) : State :=
  let all := serviceList s ++ reserveList s
  let nb := s.nibs
  let moved := match checkedNib s with
    | some c => if nb.checkDone then
        if all.any (fun n => decide (c < n)) then { nb with checkNext := c + 1, checkDone := false }
        else { nb with checkNext := 0, checkDone := false, checkGnd := !nb.checkGnd }
      else nb
    | none => nb
  { s with nibs := { moved with refgFrom := nb.refgNext, lfsr := lfsrStep nb.lfsr } }

/-- A retirement, parking or unparking takes effect on stroke `n` (R85, R87). -/
def nibEffect (n nib op reason : Nat) (s : State) : State :=
  let s := { s with nibs := { s.nibs with retiring := s.nibs.retiring.filter (fun x => x.1 != nib) } }
  let st := nibState s nib
  if op = 1 ∧ st ≠ 3 then
    s |> rset (F.NIB_STAT.STATE nib) 3 |> rset (F.NIB_STAT.REASON nib) reason |> raise pNIB 0
      |> ledgerPut 1 nib reason |> fillService 72 |> showPool n
  else if op = 2 ∧ st < 2 then s |> rset (F.NIB_STAT.STATE nib) 2 |> fillService 72 |> showPool n
  else if op = 3 ∧ st = 2 then s |> rset (F.NIB_STAT.STATE nib) 1 |> fillService 72 |> showPool n
  else s

/-- The request of NIB_RETIRE (R87): acted on, refused and counted, or nothing. -/
def nibRequest (nib op key : Nat) (s : State) : State :=
  let st := nibState s nib
  if key ≠ 0x9B1D then inc F.NIB_COUNT.RETIRE_REFUSED s
  else if op = 0 then s
  else if nib < 72 ∧ ((op = 1 ∧ st ≠ 3) ∨ (op = 2 ∧ st < 2) ∨ (op = 3 ∧ st = 2)) then decideNib nib op (if op = 1 then 6 else 0) s
  else inc F.NIB_COUNT.RETIRE_REFUSED s

/-- The next empty slot of the ledger: entries are written in order (R89). -/
def ledgerNext : Table Nat → Nat
  | [] => 0
  | (k, _) :: m => max (k + 1) (ledgerNext m)

/-- NIB_LEDGER_SEL and MON_WEAR follow the ledger. -/
def showLedger (s : State) : State :=
  let n := ledgerNext s.nibs.ledger
  let full := if 512 ≤ n then 1 else 0
  s |> rset F.NIB_LEDGER_SEL.USED n |> rset F.NIB_LEDGER_SEL.FULL full
    |> wear F.MON_WEAR.LEDGER_USED n |> wear F.MON_WEAR.LEDGER_FULL full

/-- What the ledger holds after the write of `v` in its next empty slot; a full ledger stays as it is. -/
def ledgerPlus (v : Nat) (m : Table Nat) : Table Nat :=
  if ledgerNext m < 512 then mput zeroAt (ledgerNext m) (v % 2 ^ 64) m else m

/-- An entry that the ledger could not take is lost; a lamp string's shows on LDU (R89, R335). -/
def ledgerFailed (q : LedgerReq) (s : State) : State := s |> ledgerLost |> whenB (slice 60 4 q.entry == 4) (raise pLDU 8)

/-- A ledger write ends: what the array now holds at the slot, and whether it reads back as written (R89). -/
def ledgerDone (stored : Nat) (s : State) : State :=
  match s.nibs.ledgerQ with
  | [] => s
  | q :: rest =>
    let full := decide (512 ≤ ledgerNext s.nibs.ledger)
    let s := { s with nibs := { s.nibs with ledgerQ := rest, ledger := ledgerPlus stored s.nibs.ledger } }
    if full then ledgerFailed q s
    else
      let s := s |> showLedger |> whenB (decide (512 ≤ ledgerNext s.nibs.ledger)) (raise pNIB 4)
      if stored = q.entry then s
      else if q.retry then ledgerFailed q s
      else { s with nibs := { s.nibs with ledgerQ := { q with retry := true } :: s.nibs.ledgerQ } }

end Sys2Proof.Machine
end

