-- ==== Sys2Proof/Machine/TrimRun.lean ====
section
/-!
DEFINITION. Trim: its triggers, the front-end correlation, the solver's limits and the commit of its results (R97 to R112).
The arming that the solver makes (R107) is in Solver.lean, after the commit sets.
-/

namespace Sys2Proof.Machine

/-- W, the trim nib-slots of a run (R100). -/
abbrev trimW : Nat := 419430400

/-- What the age of a correction reads as until a run measures it: 255, a seed (R112). -/
def ageSeed (_ : Nat) : Nat := 255

/-- TRIM_STATUS.STATE. -/
def trimState (s : State) : Nat := rget s F.TRIM_STATUS.STATE

/-- A run is in progress (R98). -/
def trimBusy (s : State) : Bool := trimState s == 1 || trimState s == 2

/-- Strokes in a number of seconds: 1,024,000 / M each second. -/
def strokesOfSec (sec : Nat) (s : State) : Nat := ceilDiv (sec * 1024000) (mLive s)

/-- MIN_GAP_S still holds back causes 1 to 3 (R98). -/
def trimGap (s : State) : Bool :=
  match s.trim.lastEnd with
  | none => false
  | some e => decide (strokeNow s < e + strokesOfSec (rget s F.TRIM_SCHED.MIN_GAP_S) s)

/-- A trigger is held: the cause kept is the first one's (R98). -/
def trimHold (cause : Nat) (s : State) : State :=
  if on s F.TRIM_STATUS.PENDING then s
  else { rset F.TRIM_STATUS.PENDING 1 s with trim := { s.trim with held := cause } }

/-- A trigger of a cause arrives (R98). -/
def trimTrigger (cause : Nat) (s : State) : State :=
  if trimBusy s then trimHold cause s
  else if cause ≤ 3 ∧ trimGap s then trimHold cause s
  else if s.trim.due.isSome then s
  else { rset F.TRIM_STATUS.PENDING 0 s with trim := { s.trim with due := some cause } }

/-- After a run has ended, a held trigger starts the next one if nothing holds it back (R98). -/
def trimNext (s : State) : State :=
  if on s F.TRIM_STATUS.PENDING ∧ ¬(s.trim.held ≤ 3 ∧ trimGap s) then
    { rset F.TRIM_STATUS.PENDING 0 s with trim := { s.trim with due := some s.trim.held } }
  else s

/-! ### Temperatures (R93, R98, R99) -/

/-- A DX temperature in 0.25 °C, as TRIM_TEMPREF holds it: T = 100 V − 273.15, V on the Q1.31 scale of 4.096 V. -/
def quarterDeg (v : Int) : Nat := ofInt 10 (divHalfEven (409600 * v - 273150 * (2 ^ 31 : Nat)) (250 * 2 ^ 31))

/-- Whether a temperature differs from a reference by more than DELTA tenths of a degree. -/
def tempOff (v : Int) (ref delta : Nat) : Bool :=
  decide (((2 ^ 31 : Nat) * 100 * delta : Int) < ((409600 * v - (2 ^ 31 : Nat) * (273150 + 250 * asInt 10 ref)).natAbs : Int))

/-- Cause 1, as a result of DX channel `d` arrives (R98). -/
def trimTempTrigger (d : Nat) (v : Int) (s : State) : State :=
  let i := d - 10
  let ref := rget s (F.TRIM_TEMPREF.TEMP i)
  let delta := rget s F.TRIM_TRIG.DELTA
  if 10 ≤ d ∧ bitSet (rget s F.TRIM_TRIG.SENSORS) i ∧ ref ≠ 0x200 ∧ delta ≠ 0 ∧ tempOff v ref delta then trimTrigger 1 s else s

/-- A sensor without a reference takes its first result that arrives during the run (R99). -/
def trimTempRef (d : Nat) (v : Int) (s : State) : State :=
  let i := d - 10
  if 10 ≤ d ∧ trimBusy s ∧ bitSet (rget s F.TRIM_TRIG.SENSORS) i ∧ nth 0 s.trim.temps i = 0x200 then
    { s with trim := { s.trim with temps := modNth (fun _ => quarterDeg v) s.trim.temps i } }
  else s

/-- Cause 2, and the board value of a run, as the result of slow channel `c` arrives (R98, R99). -/
def trimBoard (c : Nat) (v : Int) (s : State) : State :=
  if on s F.TRIM_TRIG.BOARD_EN ∧ rget s F.TRIM_TRIG.BOARD_CH = c then
    let s := if trimBusy s && s.trim.board.isNone then { s with trim := { s.trim with board := some v } } else s
    match s.trim.boardRef with
    | none => s
    | some b => if rget s F.TRIM_BOARD.BOARD_DELTA < (v - b).natAbs then trimTrigger 2 s else s
  else s

/-! ### The correlation (R100, R101, R103) -/

def corrOf (s : State) (c : Nat) : Corr := mget (fun _ => {}) s.trim.corr c
def setCorr (c : Nat) (x : Corr) (s : State) : State :=
  { s with trim := { s.trim with corr := mput (fun _ => {}) c x s.trim.corr } }

/-- Whether channel `c` is swapped and injected on the present stroke: its group is correlated, in the front-end part (R100). -/
def corrOn (s : State) (c : Nat) : Bool :=
  trimState s == 1 && s.trim.feOn && bitSet s.trim.grp (groupOf c) && rget s (fcMode c) != 3

/-- A trim sign as a number. -/
def signOf (neg : Bool) : Int := if neg then -1 else 1

/-- V_INJ on the Q1.31 scale: 1/1024 of the range's full scale (R100). -/
def vInj (rng : Nat) : Int := (2 ^ (21 - 2 * rng) : Nat)

/-- The second difference of a sign sequence at stroke `k`. -/
def diff2 (f : Nat → Bool) (k : Nat) : Int := signOf (f k) - 2 * signOf (f (k - 1)) + signOf (f (k - 2))

/-- The step-5 value of channel `c` on stroke `k` enters its sums (R100, R101). -/
def correlate (k c : Nat) (y : Int) (flags : Nat) (s : State) : State :=
  if !corrOn s c then s else
  let x := corrOf s c
  let clean := if flags = 0 then x.clean + 1 else 0
  let e := y - 2 * x.y1 + x.y2
  let x' := if 3 ≤ clean then
      { x with so := x.so + e * diff2 (Config.swapSign c) k, st := x.st + e * diff2 (Config.injSign c) k,
               ss := x.ss + e * e, n := x.n + 1 } else x
  setCorr c { x' with y1 := y, y2 := x.y1, clean := min clean 3 } s

/-- A commit that changes a channel's range or mode discards its sums (R103). -/
def corrReset (c : Nat) (s : State) : State := setCorr c {} s

/-! ### Start and end of a run (R99, R100, R104) -/

/-- A run starts (R98 to R100, R104, R111). -/
def trimStart (s : State) : State :=
  match s.trim.due with
  | none => s
  | some cause =>
    let n := strokeNow s
    let sens := rget s F.TRIM_TRIG.SENSORS
    let temps := (List.range 6).map (fun i =>
      if bitSet sens i && bitSet s.nibs.dxHas (10 + i) then quarterDeg (mget (fun _ => 0) s.nibs.dxVal (10 + i)) else 0x200)
    let bch := rget s F.TRIM_TRIG.BOARD_CH
    let board : Option Int := if on s F.TRIM_TRIG.BOARD_EN && rget s (F.SLOW_STATUS.COUNT bch) != 0
      then some (rgetI s (F.SLOW_STATUS.VALUE bch)) else none
    let sched := if cause = 3 ∨ (cause = 6 ∧ !s.trim.committed) then some n else s.trim.schedFrom
    let lane (l : Lane) : Lane := if on s F.TRIM_CTRL.LANE_EN then
        (if l.stage = .idle then { l with stage := .cal, calLeft := 12 } else { l with calDue := true }) else l
    let nibs := s.nibs.st.map (fun x => (x.1, { x.2 with trimVals := 0 }))
    { s with
        trim := { s.trim with due := none, start := n, runNo := s.trim.runNo + 1, temps := temps, board := board,
                              schedFrom := sched, corr := [], feOn := on s F.TRIM_CTRL.FE_EN,
                              feLen := if on s F.TRIM_CTRL.FE_EN then 2 ^ rget s F.TRIM_FE.FE_LOG2 else 0,
                              hold := on s F.TRIM_CTRL.HOLD, grp := rget s F.TRIM_FEGRP.GRP_EN }
        lanes := (List.range 4).foldl (fun m k => mput (fun _ => {}) k (lane (mget (fun _ => {}) m k)) m) s.lanes
        nibs := { s.nibs with st := nibs.filter (fun x => x.2 != {}) } }
      |> rset F.TRIM_STATUS.STATE 1 |> rset F.TRIM_STATUS.CAUSE cause |> inc F.TRIM_COUNT.RUNS |> raise pTRIM 0
      |> rset F.TRIM_PROGRESS.NIB_DONE 0 |> rset F.TRIM_PROGRESS.FE_DONE 0

/-- Trim's part of a strike: the front-end part is one stroke further on (R112). -/
def strikeTrim (s : State) : State :=
  let s := { s with trim := { s.trim with used := 0 } }
  if trimState s = 1 ∧ s.trim.feOn ∧ s.trim.start < strokeNow s ∧ rget s F.TRIM_PROGRESS.FE_DONE < s.trim.feLen then
    inc F.TRIM_PROGRESS.FE_DONE s else s

/-- A trim conversion of nib `nib` ends; trim uses at most 400M of its nib-slots in a stroke (R100). -/
def trimSlot (nib : Nat) (s : State) : State :=
  if trimState s = 1 ∧ s.trim.used < 400 * mLive s then
    { s with trim := { s.trim with used := s.trim.used + 1 } }
      |> rset F.TRIM_PROGRESS.NIB_DONE (min trimW (rget s F.TRIM_PROGRESS.NIB_DONE + 1))
      |> setNibSt nib { nibSt s nib with trimVals := (nibSt s nib).trimVals + 1 }
  else s

/-- The state a run leaves behind when results are staged (R107, R108, R110): 3, which a read shows as 4 while the set is armed. -/
def trimRest (s : State) : Nat := if s.trim.staged.isSome then 3 else 0

/-- A run goes into TRIM_HIST, newest first (R112). -/
def trimHist (outcome : Nat) (s : State) : State :=
  let shift (i : Nat) (s : State) : State :=
    s |> rset (F.TRIM_HIST.OUTCOME (i + 1)) (rget s (F.TRIM_HIST.OUTCOME i))
      |> rset (F.TRIM_HIST.CAUSE (i + 1)) (rget s (F.TRIM_HIST.CAUSE i))
      |> rset (F.TRIM_HIST.STRETCH (i + 1)) (rget s (F.TRIM_HIST.STRETCH i))
      |> rset (F.TRIM_HIST.COMMIT_LO (i + 1)) (rget s (F.TRIM_HIST.COMMIT_LO i))
  { s with trim := { s.trim with staged := s.trim.staged.map (fun g => { g with hist := g.hist + 1 }) } }
    |> forAll [6, 5, 4, 3, 2, 1, 0] shift
    |> rset (F.TRIM_HIST.OUTCOME 0) outcome |> rset (F.TRIM_HIST.CAUSE 0) (rget s F.TRIM_STATUS.CAUSE)
    |> rset (F.TRIM_HIST.STRETCH 0) (rget s F.TRIM_STATUS.STRETCH) |> rset (F.TRIM_HIST.COMMIT_LO 0) 0
    |> rset F.TRIM_LAST.OUTCOME outcome

/-- The end of a run with an outcome: it rests, its end is noted, and a held trigger may start the next (R98). -/
def trimEnd (outcome : Nat) (s : State) : State :=
  s |> trimHist outcome |> rset F.TRIM_STATUS.STATE (trimRest s)
    |> (fun s => { s with trim := { s.trim with lastEnd := some (strokeNow s), feOn := false } }) |> trimNext

/-- ABORT on a running or solving run (R110). -/
def trimAbortRun (s : State) : State := s |> inc F.TRIM_COUNT.ABORTED |> raise pTRIM 6 |> trimEnd 6

/-- Trim as the pool changes: the STRETCH is shown by the pool; a run is aborted when N falls to 0 (R110), and a joining reserve
with its seeds is cause 5 (R85, R98). -/
def trimPool (s : State) : State :=
  let s := if s.nibs.joinSeeded then trimTrigger 5 { s with nibs := { s.nibs with joinSeeded := false } } else s
  if trimBusy s && nServ s == 0 then trimAbortRun s else s

/-! ### Limits (R102, R105, R106) -/

/-- |x| · 10⁶ ≤ ppm · full. -/
def withinPpm (x : Int) (ppm : Nat) (full : Nat) : Bool := decide (x.natAbs * 1000000 ≤ ppm * full)

/-- Whether step limits apply: not on the first run after power-up, nor to a seed (R105). -/
def stepApplies (s : State) (seed : Bool) : Bool := decide (1 < s.trim.runNo) && !seed

/-- A nib's result passes its three limits (R105). -/
def nibPasses (s : State) (r : NibResult) : Bool :=
  let o := asInt 24 r.ofs
  let step := stepApplies s (on s (F.NIB_STAT.SEEDED r.nib))
  decide (o.natAbs ≤ 64 * rget s F.TRIM_LIM_NIB.OFS_MAX)
    && (!step || decide ((o - rgetI s (F.NIB_CORR.OFS r.nib)).natAbs ≤ 64 * rget s F.TRIM_LIM_NIB.OFS_STEP))
    && withinPpm ((r.gain : Int) - (2 ^ 22 : Nat)) (rget s F.TRIM_LIM_NIB.GAIN_MAX) (2 ^ 22)
    && (!step || withinPpm ((r.gain : Int) - rget s (F.NIB_CORR.GAIN r.nib)) (rget s F.TRIM_LIM_NIB.GAIN_STEP) (2 ^ 22))
    && decide (r.lin ≤ rget s F.TRIM_LIM_LIN.LIN_MAX)

/-- Whether a nib has converted its share; a nib short of 2²⁰ trim values is incomplete and keeps its live values (R100). -/
def nibComplete (s : State) (nib : Nat) : Bool := decide (2 ^ 20 ≤ (nibSt s nib).trimVals)

/-- A front-end or lane result passes (R105); `i` is 4 × entry + range. -/
def fePasses (s : State) (i : Nat) (ofs : Int) (gain : Nat) : Bool :=
  let full := 2 ^ (31 - 2 * (i % 4))
  let step := stepApplies s (mget ageSeed s.trim.age i == 255)
  withinPpm ofs (rget s F.TRIM_LIM_FE.OFS_MAX) full
    && (!step || withinPpm (ofs - asInt 32 (mget zeroAt s.trim.feOfs i)) (rget s F.TRIM_LIM_FE.OFS_STEP) full)
    && withinPpm ((gain : Int) - (2 ^ 22 : Nat)) (rget s F.TRIM_LIM_FE.GAIN_MAX) (2 ^ 22)
    && (!step || withinPpm ((gain : Int) - (mget zeroAt s.trim.feGain i : Nat)) (rget s F.TRIM_LIM_FE.GAIN_STEP) (2 ^ 22))

/-- Whether a channel's sums count as measured (R102): enough samples, and standard errors within SE_GAIN and SE_OFS. -/
def corrMeasured (s : State) (c : Nat) : Bool :=
  let x := corrOf s c
  let rng := rget s (fcRange c)
  let lim (ppm : Nat) (full : Int) : Bool :=
    decide (x.ss * 1000000000000 ≤ ((ppm * ppm : Nat) : Int) * full * full * ((6 * x.n * x.n : Nat) : Int))
  decide (s.trim.feLen ≤ 4 * x.n) && decide (0 < x.n) && lim (rget s F.TRIM_FE.SE_GAIN) (vInj rng)
    && lim (rget s F.TRIM_FE.SE_OFS) (2 ^ (31 - 2 * rng) : Nat)

/-- The new offset and gain of a channel from its sums (R100): ofs = so / 6n added to the live one, gain = g_fe / (1 + st / (6 n v_inj)). -/
def corrResult (s : State) (c : Nat) : Int × Nat :=
  let x := corrOf s c
  let rng := rget s (fcRange c)
  let i := 4 * c + rng
  let base : Int := ((6 * x.n : Nat) : Int) * vInj rng
  let gfe : Nat := mget zeroAt s.trim.feGain i
  (asInt 32 (mget zeroAt s.trim.feOfs i) + divHalfEven x.so (6 * x.n),
   (divHalfEven ((gfe : Int) * base) (base + x.st).toNat).toNat)

/-- An excitation source's result passes (R105); a source whose ICODE is 0 is judged by its compliance alone (R104). -/
def excPasses (s : State) (r : ExcResult) : Bool :=
  let nom := 10000 * rget s (F.EXC_CFG.ICODE r.src)
  let live := rget s (F.EXC_MEAS.I_NA r.src)
  if nom = 0 then r.compl else
  r.compl && withinPpm ((r.iNa : Int) - nom) (rget s F.TRIM_LIM_EXC.I_MAX) nom
    && (!stepApplies s (live == 0) || withinPpm ((r.iNa : Int) - live) (rget s F.TRIM_LIM_EXC.I_STEP) nom)

/-- The commit of staged results on stroke `n` (R99, R107, R112). -/
def trimCommit (n : Nat) (s : State) : State :=
  match s.trim.staged with
  | none => s
  | some g =>
    let h := g.hist
    { s with trim := { s.trim with
        staged := none, committed := true
        boardRef := g.board
        schedFrom := some (max g.start (s.trim.schedFrom.getD 0))
        wt := g.wts.foldl (fun m x => mput zeroAt x.1 x.2 m) s.trim.wt
        feOfs := g.fe.foldl (fun m x => mput zeroAt x.1 x.2.1 m) s.trim.feOfs
        feGain := g.fe.foldl (fun m x => mput zeroAt x.1 x.2.2 m) s.trim.feGain
        age := g.fe.foldl (fun m x => mput ageSeed x.1 0 m) s.trim.age } }
      |> forAll g.nibs (fun x s => s |> rset (F.NIB_CORR.OFS x.1) x.2.1 |> rset (F.NIB_CORR.GAIN x.1) x.2.2.1
          |> rset (F.NIB_CORR.LIN_RES x.1) x.2.2.2 |> rset (F.NIB_STAT.SEEDED x.1) 0)
      |> forAll g.exc (fun x s => s |> rset (F.EXC_MEAS.I_NA x.1) x.2 |> rset (F.EXC_MEAS.TRIM_STROKE x.1) n)
      |> forAll (List.range 6) (fun i => rset (F.TRIM_TEMPREF.TEMP i) (nth 0x200 g.temps i))
      |> rset F.TRIM_LAST.COMMIT_LO n
      |> whenB (decide (h < 8)) (rset (F.TRIM_HIST.COMMIT_LO h) n)
      |> whenB (!trimBusy s) (rset F.TRIM_STATUS.STATE 0)
      |> raise pTRIM 2

end Sys2Proof.Machine
end

