-- ==== Sys2Proof/Machine/Filter.lean ====
section
/-!
DEFINITION. The corrected sample, the coarse path and the filter engine (R113 to R131, R433, R434).
-/

namespace Sys2Proof.Machine

/-! ### The response ROM (R119) and the descriptors (R121) -/

/-- The header of a ROM response: taps, ratio, non-zero taps, group delay in 1/256 input sample. -/
structure RomHead where
  n : Nat
  d : Nat
  nz : Nat
  gd : Nat
  deriving DecidableEq, Repr

/-- The ROM's headers, as R119 lists the responses; the group delays in 1/256 sample. -/
def romHead (i : Nat) : RomHead :=
  if i < 8 then
    let n := nth 0 [7, 11, 15, 23, 31, 43, 63, 95] i
    ⟨n, 2, nth 0 [5, 7, 9, 13, 17, 23, 33, 49] i, 256 * ((n - 1) / 2)⟩
  else if i < 24 then
    let n := nth 0 [37, 73, 109, 219, 73, 147, 219, 437, 147, 291, 437, 873, 291, 583, 873, 1747] (i - 8)
    ⟨n, 2 ^ ((i - 8) / 4 + 1), n, 256 * ((n - 1) / 2)⟩
  else if i < 32 then
    let n := nth 0 [73, 219, 147, 437, 291, 873, 583, 1747] (i - 24)
    ⟨n, 2 ^ ((i - 24) / 2 + 1), n, nth 0 [2400, 5568, 4768, 11136, 9536, 22272, 19072, 44544] (i - 24)⟩
  else if i < 38 then ⟨2047, 4, 2047, 256 * 1023⟩
  else if i < 40 then ⟨511, 1, 511, 256 * 255⟩
  else
    let d := nth 0 [2, 4, 5, 8, 10, 16, 25, 50] (i - 40)
    ⟨d, d, d, 128 * (d - 1)⟩

/-- FILL of a single ROM stage: ⌈N / D⌉ − 1. -/
def romFill (i : Nat) : Nat := ceilDiv (romHead i).n (romHead i).d - 1

/-- A coefficient of a response in signed Q1.23: round(2²³ / D) for a boxcar, else the ROM's own. -/
def romCoef (i j : Nat) : Int :=
  if 40 ≤ i then divHalfEven (2 ^ 23 : Nat) (romHead i).d else (Config.romCoef i j).toInt

/-- One stage of a descriptor: TYPE, K, RATIO, ROM. -/
structure StageDesc where
  ty : Nat
  k : Nat
  ratio : Nat
  rom : Nat
  deriving DecidableEq, Repr

/-- A word of a descriptor, from the live table or its shadow. -/
def descWord (shadow : Bool) (s : State) (e w : Nat) : Nat :=
  (mget wideZero (if shadow then s.filt.descSh else s.filt.desc) (4 * e + w)).toNat

/-- STAGES of a descriptor. -/
def descStages (shadow : Bool) (s : State) (e : Nat) : Nat := slice 0 3 (descWord shadow s e 3)

/-- Stage `j`, counted from 0, of a descriptor. -/
def descStage (shadow : Bool) (s : State) (e j : Nat) : StageDesc :=
  let v := slice (64 * (j % 2)) 64 (descWord shadow s e (j / 2))
  ⟨slice 0 4 v, slice 4 4 v, slice 8 8 v, slice 16 8 v⟩

/-- The stages of a descriptor up to STAGES. -/
def descList (shadow : Bool) (s : State) (e : Nat) : List StageDesc :=
  (List.range (descStages shadow s e)).map (descStage shadow s e)

/-- A stage's fields meet R121. -/
def stageOk (d : StageDesc) : Bool :=
  if d.ty = 1 then decide (1 ≤ d.k ∧ d.k ≤ 5 ∧ 2 ≤ d.ratio ∧ d.ratio ≤ 64)
  else if d.ty = 2 then decide (d.ratio = 2 ∧ d.rom < 8)
  else if d.ty = 3 then decide (8 ≤ d.rom ∧ d.rom ≤ 47 ∧ d.ratio = (romHead d.rom).d)
  else false

/-- The total ratio of a descriptor, as word 3 shows it. -/
def descRatio (ds : List StageDesc) : Nat := ds.foldl (fun a d => a * d.ratio) 1

/-- A descriptor is valid (R122). -/
def descValid (shadow : Bool) (s : State) (e : Nat) : Bool :=
  let k := descStages shadow s e
  let ds := descList shadow s e
  decide (k ≤ 6) && ds.all stageOk && (List.range 6).all (fun j => decide (j < k) || (descStage shadow s e j).ty == 0)
    && decide (descRatio ds ≤ 16777216)

/-- The length N of a stage in inputs (R116, R117, R127). -/
def stageLen (d : StageDesc) : Nat := if d.ty = 1 then d.k * (d.ratio - 1) + 1 else (romHead d.rom).n

/-- A stage's group delay in 1/256 input sample. -/
def stageGd (d : StageDesc) : Nat := if d.ty = 1 then 128 * d.k * (d.ratio - 1) else (romHead d.rom).gd

/-- The cost of a chain in 1/256 lane-cycle per stroke (R123); `dp` is the product of the ratios so far. -/
def chainCost : Nat → List StageDesc → Nat
  | _, [] => 0
  | dp, d :: rest =>
    (if d.ty = 1 then ceilDiv (256 * d.k) dp + ceilDiv (256 * (d.k + 1)) (dp * d.ratio)
     else ceilDiv (256 * (if d.ty = 2 then (romHead d.rom).nz else (romHead d.rom).n)) (dp * d.ratio))
    + chainCost (dp * d.ratio) rest

/-- The blend cost of a flourish (R123). -/
def blendCost : Nat → List StageDesc → Nat
  | _, [] => 0
  | dp, d :: rest => ceilDiv 256 (dp * d.ratio) + blendCost (dp * d.ratio) rest

/-- F of the highest tap, counted from a start on the phase origin (R127). -/
def chainFill : Nat → List StageDesc → Nat
  | f, [] => f
  | f, d :: rest => chainFill (ceilDiv (stageLen d + f) d.ratio - 1) rest

/-- G_j of the taps in 1/256 stroke (R128). -/
def chainDelays : Nat → Nat → List StageDesc → List Nat
  | _, _, [] => []
  | dp, g, d :: rest => (g + stageGd d * dp) :: chainDelays (dp * d.ratio) (g + stageGd d * dp) rest

/-- The first output of each tap that depends on no input before the start: `i` is the first clean input's index (R127, R130). -/
def cleanIdx : Nat → List StageDesc → List Nat
  | _, [] => []
  | i, d :: rest =>
    let k := ceilDiv (i + stageLen d) d.ratio - 1
    k :: cleanIdx k rest

/-! ### Channels of the engine (R120, R123, R433) -/

abbrev fltDesc (c : Nat) : Fld := F.FLT_CHAN.DESC (c / 8) (c % 8)
abbrev fltEn (c : Nat) : Fld := F.FLT_CHAN.EN (c / 8) (c % 8)

/-- The descriptor a channel's chain runs, where it runs one (R120, R433). -/
def runDesc (s : State) (c : Nat) : Option Nat :=
  if on s (fltEn c) && descValid false s (rget s (fltDesc c)) then some (rget s (fltDesc c)) else none

def chainOf (s : State) (c : Nat) : Chain := mget (fun _ => {}) s.filt.chains c
def setChain (c : Nat) (x : Chain) (s : State) : State :=
  { s with filt := { s.filt with chains := mput (fun _ => {}) c x s.filt.chains } }
def flourOf (s : State) (c : Nat) : Option Flourish := mget (fun _ => none) s.filt.flour c
def setFlour (c : Nat) (x : Option Flourish) (s : State) : State :=
  { s with filt := { s.filt with flour := mput (fun _ => none) c x s.filt.flour } }
def queuedOf (s : State) (c : Nat) : Option (Nat × Nat) := mget (fun _ => none) s.filt.queued c
def setQueued (c : Nat) (x : Option (Nat × Nat)) (s : State) : State :=
  { s with filt := { s.filt with queued := mput (fun _ => none) c x s.filt.queued } }
    |> (if x.isSome then setBitOf else clrBitOf) (F.FLT_QUEUE.QUEUED (c / 64)) (c % 64)

/-- The costs of the 64 descriptors, 0 for an invalid one. -/
def descCosts (shadow : Bool) (s : State) : List Nat :=
  (List.range 64).map (fun e => if descValid shadow s e then chainCost 1 (descList shadow s e) else 0)

/-- The load of the live chains, or of the shadows, with the flourishes in progress and queued (R123), in lane-cycles · 256. -/
def fltLoad (shadow : Bool) (s : State) : Nat :=
  let costs := descCosts shadow s
  let get (f : Fld) : Nat := if shadow then sget s f else rget s f
  let extra (e : Nat) : Nat := chainCost 1 (descList false s e) + blendCost 1 (descList false s e)
  (List.range 512).foldl (fun a c => a + (if get (fltEn c) = 1 then nth 0 costs (get (fltDesc c)) else 0)) 0
    + s.filt.flour.foldl (fun a x => a + (match x.2 with | some f => extra f.inc.desc | none => 0)) 0
    + s.filt.queued.foldl (fun a x => a + (match x.2 with | some q => extra q.1 | none => 0)) 0

/-- The engine's capacity at a divider M, in lane-cycles · 256. -/
def fltCapacity (m : Nat) : Nat := 128000 * m * 256

/-- Whether a load lies beyond LIMIT_PCT at a divider. -/
def overLimit (s : State) (load m : Nat) : Bool := decide (rget s F.FLT_LOAD.LIMIT_PCT * fltCapacity m < 100 * load)

/-- A load in ppm of the capacity, rounded up. -/
def loadPpm (load m : Nat) : Nat := ceilDiv (load * 1000000) (fltCapacity m)

/-! ### Stages at work (R116 to R118) -/

/-- What a sample enters the arithmetic as: 0 when OPEN or SKIP (R118). -/
def engineIn (x : Samp) : Int := if bitSet x.fl flOPEN || bitSet x.fl flSKIP then 0 else x.v

/-- The value of a sample word: 0 when SKIP or OPEN is set (R218). -/
def wordValue (x : Samp) : Nat := if bitSet x.fl flSKIP || bitSet x.fl flOPEN then 0 else ofInt 32 x.v

/-- 64-bit wrapping. -/
def wrap64 (x : Int) : Nat := ofInt 64 x

/-- The integrators of a CIC stage take an input. -/
def integrate : Int → List Nat → List Nat
  | _, [] => []
  | x, a :: rest =>
    let v := wrap64 (a + x)
    v :: integrate v rest

/-- The combs of a CIC stage: the result and the new memories. -/
def comb : Nat → List Nat → Nat × List Nat
  | c, [] => (c, [])
  | c, p :: rest =>
    let r := comb (wrap64 ((c : Int) - p)) rest
    (r.1, c :: r.2)

/-- Bit growth of a CIC stage: the smallest b with D^K ≤ 2^b. -/
def cicGrowth (k d : Nat) : Nat := ((List.range 31).find? (fun b => decide (d ^ k ≤ 2 ^ b))).getD 30

/-- A 32-bit output and whether it was clamped. -/
def clamp32 (y : Int) : Int × Bool := (clampSigned 32 y, clampSigned 32 y != y)

/-- The output of a CIC stage from its last integrator (R116). -/
def cicOut (d : StageDesc) (c : Nat) : Int × Bool :=
  let b := cicGrowth d.k d.ratio
  let u := shiftHalfEven b (asInt 64 c)
  let g := divHalfEven (2 ^ (23 + b) : Nat) (d.ratio ^ d.k)
  clamp32 (shiftHalfEven 23 (u * g))

/-- The weighted sum of a FIR stage over its inputs, newest first. -/
def firSum (rom : Nat) : Nat → List Samp → Int
  | _, [] => 0
  | j, x :: rest => romCoef rom j * engineIn x + firSum rom (j + 1) rest

/-- A stage takes an input; `due` says that an output falls on it. -/
def stageStep (d : StageDesc) (st : StageSt) (x : Samp) (due : Bool) : StageSt × Option (Samp × Bool) :=
  let hist := (x :: st.hist).take (stageLen d)
  let fl := hist.foldl (fun a y => a ||| clrBit y.fl flFILL) 0
  if d.ty = 1 then
    let ints := integrate (engineIn x) (if st.ints.isEmpty then List.replicate d.k 0 else st.ints)
    let prevs := if st.prevs.isEmpty then List.replicate d.k 0 else st.prevs
    if due then
      let c := comb (ints.getLastD 0) prevs
      let y := cicOut d c.1
      (⟨ints, c.2, hist⟩, some (⟨y.1, if y.2 then setBit fl flOVR else fl, x.rng⟩, y.2))
    else (⟨ints, prevs, hist⟩, none)
  else if due then
    let y := clamp32 (shiftHalfEven 23 (firSum d.rom 0 hist))
    (⟨[], [], hist⟩, some (⟨y.1, if y.2 then setBit fl flOVR else fl, x.rng⟩, y.2))
  else (⟨[], [], hist⟩, none)

/-- The stages of a chain take an input on the stroke whose index from the phase origin is `i`: the new stages, and the outputs as
(tap, index, sample, clamped). `dp` is the product of the ratios so far, `j` the tap. -/
def runStages (i : Nat) : Nat → Nat → List StageDesc → List Nat → List StageSt → Samp →
    List StageSt × List (Nat × Nat × Samp × Bool)
  | _, _, [], _, sts, _ => (sts, [])
  | j, dp, d :: ds, clean, sts, x =>
    let st := sts.headD {}
    let dj := dp * d.ratio
    let k := (i + 1) / dj - 1
    match stageStep d st x (decide ((i + 1) % dj = 0)) with
    | (st', none) => (st' :: (sts.tail ++ List.replicate (ds.length - sts.tail.length) {}), [])
    | (st', some (y, sat)) =>
      let y' := if k < clean.headD 0 then { y with fl := setBit y.fl flFILL } else y
      let r := runStages i (j + 1) dj ds clean.tail sts.tail y'
      (st' :: r.1, (j, k, y', sat) :: r.2)

/-- A chain takes the sample of stroke `n` under the phase origin `p`; a chain without stages starts here, from zero state. -/
def feedChain (s : State) (n p e : Nat) (ch : Chain) (x : Samp) : Chain × List (Nat × Nat × Samp × Bool) :=
  let ds := descList false s e
  let ch := if ch.stages.isEmpty then { desc := e, start := n, stages := List.replicate ds.length {} } else ch
  let r := runStages (n - p) 1 1 ds (cleanIdx (ch.start - p) ds) ch.stages x
  ({ ch with stages := r.1 }, r.2)

/-! ### Step 5 (R114) and the coarse value (R115) -/

/-- The value of a bridge channel normalised with VREFG, in µV; for a VREFG of 0 the quotient is left open (log entry 3). -/
def bridgeNorm (s : State) (v : Int) (vref : Nat) : Int :=
  if vref = 0 then asInt 32 (freeVal 32 s) else divHalfEven (v * 4096000) vref

/-- The corrected sample of channel `c` from the value of step 4, with whether it was clamped here; `vref` is VREFG in µV. -/
def stepFive (s : State) (c : Nat) (y : Int) (vref : Nat) : Int × Bool :=
  let rng := rget s (fcRange c)
  let i := 4 * c + rng
  let fe := on s F.FAST_CTRL.FE_EN
  let g : Int := if fe then (((mget zeroAt s.trim.feGain i : Nat)) : Int) else (2 ^ 22 : Nat)
  let o : Int := if fe then asInt 32 (mget zeroAt s.trim.feOfs i) else 0
  let v := shiftHalfEven 22 (y * (2 ^ (8 - 2 * rng) : Nat) * g) - o
  let k := strokeNow s
  let v := if corrOn s c then signOf (Config.swapSign c k) * v - signOf (Config.injSign c k) * vInj rng else v
  let v := if rget s (fcMode c) = 1 then bridgeNorm s v vref else v
  let w := clampInt (minusClamp rng) (plusClamp rng) v
  (w, w != v)

/-- The weights of a coarse form on s to s − 3, in eighths. -/
def coarseWeights : Nat → List Int
  | 0 => [2, 2, 2, 2]
  | 1 => [1, 3, 3, 1]
  | 2 => [8, 0, 0, 0]
  | _ => [4, 4, 0, 0]

/-- What stands for a sample that the window has not had. -/
def noSample : Samp := { v := 0, fl := 1 <<< flSKIP, rng := 0 }

/-- The coarse value of a window (R115): flags of all four samples, the range of the newest. -/
def coarseValue (form : Nat) (h : List Samp) : Samp :=
  let at' (i : Nat) : Samp := nth noSample h i
  let w := coarseWeights form
  let sum := (List.range 4).foldl (fun a i => a + nth 0 w i * (at' i).v) 0
  { v := shiftHalfEven 3 sum, fl := (List.range 4).foldl (fun a i => a ||| (at' i).fl) 0, rng := (at' 0).rng }

def windowOf (s : State) (c : Nat) : Window := mget (fun _ => {}) s.filt.coarse c

/-- A sample enters the coarse window of channel `c`. -/
def pushCoarse (n c : Nat) (x : Samp) (s : State) : State :=
  { s with filt := { s.filt with coarse := mput (fun _ => {}) c ⟨(x :: (windowOf s c).hist).take 4, n⟩ s.filt.coarse } }

/-- The coarse value that channel `c` now has. -/
def coarseNow (s : State) (c : Nat) : Samp :=
  coarseValue (rget s (F.FAST_CFORM.CFORM (groupOf c))) (windowOf s c).hist

/-! ### Fine words (R118, R120, R128, R130) -/

/-- The TSU time of the latest strike, in 1/65,536 ns, where the TSU counts in 2⁻⁴⁸ ns. -/
def strikeTime (s : State) : Nat := s.tsu.strike / 2 ^ 32

/-- The stamp of an output of group delay `g` (1/256 stroke): t(s) − G · T_S, where T_S is 64,000,000 M units (R128). -/
def stampOf (s : State) (g : Nat) : Nat := strikeTime s - g * 250000 * mLive s

/-- A word enters the closure of its stroke. -/
def pushWord (w : TagWord) (s : State) : State := { s with filt := { s.filt with words := s.filt.words ++ [w] } }

/-- A stage output saturated (R117, R132). -/
def stageSat (c : Nat) (s : State) : State :=
  s |> inc F.FLT_SATCNT.SAT |> setBitOf (F.FLT_SAT.SAT (c / 64)) (c % 64) |> raise pFLT 7

/-- The weight of blend `q` of `n` (R130). -/
def blendWeight (q n : Nat) : Nat := (divHalfEven ((2 ^ 23 * (q + 1) : Nat) : Int) (n + 1)).toNat

/-- What leaves tap `j` during a flourish: the outgoing output, the blend, or the incoming one (R130). -/
def flourOut (n p : Nat) (f : Flourish) (ds : List StageDesc) (a b : Nat × Nat × Samp × Bool) : Samp × Bool :=
  let dh := descRatio ds
  let dj := descRatio (ds.take a.1)
  let last := f.fade0 + (f.len - 1) * dh
  let from' := f.fade0 + 1 - dh
  if n < from' then (a.2.2.1, false)
  else if last < n then (b.2.2.1, true)
  else
    let q := a.2.1 - (from' - p) / dj
    let w := blendWeight q (f.len * dh / dj)
    let va := a.2.2.1
    let vb := b.2.2.1
    ({ v := va.v + shiftHalfEven 23 ((vb.v - va.v) * w), fl := va.fl ||| vb.fl, rng := va.rng }, decide (2 ^ 22 ≤ w))

/-- The outputs of a channel's chain become words. -/
def pushOuts (c : Nat) (ds ds' : List StageDesc) (outs : List (Nat × Nat × Samp × Bool)) (s : State) : State :=
  forAll outs (fun o s =>
    let g := nth 0 (chainDelays 1 0 (if o.2.2.2 then ds' else ds)) (o.1 - 1)
    let s := pushWord ⟨c, o.1, o.2.1 % 256, o.2.2.1, stampOf s g⟩ s
    if o.1 = ds.length then
      (if bitSet o.2.2.1.fl flFILL then setBitOf else clrBitOf) (F.FLT_FILL.FILL (c / 64)) (c % 64) s
    else s) s

/-- The fine path of channel `c` takes the sample of stroke `n` (R113, R120, R130). -/
def fineSample (n c : Nat) (x : Samp) (s : State) : State :=
  let p := rget s F.FLT_PHASE.ORIGIN
  let s := pushWord ⟨c, 0, n % 256, x, strikeTime s⟩ s
  match runDesc s c with
  | none => s
  | some e =>
    let ds := descList false s e
    let a := feedChain s n p e (chainOf s c) x
    let s := forAll (a.2.filter (·.2.2.2)) (fun _ => stageSat c) (setChain c a.1 s)
    match flourOf s c with
    | none => pushOuts c ds ds (a.2.map (fun o => (o.1, o.2.1, o.2.2.1, false))) s
    | some f =>
      let ds' := descList false s f.inc.desc
      let b := feedChain s n p f.inc.desc f.inc x
      let s := forAll (b.2.filter (·.2.2.2)) (fun _ => stageSat c) (setFlour c (some { f with inc := b.1 }) s)
      let outs := (a.2.zip b.2).map (fun ab => (ab.1.1, ab.1.2.1, flourOut n p f ds ab.1 ab.2))
      let s := pushOuts c ds ds' outs s
      if n = f.fade0 then
        s |> clrBitOf (F.FLT_PRIME.PRIME (c / 64)) (c % 64) |> setBitOf (F.FLT_FADE.FADE (c / 64)) (c % 64)
      else s

/-- A channel restarts from zero state: its flourish ends and a queued one is discarded and counted (R122). -/
def chainRestart (c : Nat) (s : State) : State :=
  let q := (queuedOf s c).isSome
  s |> setChain c {} |> setFlour c none
    |> clrBitOf (F.FLT_PRIME.PRIME (c / 64)) (c % 64) |> clrBitOf (F.FLT_FADE.FADE (c / 64)) (c % 64)
    |> whenB (!on s (fltEn c)) (clrBitOf (F.FLT_FILL.FILL (c / 64)) (c % 64))
    |> whenB q (fun s => s |> setQueued c none |> inc F.FLT_COUNT.FLR_REFUSED)

/-! ### Flourishes (R129 to R131, R434) -/

/-- Why a request for channel `c` and a descriptor is refused, 0 for none; the first of 5, 4, 3, 2, 1 (R129). -/
def flrReason (s : State) (c e : Nat) : Nat :=
  let live := rget s (fltDesc c)
  let di := descList false s e
  let dl := descList false s live
  if !on s (fltEn c) || !descValid false s live then 5
  else if e = live then 4
  else if !descValid false s e then 3
  else if di.map (fun d => (d.ty, d.ratio)) ≠ dl.map (fun d => (d.ty, d.ratio)) then 2
  else if overLimit s (fltLoad false s + chainCost 1 di + blendCost 1 di) (mLive s) then 1
  else 0

/-- A request is refused or dropped with a reason on stroke `n` (R129, R131). -/
def flrRefuse (n c reason : Nat) (s : State) : State :=
  s |> setBitOf (F.FLT_REFUSED.REFUSED (c / 64)) (c % 64)
    |> rset F.FLT_REFUSE.CHAN c |> rset F.FLT_REFUSE.REASON reason |> rset F.FLT_REFUSE.KIND 0 |> rset F.FLT_REFUSE.BY_SYS 0
    |> rset F.FLT_REFUSE.STROKE_LO n |> inc F.FLT_COUNT.FLR_REFUSED |> raise pFLT 4

/-- A flourish starts on stroke `b` (R130). -/
def flrStart (b c e len : Nat) (s : State) : State :=
  let p := rget s F.FLT_PHASE.ORIGIN
  let ds := descList false s e
  let k := (cleanIdx (b - p) ds).getLastD 0
  let fade0 := p + descRatio ds * (k + 1) - 1
  s |> setFlour c (some { inc := { desc := e, start := b, stages := [] }, len := len, fade0 := fade0 })
    |> setBitOf (F.FLT_PRIME.PRIME (c / 64)) (c % 64) |> clrBitOf (F.FLT_FADE.FADE (c / 64)) (c % 64) |> raise pFLT 2

/-- A fresh request is taken up for channel `c` on stroke `n`: refused, queued or started (R129, R131). -/
def flrTake (n e len c : Nat) (s : State) : State :=
  match flrReason s c e with
  | 0 =>
    if (flourOf s c).isSome then
      let repl := (queuedOf s c).isSome
      s |> setQueued c (some (e, len)) |> whenB repl (fun s => s |> inc F.FLT_COUNT.FLR_REPLACED |> raise pFLT 5)
    else flrStart n c e len s
  | r + 1 => flrRefuse n c (r + 1) s

/-- A queued request starts on stroke `n`, or is dropped with reason 6 (the load) or its own (R131). -/
def flrQueued (n c : Nat) (s : State) : State :=
  match queuedOf s c with
  | none => s
  | some (e, len) =>
    let s := setQueued c none s
    match flrReason s c e with
    | 0 => flrStart n c e len s
    | r + 1 => flrRefuse n c (if r = 0 then 6 else r + 1) s

/-- A flourish's incoming descriptor becomes the channel's live one, and the shadow's too where it still names the outgoing one
(R434). -/
def flrLive (c e : Nat) (s : State) : State :=
  let old := rget s (fltDesc c)
  s |> rset (fltDesc c) e |> whenB (sget s (fltDesc c) == old) (sset (fltDesc c) e)

/-- The flourish of channel `c` ends: the incoming chain goes on alone (R130, R434). -/
def flrEnd (c : Nat) (f : Flourish) (s : State) : State :=
  s |> flrLive c f.inc.desc |> setChain c f.inc |> setFlour c none
    |> clrBitOf (F.FLT_PRIME.PRIME (c / 64)) (c % 64) |> clrBitOf (F.FLT_FADE.FADE (c / 64)) (c % 64)

/-- The last fade output of a flourish falls on this stroke (R130). -/
def flrLast (s : State) (f : Flourish) : Nat := f.fade0 + (f.len - 1) * descRatio (descList false s f.inc.desc)

/-- The Done phase of channel `c`'s flourish, and a queued request's start (R130, R131). -/
def flrDone (c : Nat) (s : State) : State :=
  match flourOf s c with
  | none => s
  | some f =>
    if flrLast s f ≤ strokeNow s then
      s |> flrEnd c f |> inc F.FLT_COUNT.FLR_DONE |> raise pFLT 3 |> flrQueued (flrLast s f + 1) c
    else s

/-! ### The commit of FLT and the synchronising reset (R122, R124, R126) -/

/-- The shadow descriptors in use are all valid (R124). -/
def shadowsValid (s : State) : Bool :=
  (List.range 512).all (fun c => sget s (fltEn c) != 1 || descValid true s (sget s (fltDesc c)))

/-- Why a commit of the FLT shadows is withheld: 1 for the load, 3 for an invalid descriptor, 0 for none (R124). -/
def fltWithhold (s : State) : Nat :=
  if !shadowsValid s then 3 else if overLimit s (fltLoad true s) (mLive s) then 1 else 0

/-- A commit is withheld (R124). -/
def withheld (n reason : Nat) (bySys : Bool) (s : State) : State :=
  s |> rset F.FLT_REFUSE.CHAN 0x3FF |> rset F.FLT_REFUSE.REASON reason |> rset F.FLT_REFUSE.KIND 1
    |> rset F.FLT_REFUSE.BY_SYS bySys.toNat |> rset F.FLT_REFUSE.STROKE_LO n |> inc F.FLT_SATCNT.WITHHELD |> raise pFLT 6

/-- Whether the commit changes what channel `c` runs: its pointer, its EN bit or its descriptor's content (R122). -/
def chanChanged (before s : State) (c : Nat) : Bool :=
  rget before (fltDesc c) != rget s (fltDesc c) || rget before (fltEn c) != rget s (fltEn c)
    || (List.range 4).any (fun w => descWord false before (rget s (fltDesc c)) w != descWord false s (rget s (fltDesc c)) w)

/-- The part of an FLT commit that no register copy makes: the descriptors, the restarts and a fresh request (R122, R129). -/
def fltCommit (n : Nat) (before : State) (s : State) : State :=
  let s := { s with filt := { s.filt with desc := s.filt.descSh } }
  let s := forAll ((List.range 512).filter (chanChanged before s)) chainRestart s
  if s.filt.fresh then
    let first := rget s F.FLT_FLR_REQ.CH_FIRST
    let k := min 511 (rget s F.FLT_FLR_REQ.CH_LAST) + 1 - first
    forAll ((List.range k).map (· + first)) (flrTake n (rget s F.FLT_FLR_REQ.DESC) (rget s F.FLT_FLR_REQ.LEN + 1))
      { s with filt := { s.filt with fresh := false } }
  else s

/-- A synchronising reset on stroke `z` (R126). -/
def syncReset (z : Nat) (s : State) : State :=
  let ends := s.filt.flour.filterMap (fun x => x.2.map (fun f => (x.1, f)))
  let s := forAll ends (fun x => flrEnd x.1 x.2) s
  let s := { s with filt := { s.filt with chains := [], syncArmed := none } }
    |> rset F.FLT_PHASE.ORIGIN z |> inc F.FLT_COUNT.SYNCS |> rset F.FLT_CTRL.SYNC_ARMED 0
    |> rset F.FLT_SYNC.STROKE (2 ^ 64 - 1) |> raise pFLT 0
  forAll (s.filt.queued.map (·.1)) (flrQueued z) s

/-- The peek captures the values of its channel on the present stroke: the fine path's sample and the coarse value (R133). -/
def peekCapture (s : State) : State :=
  let c := rget s F.FAST_PEEK_SEL.CHAN
  let y := coarseNow s c
  match s.filt.peek, s.filt.words.find? (fun w => w.chan == c && w.tap == 0) with
  | some n, some w =>
    if n ≤ strokeNow s then
      { s with filt := { s.filt with peek := none } }
        |> rset F.FAST_PEEK_FINE.VALUE (wordValue w.s) |> rset F.FAST_PEEK_FINE.FLAGS w.s.fl |> rset F.FAST_PEEK_FINE.RANGE w.s.rng
        |> rset F.FAST_PEEK_COARSE.VALUE (wordValue y) |> rset F.FAST_PEEK_COARSE.FLAGS y.fl
        |> rset F.FAST_PEEK_COARSE.RANGE y.rng |> rset F.FAST_PEEK_STROKE.STROKE (strokeNow s)
        |> rset F.FAST_PEEK_SEL.DONE 1 |> raise pFAST 0
    else s
  | _, _ => s

end Sys2Proof.Machine
end

