-- ==== Sys2Proof/Machine/Slow.lean ====
section
/-!
DEFINITION. The slow lanes and their scan step, and the diagnostic channels (R58 to R63, R93, R104).
-/

namespace Sys2Proof.Machine

def lane (s : State) (k : Nat) : Lane := mget (fun _ => {}) s.lanes k
def setLane (k : Nat) (f : Lane → Lane) (s : State) : State := { s with lanes := mput (fun _ => {}) k (f (lane s k)) s.lanes }

/-- The slow channel a lane is at. -/
def laneChan (s : State) (k : Nat) : Nat := 16 * k + (lane s k).ch

/-- The excitation source of slow channel `c` (R69). -/
def slowSrc (s : State) (c : Nat) : Nat := 4 * (c / 16) + rget s (F.SLOW_CFG.SRC c)

/-- WIRING of slow channel `c`, with 0b110 and 0b111 as off (R59). -/
def wiring (s : State) (c : Nat) : Nat :=
  let w := rget s (F.SLOW_CFG.WIRING c)
  if w ≥ 6 then 0 else w

/-- Whether a wiring drives a current through its source, and whether it has a second window (R59, R60). -/
def needsExc (w : Nat) : Bool := w == 1 || w == 2 || w == 3 || w == 4
def twoWindows (w : Nat) : Bool := w == 2 || w == 4

/-- Strokes of one sinc stage: round(T × stroke rate), at least 1 (R60, R61). -/
def stageStrokes (s : State) (c : Nat) : Nat :=
  let num := match rget s (F.SLOW_CFG.NOTCH c) with
    | 0 => 1024 * 3
    | 1 => 20480 * 3
    | 2 => 51200
    | _ => 102400 * 3
  max 1 ((num * 2 + 3 * mLive s) / (2 * 3 * mLive s))

/-- The next channel of a lane to measure: the next that is not off and due on this pass (R58); `fuel` bounds two passes. -/
def nextSlow (s : State) (k : Nat) : Nat → Nat → Nat → Option (Nat × Nat)
  | 0, _, _ => none
  | fuel + 1, ch, pass =>
    if 16 ≤ ch then nextSlow s k fuel 0 (pass + 1)
    else if wiring s (16 * k + ch) ≠ 0 ∧ pass % (rget s (F.SLOW_TIME.EVERY (16 * k + ch)) + 1) = 0 then some (ch, pass)
    else nextSlow s k fuel (ch + 1) pass

/-- A lane starts its next step: a calibration step that is due, else the next channel's mux step, else it idles. -/
def startStep (k : Nat) (s : State) : State :=
  let l := lane s k
  if l.calDue then setLane k (fun l => { l with stage := .cal, calLeft := 12, calDue := false }) s
  else match (if (List.range 16).all (fun i => wiring s (16 * k + i) == 0) then none else nextSlow s k 5000 l.ch l.pass) with
    | some (ch, pass) => setLane k (fun l => { l with stage := .mux, ch := ch, pass := pass, compl := false, chk := 0 }) s
    | none => setLane k (fun l => { l with stage := .idle }) s

/-- The lane goes on to the channel after the one it has measured. -/
def advanceLane (k : Nat) (s : State) : State := startStep k (setLane k (fun l => { l with ch := l.ch + 1 }) s)

/-- A source drives its channel, or stops driving (R71). -/
def driveSource (on' : Bool) (c : Nat) (s : State) : State :=
  if needsExc (wiring s c) then rset (F.EXC_STATUS.IN_USE (slowSrc s c)) on'.toNat s else s

/-- A slow result word (R62, R63, R70): value, flags, and the stroke its stamp stands for. -/
def slowResult (c : Nat) (x : Samp) (check centre : Nat) (s : State) : State :=
  let cnt := rget s (F.SLOW_STATUS.COUNT c)
  let age := (strokeNow s - centre) * 64000000 * mLive s
  s |> rset (F.SLOW_STATUS.VALUE c) (ofInt 32 x.v) |> rset (F.SLOW_STATUS.FLAGS c) x.fl |> rset (F.SLOW_STATUS.CHECK c) check
    |> rset (F.SLOW_STATUS.COUNT c) (cnt + 1)
    |> pushWord ⟨512 + c, 0, cnt, x, strikeTime s - age⟩
    |> whenB (bitSet x.fl flOPEN) (raise pSLOW 0)

/-- A step is abandoned: a SKIP word, and the lane restarts at the mux step (R62). -/
def abandonStep (k : Nat) (s : State) : State :=
  let c := laneChan s k
  match (lane s k).stage with
  | .idle | .cal => s
  | _ => s |> driveSource false c |> slowResult c { v := 0, fl := 1 <<< flSKIP, rng := 0 } (rget s (F.SLOW_STATUS.CHECK c)) (strokeNow s)
      |> raise pSLOW 1 |> setLane k (fun l => { l with ch := c % 16 }) |> startStep k

/-- Window `w` of a lane begins: its integrators are at zero. -/
def beginWindow (st : ScanStage) (k : Nat) (s : State) : State :=
  setLane k (fun l => { l with stage := st, ints := [], prevs := [], convs := 0, sum := 0, sat := false }) s

/-- A lane conversion of the present stroke enters the sinc integrator of its window (R58, R60). -/
def laneConv (k : Nat) (y : Int) (sat : Bool) (s : State) : State :=
  let l := lane s k
  if l.stage ≠ .window1 ∧ l.stage ≠ .window2 then s else
  let c := laneChan s k
  let order := rget s (F.SLOW_CFG.ORDER c)
  let n := stageStrokes s c
  let ints := integrate y (if l.ints.isEmpty then List.replicate order 0 else l.ints)
  let prevs := if l.prevs.isEmpty then List.replicate order 0 else l.prevs
  let due := (l.convs + 1) % n == 0
  let cb := comb (ints.getLastD 0) prevs
  setLane k (fun l => { l with ints := ints, prevs := if due then cb.2 else prevs, convs := l.convs + 1,
                               sum := if due then asInt 64 cb.1 else l.sum, sat := l.sat || sat }) s

/-- The voltage of a window that has had all its conversions, on the Q1.31 scale, with the lane's trim and its range's clamp (R51,
R59, R104). -/
def windowValue (s : State) (k : Nat) : Samp :=
  let l := lane s k
  let c := laneChan s k
  let rng := rget s (F.SLOW_CFG.RANGE c)
  let n := stageStrokes s c
  let i := 4 * (512 + k) + rng
  let g : Int := if on s F.FAST_CTRL.FE_EN then (((mget zeroAt s.trim.feGain i : Nat)) : Int) else (2 ^ 22 : Nat)
  let o : Int := if on s F.FAST_CTRL.FE_EN then asInt 32 (mget zeroAt s.trim.feOfs i) else 0
  let v := divHalfEven (l.sum * (2 ^ (8 - 2 * rng) : Nat) * g) (n ^ rget s (F.SLOW_CFG.ORDER c) * 2 ^ 22) - o
  let w := clampInt (minusClamp rng) (plusClamp rng) v
  { v := w, fl := flagIf (l.sat || w != v) flOVR, rng := rng }

/-- Whether a window has had the conversions it counts: ORDER × round(T × stroke rate). -/
def windowFull (s : State) (k : Nat) : Bool :=
  let c := laneChan s k
  decide (rget s (F.SLOW_CFG.ORDER c) * stageStrokes s c ≤ (lane s k).convs)

/-- The current of a channel's source in nA: measured, or programmed before a first passing trim (R71). -/
def excCurrent (s : State) (c : Nat) : Nat :=
  let m := rget s (F.EXC_MEAS.I_NA (slowSrc s c))
  if m = 0 then 10000 * rget s (F.EXC_CFG.ICODE (slowSrc s c)) else m

/-- The value of a finished step from its windows (R59, R60), the lead resistance in mΩ, and the window whose division by zero
leaves the value open. -/
def slowValue (s : State) (c : Nat) (w1 w2 : Samp) : Samp × Nat × Bool :=
  let inom : Int := 10000 * rget s (F.EXC_CFG.ICODE (slowSrc s c))
  let im := excCurrent s c
  let fl := w1.fl ||| w2.fl
  let clampTo (v : Int) : Samp :=
    let w := clampInt (minusClamp w1.rng) (plusClamp w1.rng) v
    { v := w, fl := if w = v then fl else setBit fl flOVR, rng := w1.rng }
  match wiring s c with
  | 2 =>
    let v2 := max 0 w2.v
    (clampTo (divHalfEven ((w1.v - 2 * v2) * inom) im), min 65535 (v2.toNat * 1000000000000 / (524288000 * im)), im == 0)
  | 4 => if w2.v = 0 then (clampTo 0, 0, true)
      else (clampTo (divHalfEven (if w2.v < 0 then -(w1.v * (2 ^ 31 : Nat)) else w1.v * (2 ^ 31 : Nat)) w2.v.natAbs), 0, false)
  | 5 => (clampTo w1.v, 0, false)
  | _ => (clampTo (divHalfEven (w1.v * inom) im), 0, im == 0)

/-- The end of a step: the source is off and the result word leaves (R60, R63); a division by a zero voltage leaves a free value. -/
def endStep (k : Nat) (w2 : Samp) (s : State) : State :=
  let l := lane s k
  let c := laneChan s k
  let centre := (l.w1Start + l.w1End) / 2
  let r := slowValue s c l.w1 w2
  let skip := needsExc (wiring s c) && rget s (F.EXC_CFG.ICODE (slowSrc s c)) == 0
  let s' := driveSource false c s
  let s' :=
    if nServ s == 0 || skip then slowResult c { v := 0, fl := 1 <<< flSKIP, rng := 0 } l.chk centre s'
    else if l.chk != 0 || l.compl then
      slowResult c { v := 0, fl := 1 <<< flOPEN, rng := 0 } (if l.chk != 0 then l.chk else 3) centre s'
    else
      let x := if r.2.2 then { r.1 with v := clampInt (minusClamp r.1.rng) (plusClamp r.1.rng) (asInt 32 (freeVal 32 s)) } else r.1
      s' |> whenB r.2.2 freeNext |> slowResult c x 0 centre
        |> whenB (wiring s c == 2) (rset (F.SLOW_STATUS.LEAD_MILLI c) r.2.1)
  let v := rgetI s' (F.SLOW_STATUS.VALUE c)
  s' |> trimBoard c v |> advanceLane k

/-! ### The events of a step (R60) -/

/-- The mux step of a lane ends: the open check begins, or the excitation settles. -/
def slowMuxEnd (k : Nat) (s : State) : State :=
  if (lane s k).stage ≠ .mux then s else
  let c := laneChan s k
  if on s (F.SLOW_CFG.CHECK_EN c) then setLane k (fun l => { l with stage := .check }) s
  else s |> setLane k (fun l => { l with stage := .settle }) |> driveSource true c

/-- The open check ends with an apparent resistance in mΩ (R63). -/
def slowCheckEnd (k ohm : Nat) (s : State) : State :=
  if (lane s k).stage ≠ .check then s else
  let c := laneChan s k
  let chk := if rget s (F.SLOW_CFG.OPEN_KOHM c) * 1000000 < ohm then 1 else if ohm < rget s (F.SLOW_CFG.SHORT_MILLI c) then 2 else 0
  s |> setLane k (fun l => { l with stage := .settle, chk := chk }) |> rset (F.SLOW_STATUS.CHECK c) chk |> driveSource true c

/-- The settle time ends and window 1 begins. -/
def slowSettleEnd (k : Nat) (s : State) : State :=
  if (lane s k).stage ≠ .settle then s else
  s |> beginWindow .window1 k |> setLane k (fun l => { l with w1Start := strokeNow s })

/-- Window 1 ends: the sense switch starts, or the step ends (R60). -/
def slowWindow1End (k : Nat) (s : State) : State :=
  if (lane s k).stage ≠ .window1 ∨ (!windowFull s k ∧ nServ s ≠ 0) then s else
  let c := laneChan s k
  let s := setLane k (fun l => { l with w1 := windowValue s k, w1End := strokeNow s }) s
  if twoWindows (wiring s c) then setLane k (fun l => { l with stage := .sense }) s
  else endStep k { v := 0, fl := 0, rng := 0 } s

/-- The sense switch ends and window 2 begins. -/
def slowSenseEnd (k : Nat) (s : State) : State :=
  if (lane s k).stage ≠ .sense then s else beginWindow .window2 k s

/-- Window 2 ends and with it the step (R59). -/
def slowWindow2End (k : Nat) (s : State) : State :=
  if (lane s k).stage ≠ .window2 ∨ (!windowFull s k ∧ nServ s ≠ 0) then s else endStep k (windowValue s k) s

/-- A source leaves compliance while it drives (R63, R71). -/
def complianceLoss (src : Nat) (s : State) : State :=
  let k := src / 4
  let l := lane s k
  let inWindow := l.stage == .window1 || l.stage == .window2
  s |> rset (F.EXC_STATUS.COMPL src) 1 |> raise pEXC 0
    |> whenB (inWindow && needsExc (wiring s (laneChan s k)) && slowSrc s (laneChan s k) == src && !l.compl) (fun s => s
        |> setLane k (fun l => { l with compl := true }) |> inc (F.EXC_STATUS.COMPL_CNT src))

/-- A window of a lane's calibration step ends; after the twelfth the lane scans on (R104). -/
def laneCalEnd (k : Nat) (s : State) : State :=
  let l := lane s k
  if l.stage ≠ .cal then s
  else if l.calLeft ≤ 1 then startStep k (setLane k (fun l => { l with calLeft := 0 }) s)
  else setLane k (fun l => { l with calLeft := l.calLeft - 1 }) s

/-- What a commit on the present stroke means for lane `k` (R62): a changed stroke rate or a changed configuration of the channel
being measured abandons its step; an idle lane looks again for a channel. -/
def commitLane (before : State) (k : Nat) (s : State) : State :=
  let c := laneChan s k
  let same (f : Nat → Fld) : Bool := rget before (f c) == rget s (f c)
  let kept := same F.SLOW_CFG.WIRING && same F.SLOW_CFG.SRC && same F.SLOW_CFG.NOTCH && same F.SLOW_CFG.ORDER
    && same F.SLOW_CFG.CHECK_EN && same F.SLOW_CFG.RANGE && same F.SLOW_CFG.OPEN_KOHM && same F.SLOW_CFG.SHORT_MILLI
    && same F.SLOW_TIME.SETTLE_US && same F.SLOW_TIME.EVERY
  if (lane s k).stage = .idle then startStep k s
  else if kept && mLive before == mLive s then s else abandonStep k s

/-! ### Diagnostic channels (R93) -/

/-- The next enabled DX channel after `d`, in ascending order and round again. -/
def nextDx (s : State) (d : Nat) : Nat :=
  let en := rget s F.NIB_DX.EN
  match ((List.range 16).map (fun i => (d + 1 + i) % 16)).find? (bitSet en) with
  | some x => x
  | none => d

/-- A conversion of claim 5 adds to the mean of the DX channel in turn. -/
def dxConv (y : Int) (s : State) : State :=
  let nb := s.nibs
  if rget s F.NIB_DX.EN = 0 then s else
  let d := if bitSet (rget s F.NIB_DX.EN) nb.dxCh then nb.dxCh else nextDx s nb.dxCh
  let fresh := nb.dxN == 0 || d != nb.dxCh
  { s with nibs := { nb with dxCh := d, dxN := if fresh then 1 else nb.dxN + 1, dxSum := if fresh then y else nb.dxSum + y,
                             dxFirst := if fresh then strokeNow s else nb.dxFirst } }

/-- The mean of a DX channel on the Q1.31 scale, once 2^AVG conversions are in. -/
def dxMean (s : State) : Int := divHalfEven (s.nibs.dxSum * 256) s.nibs.dxN

end Sys2Proof.Machine
end

