-- ==== Sys2Proof/Machine/TsuStep.lean ====
section
/-!
DEFINITION. The time-stamp unit's count and the staging of a step from the jump record (R135, R147).
-/

namespace Sys2Proof.Machine

/-- What the TSU adds on one DCLK cycle, in 2⁻⁴⁸ ns: 128,000 (1 + ρ · 10⁻⁹) units of 2⁻¹⁶ ns, ρ in 2⁻¹⁶ ppb, cut at the last bit
of the accumulator (R135). -/
def tsuInc (s : State) : Nat := ((128000 * 2 ^ 32 : Nat) + 8388608 * rgetI s F.TSU_RATE.RATE / 1000000).toNat

/-- TSU time on a DCLK cycle of the present stroke, in 2⁻⁴⁸ ns. -/
def tsuAt (s : State) (cyc : Nat) : Nat := s.tsu.t + (cyc - s.tsu.cyc) * tsuInc s

/-- TSU time on a DCLK cycle in 2⁻¹⁶ ns. -/
def tsuUnits (s : State) (cyc : Nat) : Nat := tsuAt s cyc / 2 ^ 32

/-- The rate changes from cycle `cyc` on. -/
def tsuSetRate (cyc : Nat) (rate : Int) (s : State) : State :=
  let t := tsuAt s cyc
  { s with tsu := { s.tsu with t := t, cyc := max cyc s.tsu.cyc } } |> rset F.TSU_RATE.RATE (ofInt 32 (clampSigned 32 rate))

/-- A second in 2⁻¹⁶ ns. -/
abbrev secUnits : Nat := 65536000000000

/-- Strike time in its register fields (R161). -/
def showStrike (s : State) : State :=
  let u := s.tsu.strike / 2 ^ 32
  s |> rset F.TSU_STRIKE_S.SECONDS (u / secUnits) |> rset F.TSU_STRIKE_NS.NS (u % secUnits / 65536)
    |> rset F.TSU_STRIKE_NS.FRAC (u % 65536)

/-- A staged time: seconds and 2⁻¹⁶ ns below a second, as TSU_STEP_S and TSU_STEP_NS hold them. -/
def stepUnits (s : State) : Int :=
  let sec : Int := if on s F.TSU_STEP_CTRL.ABS then (rget s F.TSU_STEP_S.DELTA_S : Int) else rgetI s F.TSU_STEP_S.DELTA_S
  sec * secUnits + rget s F.TSU_STEP_NS.NS * 65536 + rget s F.TSU_STEP_NS.FRAC

/-- −θ of the jump record is staged as a relative step (ACCEPT, R147); without a record nothing is. -/
def stageJump (s : State) : State :=
  if !on s F.TSU_STATUS.JUMP_PEND then s else
  let ns : Int := -(rgetI s F.TSU_JUMP_S.OFS_S * 1000000000 + rget s F.TSU_JUMP_NS.OFS_NS)
  s |> sset F.TSU_STEP_S.DELTA_S (ofInt 48 (ns / 1000000000)) |> sset F.TSU_STEP_NS.NS (ns % 1000000000).toNat
    |> sset F.TSU_STEP_NS.FRAC 0 |> sset F.TSU_STEP_CTRL.VALID 1 |> sset F.TSU_STEP_CTRL.ABS 0

end Sys2Proof.Machine
end

