-- ==== Sys2Proof/Machine/IlkLink.lean ====
section
/-!
DEFINITION. Inkline's frames: lanes, sending, resending, the broadcasts of the root (R164 to R169, R185).
-/

namespace Sys2Proof.Machine

def ilkState (s : State) : Nat := rget s F.ILK_STATE.STATE

/-- Whether this hub is the ruling root (R170). -/
def isRoot (s : State) : Bool := ilkState s == 7

def setIlk (f : Ilk → Ilk) (s : State) : State := { s with ilk := f s.ilk }
def ilkLane (s : State) (k : Nat) : IlkLane := mget (fun _ => {}) s.ilk.lanes k
def setIlkLane (k : Nat) (f : IlkLane → IlkLane) (s : State) : State := setIlk (fun i => { i with lanes := mput (fun _ => {}) k (f (mget (fun _ => {}) i.lanes k)) i.lanes }) s

/-- A lane is up. -/
def laneUp (s : State) (k : Nat) : Bool := rget s (F.ILK_LSTAT.LINK k) == 2

def hubId (s : State) : Nat := rget s F.ILK_ID.HUB_ID

/-- The upstream lane, while the hub has a parent. -/
def upLane (s : State) : Option Nat := (List.range 4).find? (fun k => on s (F.ILK_LSTAT.UPSTREAM k))

def ancestorsOf (h : Hello) : List Nat := h.anc.filter (· != 0x3FF)

/-- Whether the neighbour on a lane has this hub as its parent: its last ancestor is this hub (R168). -/
def isChild (s : State) (k : Nat) : Bool :=
  match (ilkLane s k).hello with
  | none => false
  | some h => (ancestorsOf h).getLast? == some (hubId s)

/-- The lanes with a joined child. -/
def childLanes (s : State) : List Nat := (List.range 4).filter (fun k => laneUp s k && isChild s k && upLane s != some k)

/-- Every joined lane (R184). -/
def joinedLanes (s : State) : List Nat :=
  (List.range 4).filter (fun k => laneUp s k && (isChild s k || on s (F.ILK_LSTAT.UPSTREAM k)))

/-! ### Frames (R166, R169) -/

def chanOfLane (s : State) (k : Nat) (express : Bool) : IlkChan := if express then (ilkLane s k).express else (ilkLane s k).bulk

def setChanOfLane (k : Nat) (express : Bool) (x : IlkChan) (s : State) : State :=
  setIlkLane k (fun l => if express then { l with express := x } else { l with bulk := x }) s

/-- A frame leaves a lane with the next SEQ and awaits its ACK; with eight unacknowledged it waits (R169). -/
def ilkSend (k : Nat) (express : Bool) (fr : IlkFrame) (s : State) : State :=
  if !laneUp s k then s else
  let c := chanOfLane s k express
  if 8 ≤ c.unacked.length then setChanOfLane k express { c with waiting := c.waiting ++ [fr] } s
  else s |> setChanOfLane k express { c with next := (c.next + 1) % 16, unacked := c.unacked ++ [⟨c.next, fr, 0⟩] }
    |> inc (F.ILK_FRM.TX k) |> emit (.ilk k express c.next fr.typ fr.words)

/-- A frame on several lanes. -/
def ilkSendAll (ks : List Nat) (express : Bool) (fr : IlkFrame) (s : State) : State := forAll ks (fun k => ilkSend k express fr) s

/-- A violation of R186 on a lane. -/
def ilkViolation (code k : Nat) (s : State) : State :=
  vlog pILK 5 28 F.ILK_VLOG.ENTRY 3 code k (rget s (F.ILK_NBR.HUB_ID k)) s

/-- An ACK with NAK = 0: the frame is released, and one that waits goes (R169). -/
def ilkAcked (k : Nat) (express : Bool) (seq : Nat) (s : State) : State :=
  let c := chanOfLane s k express
  let c' := { c with unacked := c.unacked.filter (fun x => x.seq != seq) }
  match c'.waiting with
  | fr :: rest =>
    if c'.unacked.length < 8 then s |> setChanOfLane k express { c' with waiting := rest } |> ilkSend k express fr
    else setChanOfLane k express c' s
  | [] => setChanOfLane k express c' s

/-- A received frame with a good CRC: acknowledged, and handed on unless it is a duplicate (R169). -/
def ilkRecv (k : Nat) (express : Bool) (seq : Nat) (use : State → State) (s : State) : State :=
  if !laneUp s k then s else
  let c := chanOfLane s k express
  let s := emit (.ack k express seq false 0) s
  if c.seen.contains seq then s
  else s |> setChanOfLane k express { c with seen := (seq :: c.seen).take 8 } |> inc (F.ILK_FRM.RX k) |> use

/-! ### Broadcasts (R42, R185) -/

/-- The payload of a BCAST. -/
def bcastFrame (b : Bcast) : IlkFrame :=
  ⟨6, [b.stroke % 2 ^ 32, b.stroke / 2 ^ 32 % 2 ^ 32, b.bseq % 65536 * 65536 + b.page % 256 * 256 + b.set % 8 * 16 + b.cmd % 16]⟩

/-- The root numbers a broadcast and sends it down every joined lane; it keeps its last 16. -/
def sendBcast (cmd set page stroke : Nat) (s : State) : State :=
  let n := (rget s F.BCAST_SEQ.TX_SEQ + 1) % 65536
  let b : Bcast := ⟨cmd, set, page, n, stroke⟩
  s |> rset F.BCAST_SEQ.TX_SEQ n |> setIlk (fun i => { i with sent := (b :: i.sent).take 16 })
    |> ilkSendAll (childLanes s) true (bcastFrame b)

end Sys2Proof.Machine
end

