-- ==== Sys2Proof/Machine/CommitSets.lean ====
section
/-!
DEFINITION. Shadows, commit sets, arming, seals and the copy of a set's shadows on its commit strike (R37 to R42).
-/

namespace Sys2Proof.Machine

def commitSet (s : State) (k : Nat) : CommitSet := mget (fun _ => {}) s.sets k
def setCommitSet (k : Nat) (x : CommitSet) (s : State) : State := { s with sets := mput (fun _ => {}) k x s.sets }

/-- The commit set of a page (R32). -/
def setOf (s : State) (p : Nat) : Nat := rget s (F.COMMIT_SET.SET p)

/-- The pages that belong to a set. -/
def members (s : State) (k : Nat) : List Nat := allPages.filter (fun p => setOf s p == k)

/-- All ones, which disarms (R40). -/
abbrev allOnes : Nat := 0xFFFFFFFFFFFFFFFF

/-- The keys of a page's fields of a commit kind, with their widths. -/
def commitKeys (c : Commit) (p : Nat) : List Fld :=
  (pageRows p).flatMap (fun r => (r.fields.filter (fun f => f.commit == c && f.access != .ro)).flatMap (fun f =>
    (List.range r.count).map (fun i => fieldOf (p * 4096 + r.off + r.stride * i) f)))

/-- Those that commit on a stroke, and those that commit on a page turn. -/
def strokeKeys (p : Nat) : List Fld := commitKeys .stroke p
def turnKeys (p : Nat) : List Fld := commitKeys .page p

/-- Whether a table word of the page's shadowed windows differs from its live copy (R43). -/
def windowsDiffer (p : Nat) (s : State) : Bool :=
  if p = pFLT then s.filt.desc != s.filt.descSh
  else if p = pDUC then s.duc.sess != s.duc.sessSh || s.duc.keys != s.duc.keysSh
  else if p = pINKW then s.ink.rsel != s.ink.rselSh
  else if p = pTRIM then s.trim.staged.isSome
  else if p = pLDU then s.ldu.tab != s.ldu.tabSh || (turnKeys p).any (fun f => rget s f != sget s f)
  else false

/-- SHADOW_CTRL.PENDING: a shadow of the page differs from its live copy (R31). -/
def pagePending (s : State) (p : Nat) : Bool :=
  (strokeKeys p).any (fun f => rget s f != sget s f) || windowsDiffer p s

/-- Staged trim results are dropped (R110). -/
def dropStaged (s : State) : State :=
  if s.trim.staged.isSome then
    { s with trim := { s.trim with staged := none } } |> whenB (rget s F.TRIM_STATUS.STATE == 3) (rset F.TRIM_STATUS.STATE 0)
  else s

/-- Every live value of a page is copied back into its shadow (DISCARD, R31). -/
def discardPage (p : Nat) (s : State) : State :=
  let s := (strokeKeys p).foldl (fun t f => sset f (rget s f) t) s
  if p = pFLT then { s with filt := { s.filt with descSh := s.filt.desc, fresh := false } }
  else if p = pDUC then { s with duc := { s.duc with sessSh := s.duc.sess, keysSh := s.duc.keys } }
  else if p = pINKW then { s with ink := { s.ink with rselSh := s.ink.rsel } }
  else if p = pTRIM then dropStaged s
  else if p = pLDU then (turnKeys p).foldl (fun t f => sset f (rget s f) t) { s with ldu := { s.ldu with tabSh := s.ldu.tab } }
  else s

/-- A flag of COMMIT_SET is set on some pages, which raises HDR there (R29). -/
def flagPages (ps : List Nat) (f : Nat → Fld) (s : State) : State := forAll ps (fun p s => s |> rset (f p) 1 |> raise p hdrBit) s

/-- What an arming request for stroke `n` comes to, with the stroke period so far spent on the present stroke (R38). -/
inductive ArmOutcome where
  | on (n : Nat)
  | late (n : Nat)
  | stale
  deriving DecidableEq, Repr

/-- R38: at least 64 DCLK cycles before the strike of `n` it holds for `n`; later it slips to n + 1; at or after the strike it is
refused. `cyc` is the cycle, counted from the latest strike, on which the request is in the stroke domain; it may lie past the next
strike. -/
def armOutcome (s : State) (n cyc : Nat) : ArmOutcome :=
  let past := s.struck && decide (strokeLen s ≤ cyc)
  let nx := nextStroke s + past.toNat
  let c := if past then cyc - strokeLen s else cyc
  if n < nx then .stale
  else if nx < n then .on n
  else if !s.struck then .on n
  else if c + 64 ≤ strokeLen s then .on n else .late (n + 1)

/-- The first stroke that meets the commit rule (COMMIT_NEXT, R31, R38). -/
def firstMeeting (s : State) (cyc : Nat) : Nat :=
  let nx := nextStroke s
  if !s.struck then nx
  else if cyc + 64 ≤ strokeLen s then nx
  else if cyc + 64 ≤ 2 * strokeLen s then nx + 1 else nx + 2

/-- A set is armed for a stroke named in an arming request (R37, R38, R40). LATE shows on every member page, and STALE on the pages `ps` that the
request came through (log entry 42). -/
def armSet (k n cyc : Nat) (ps : List Nat) (s : State) : State :=
  match armOutcome s n cyc with
  | .on m => setCommitSet k { commitSet s k with armed := some m } s
  | .late m => s |> setCommitSet k { commitSet s k with armed := some m } |> flagPages (members s k) F.COMMIT_SET.LATE
  | .stale => flagPages ps F.COMMIT_SET.STALE s

/-- A received broadcast that arms something is armed, LATE or STALE: its counters, events and violation (R42, R185, R186 0x0A). -/
def bcastNote (o : ArmOutcome) (s : State) : State :=
  match o with
  | .on _ => raise pBCAST 0 s
  | .late _ => s |> inc F.BCAST_STATUS.LATE |> raise pBCAST 0 |> raise pBCAST 2
  | .stale => s |> ilkViolation 0x0A ((upLane s).getD 0) |> inc F.BCAST_STATUS.STALE |> raise pBCAST 2

/-- A received broadcast arms set `k`; it comes through no page, so STALE shows on every member (R42; log entry 42). -/
def bcastSet (k n cyc : Nat) (s : State) : State := s |> armSet k n cyc (members s k) |> bcastNote (armOutcome s n cyc)

/-- What a deferred arming has for its page when a broadcast made it. -/
abbrev bcastPage : Nat := 4096

/-- A set is disarmed (R40). -/
def disarmSet (k : Nat) (s : State) : State := setCommitSet k { commitSet s k with armed := none } s

/-- BCAST_LEAD in strokes (R42): the smallest number that covers the largest path delay, 48 DCLK cycles a hop, and 64 cycles. -/
def bcastLead (s : State) : Nat := rget s F.BCAST_LEAD.LEAD

/-- A write of a stroke to COMMIT_STROKE of page `p` that no seal defers: a local arming, a domain arming or a disarming (R37, R38,
R40, R42). While the pen is frozen an arming is refused (R349). -/
def armWrite (p n cyc : Nat) (s : State) : State :=
  let k := setOf s p
  if n = allOnes then disarmSet k s
  else if penHolder s = 3 then inc F.PEN_COUNT.FROZEN_REFUSED s
  else if on s (F.COMMIT_SET.DOMAIN p) then
    if !isRoot s then flagPages [p] F.COMMIT_SET.NOTROOT s
    else if n < strokeNow s + bcastLead s then flagPages [p] F.COMMIT_SET.SHORT s
    else s |> armSet k n cyc [p] |> sendBcast 1 k 0 n
  else armSet k n cyc [p] s

/-- A write to COMMIT_STROKE of page `p` (R39, R40): deferred past the commit while the set is sealed. -/
def writeCommitStroke (p n cyc : Nat) (s : State) : State :=
  let k := setOf s p
  let c := commitSet s k
  if c.isSealed then setCommitSet k { c with deferred := c.deferred ++ [(p, n)] } s else armWrite p n cyc s

/-- COMMIT_NEXT of page `p` (R31): the first stroke that meets the rule; the root's domain arming is BCAST_LEAD strokes ahead. -/
def writeCommitNext (p cyc : Nat) (s : State) : State :=
  let n := if on s (F.COMMIT_SET.DOMAIN p) && isRoot s then max (firstMeeting s cyc) (strokeNow s + bcastLead s) else firstMeeting s cyc
  writeCommitStroke p n cyc s

/-- The hub's own arming of a page's set (R107, R148): held until the unlock while the pen is frozen (R349). -/
def hubArm (p cyc : Nat) (s : State) : State :=
  if penHolder s = 3 then
    { s with pen := { s.pen with heldArms := if s.pen.heldArms.contains p then s.pen.heldArms else s.pen.heldArms ++ [p] } }
  else writeCommitNext p cyc s

/-- The set of page `p` is sealed. -/
def pageSealed (s : State) (p : Nat) : Bool := (commitSet s (setOf s p)).isSealed

/-- A shadow write to a sealed page is held in the spine (R39). -/
def holdWrite (p off v : Nat) (s : State) : State :=
  let k := setOf s p
  let c := commitSet s k
  s |> setCommitSet k { c with held := c.held ++ [⟨off, v⟩] } |> inc (F.SHADOW_CTRL.HELD_CNT p)

/-- COMMIT_SEAL: 64 cycles before an armed commit the set is sealed (R39). -/
def sealSet (k : Nat) (s : State) : State :=
  let c := commitSet s k
  if c.armed = some (nextStroke s) then setCommitSet k { c with isSealed := true } s else s

/-! ### Storing a register write (R7 to R9) -/

/-- What a field holds after a write of the bits `v` to it: the span's nearer end, one bits set or cleared (R7, R8). -/
def fieldWritten (f : FieldRow) (old v : Nat) : Nat :=
  match f.access with
  | .ro => old
  | .w1c => clrBits old v
  | .w1s => old ||| v
  | _ => clampSpan f.span v

/-- One field of a register write goes to its live copy, or to its shadow where its commit is not now (R8, R9). -/
def storeField (off v : Nat) (f : FieldRow) (s : State) : State :=
  let x := slice f.lo f.width v
  let d := fieldOf off f
  match f.access, f.commit with
  | .ro, _ => s
  | .w1s, _ => s
  | .wo, _ => s
  | _, .boot => s
  | _, .now => rset d (fieldWritten f (rget s d) x) s
  | _, _ => sset d (fieldWritten f (sget s d) x) s

/-- The fields of a register that `p` accepts are written with the word `v`; action bits (W1S) and write-only words store nothing
here. -/
def storeWhere (p : FieldRow → Bool) (off v : Nat) (s : State) : State :=
  match findRow (off % 4096) (pageRows (off / 4096)) with
  | none => s
  | some r => (r.fields.filter p).foldl (fun t f => storeField off v f t) s

/-- All of a register's fields; those that a commit makes live; and the others. -/
def storeReg (off v : Nat) (s : State) : State := storeWhere (fun _ => true) off v s
def storeShadow (off v : Nat) (s : State) : State := storeWhere (fun f => f.commit == .stroke) off v s
def storeNow (off v : Nat) (s : State) : State := storeWhere (fun f => f.commit != .stroke) off v s

/-- What a write of the shadow registers does beside storing its fields: a fresh flourish request (R129), a fresh rotation seed (R76)
and the staging of ACCEPT (R147). -/
def shadowMarks (off v : Nat) (s : State) : State :=
  if off = 0x17098 then { s with filt := { s.filt with fresh := true } }
  else if off = 0x15578 then { s with nibs := { s.nibs with rotFresh := true } }
  else if off = 0x50D0 ∧ bitSet v 2 then stageJump s
  else s

/-- The shadow fields of a register write are stored, with their marks. -/
def storeMarked (off v : Nat) (s : State) : State := shadowMarks off v (storeShadow off v s)

/-- Whether a register has a field that commits on a stroke. -/
def hasStroke (off : Nat) : Bool :=
  match findRow (off % 4096) (pageRows (off / 4096)) with
  | none => false
  | some r => r.fields.any (fun f => f.commit == .stroke && f.access != .ro)

/-! ### The commit strike (R37, R39, R40) -/

/-- The shadows of a page are copied to their live copies, but for SYS's M where R124 withholds it. -/
def copyPage (p : Nat) (s : State) : State := (strokeKeys p).foldl (fun t f => rset f (sget s f) t) s

/-- A word goes into the shadow of a table that commits on a stroke: 0 FLT_DESC, 1 DUC_SESS, 2 DUC_KEY, 3 INKW_RSEL (R43). What an unlisted
word of INKW_RSEL reads as is `d`. -/
def shadowTable (d : Nat → Wide) (win i v : Nat) (s : State) : State :=
  let w : Wide := BitVec.ofNat 128 v
  if win = 0 then { s with filt := { s.filt with descSh := mput wideZero i w s.filt.descSh } }
  else if win = 1 then { s with duc := { s.duc with sessSh := mput wideZero i w s.duc.sessSh } }
  else if win = 2 then { s with duc := { s.duc with keysSh := mput wideZero i w s.duc.keysSh } }
  else { s with ink := { s.ink with rselSh := mput d i w s.ink.rselSh } }

/-- A held write of a table word stands among the held register writes past this offset. -/
abbrev tableOff : Nat := 0x1000000

/-- A held write is applied. -/
def applyHeld (d : Nat → Wide) (h : HeldWrite) (s : State) : State :=
  if h.off < tableOff then storeMarked h.off h.val s
  else shadowTable d ((h.off - tableOff) / 65536) ((h.off - tableOff) % 65536) h.val s

/-- What waited for the commit of a set is applied after it: the held writes, then the deferred armings (R39, R40). -/
def releaseSet (d : Nat → Wide) (k : Nat) (s : State) : State :=
  let c := commitSet s k
  s |> setCommitSet k { c with held := [], deferred := [] }
    |> forAll c.held (applyHeld d)
    |> forAll c.deferred (fun d => if d.1 = bcastPage then bcastSet k d.2 0 else armWrite d.1 d.2 0)

end Sys2Proof.Machine
end

