-- ==== Sys2Proof/Machine/ScribeBase.lean ====
section
/-!
DEFINITION. The halves: their registers, tablets, slots and states, and what triggers, ends and faults a slot (R351, R352, R355, R356).
-/

namespace Sys2Proof.Machine

/-- Recto is half 0, Verso half 1. -/
def sideIdx : Side → Nat
  | .recto => 0
  | .verso => 1

/-- A field of SCRR, or the same field of SCRV, which has SCRR's layout 4 KB above it (R363). -/
abbrev sf (h : Nat) (f : Fld) : Fld := ⟨f.key + 32768 * h, f.width⟩

/-- The page of a half. -/
def halfPage (h : Nat) : Nat := pSCRR + h

/-- A half as a requester. -/
def halfReq (h : Nat) : Requester := if h = 0 then .recto else .verso

def half (s : State) (h : Nat) : Half := mget (fun _ => {}) s.halves h
def setHalf (h : Nat) (f : Half → Half) (s : State) : State := { s with halves := mput (fun _ => {}) h (f (half s h)) s.halves }

/-- SCRx_STATE.STATE: 0 RESET, 1 BOOT, 2 READY, 3 HOLD, 4 PEN, 5 HALTED, 6 FAILED (R356). -/
def halfState (s : State) (h : Nat) : Nat := rget s (sf h F.SCRR_STATE.STATE)

/-- READY, HOLD and PEN run slots. -/
def halfRuns (s : State) (h : Nat) : Bool := decide (2 ≤ halfState s h ∧ halfState s h ≤ 4)

/-- A change of STATE raises the half's SRC[0], and shows in MON_WEAR.HALVES_OK (R361, R399). -/
def setHalfState (h v : Nat) (s : State) : State :=
  if halfState s h = v then s else
  let s := s |> rset (sf h F.SCRR_STATE.STATE) v |> raise (halfPage h) 0
  wear F.MON_WEAR.HALVES_OK (bitsOf ([0, 1].filter (fun k => halfState s k != 6))) s

def tbGet (s : State) (h i : Nat) : Nat := mget zeroAt (half s h).tb i % 2 ^ 64
def tbSet (h i v : Nat) (s : State) : State := setHalf h (fun x => { x with tb := mput zeroAt i (v % 2 ^ 64) x.tb }) s

/-- A word of the scribe memory; addresses count modulo 32,768. -/
def memGet (s : State) (h a : Nat) : Nat := mget zeroAt (half s h).mem (a % 32768) % 2 ^ 64
def memSet (h a v : Nat) (s : State) : State :=
  setHalf h (fun x => { x with mem := mput zeroAt (a % 32768) (v % 2 ^ 64) x.mem }) s

/-- The trigger of a slot occurs: it is pending when its EN bit is 1; it merges with a pending one (R351, R352). -/
def triggerSlot (h k : Nat) (s : State) : State :=
  if halfRuns s h && bitSet (rget s (sf h F.SCRR_SLOTS.EN)) k then setBitOf (sf h F.SCRR_SLOTS.PEND) k s else s

/-- The EVA source named for slot 4 to 15. -/
def slotEv (s : State) (h k : Nat) : Nat :=
  if k < 12 then rget s (sf h (F.SCRR_SLOTEV0.EV (k - 4))) else rget s (sf h (F.SCRR_SLOTEV1.EV (k - 12)))

/-- An EVA source rises in the raw state: the slots of both halves that name it are triggered (R351, R387). -/
def scribeEvent (ev : Nat) (s : State) : State :=
  forAll [0, 1] (fun h s => forAll ((List.range 12).map (· + 4)) (fun k s => if slotEv s h k = ev then triggerSlot h k s else s) s) s

/-- The half's program counter. -/
def setPc (h pc : Nat) (s : State) : State := rset (sf h F.SCRR_STATE.PC) (pc % 32768) s

/-- The slot that runs ends. -/
def endSlot (h : Nat) (s : State) : State :=
  s |> setHalf h (fun x => { x with run := none, wait := .none, stack := [] })
    |> rset (sf h F.SCRR_STATE.SLOT) 0 |> rset (sf h F.SCRR_STATE.IDLE) 1

/-- The tablets are shown in TB0 to TB15, as at a HALT or a slot fault (R363). -/
def showTablets (h : Nat) (s : State) : State := forAll (List.range 16) (fun i s => rset (sf h (F.SCRR_TB.VALUE i)) (tbGet s h i) s) s

/-- The slot ends with a fault; the PC goes on past its command (R355; log entry 45). -/
def slotFault (h code : Nat) (s : State) : State :=
  let slot := rget s (sf h F.SCRR_STATE.SLOT)
  let pc := rget s (sf h F.SCRR_STATE.PC)
  s |> rset (sf h F.SCRR_FAULT.CODE) code |> rset (sf h F.SCRR_FAULT.SLOT) slot
    |> rset (sf h F.SCRR_FAULT.PC) pc |> rset (sf h F.SCRR_FAULT.STROKE_LO) (strokeNow s)
    |> inc (sf h F.SCRR_COUNT.FAULTS) |> raise (halfPage h) 1 |> showTablets h |> setPc h (pc + 1) |> endSlot h

/-- The next slot starts: slot 1 ahead of any other, else the lowest pending one, at the address in the memory word of its number, whose parity
may fail (R351, R352, R355). -/
def slotStart (h : Nat) (bad : Bool) (s : State) : State :=
  let pend := rget s (sf h F.SCRR_SLOTS.PEND)
  if !halfRuns s h || (half s h).run.isSome then s else
  match (if bitSet pend 1 then [1] else indicesWhere 16 (bitSet pend)) with
  | [] => s
  | k :: _ =>
    let s := s |> clrBitOf (sf h F.SCRR_SLOTS.PEND) k |> setHalf h (fun x => { x with run := some k, wait := .none, stack := [] })
      |> rset (sf h F.SCRR_STATE.SLOT) k |> rset (sf h F.SCRR_STATE.IDLE) 0 |> inc (sf h F.SCRR_COUNT.SLOTS_RUN)
    if bad then s |> setPc h k |> slotFault h 5 else setPc h (memGet s h k) s

/-- The timer period of slot 2 ends; with TIMER_US = 0 there is none (R351). -/
def scribeTimer (h : Nat) (s : State) : State := if rget s (sf h F.SCRR_WD.TIMER_US) = 0 then s else triggerSlot h 2 s

/-- The half will leave the pen, and its claim, at the end of the window, for a cause of PEN_LAST (R345, R346). -/
def leavePen (h cause : Nat) (s : State) : State := setHalf h (fun x => { x with drop := some cause }) s

/-- Whether a half's heartbeat has toggled within HB_TIMEOUT_US before DCLK cycle `now`. -/
def halfAlive (s : State) (h now : Nat) : Bool :=
  match (half s h).hbAt with
  | none => false
  | some t => decide (now - t ≤ rget s F.PEN_CFG.HB_TIMEOUT_US * 512)

/-- The mailbox queue of a half. -/
def mbxOf (h : Nat) : Nat := qMBXR + h

/-- The words of a mailbox item that is not yet whole are discarded and counted (R251). -/
def mbxDiscard (h : Nat) (s : State) : State :=
  let q := mbxOf h
  if (queue s q).pend.isEmpty then s
  else s |> setQueue q { queue s q with pend := [] } |> inc (F.QUE_q_COUNT2.DRAINED q)

/-- The host mailbox of a half is cleared (R356, R357). -/
def mbinClear (h : Nat) (s : State) : State :=
  s |> setHalf h (fun x => { x with inbox := [] }) |> rset (sf h F.SCRR_MBIN_CTRL.COUNT) 0 |> rset (sf h F.SCRR_MBIN_CTRL.BUSY) 0

/-- A reset of a half (R356, R367, R373): the scribe stops, the pen and the claim go at the end of the window, the mailbox item in
progress and the host's item are discarded, and the boot ROM starts with SELFTEST. `newSeal`: it waits for a seal made after it. -/
def halfReset (h : Nat) (newSeal : Bool) (s : State) : State :=
  s |> endSlot h |> rset (sf h F.SCRR_SLOTS.PEND) 0 |> leavePen h 5 |> mbxDiscard h |> mbinClear h
    |> setHalf h (fun x => { x with newSeal, cold := false, fails := if newSeal then 0 else x.fails })
    |> setHalfState h 1 |> rset (sf h F.SCRR_BOOT.STATUS) 0x0100 |> inc (sf h F.SCRR_COUNT.BOOTS) |> inc F.SYS_COUNT.BOOTS

/-- The watchdog's period ends at DCLK cycle `now` without a heartbeat: the half is reset (R356). -/
def watchdogExpiry (h now : Nat) (s : State) : State :=
  if on s (sf h F.SCRR_CTRL.WD_EN) && halfRuns s h && decide (rget s (sf h F.SCRR_WD.WD_MS) * 512000 ≤ now - (half s h).wdFrom) then
    s |> inc (sf h F.SCRR_COUNT.WD_EXP) |> raise (halfPage h) 2 |> halfReset h false
  else s

/-- SCRx_CTRL.WD_EN is written: a write that sets it starts a full period (R356). -/
def watchdogEnable (h now : Nat) (was : Bool) (s : State) : State :=
  if on s (sf h F.SCRR_CTRL.WD_EN) && !was then setHalf h (fun x => { x with wdFrom := now }) s else s

/-- A word pushed by the host: refused while an item is under way and past 64 words (R357). -/
def mbinPush (h v : Nat) (s : State) : State :=
  let x := half s h
  if on s (sf h F.SCRR_MBIN_CTRL.BUSY) || decide (64 ≤ x.inbox.length) then
    s |> inc (sf h F.SCRR_MBIN_CTRL.REFUSED) |> raise (halfPage h) 4
  else s |> setHalf h (fun x => { x with inbox := x.inbox ++ [v] }) |> rset (sf h F.SCRR_MBIN_CTRL.COUNT) (x.inbox.length + 1)

/-- SEND: the words pushed become the item, BUSY becomes 1 and slot 3 is triggered; with no word, or while BUSY, nothing (R357). -/
def mbinSend (h : Nat) (s : State) : State :=
  if (half s h).inbox.isEmpty || on s (sf h F.SCRR_MBIN_CTRL.BUSY) then s
  else s |> rset (sf h F.SCRR_MBIN_CTRL.BUSY) 1 |> triggerSlot h 3

end Sys2Proof.Machine
end

