-- ==== Sys2Proof/Machine/Pen.lean ====
section
/-!
DEFINITION. The pen: its arbiter's copies and windows, changes of holder, the frozen pen, the unlock and the hand-over (R342 to R350,
R358, R359).
-/

namespace Sys2Proof.Machine

def setPen (f : Pen → Pen) (s : State) : State := { s with pen := f s.pen }

/-- The half that a value of HOLDER names: 1 Recto, 2 Verso. -/
def holderHalf (v : Nat) : Option Nat := if v = 1 then some 0 else if v = 2 then some 1 else none

/-- EPOCH of the half that HOLDER names, 0 for none (R347). -/
def epochOf (s : State) (v : Nat) : Nat :=
  match holderHalf v with
  | none => 0
  | some h => rget s (sf h F.SCRR_EPOCH.EPOCH)

/-- PEN_LAST is written (R347, R348). -/
def penLast (cause from' who : Nat) (s : State) : State :=
  s |> rset F.PEN_LAST.CAUSE cause |> rset F.PEN_LAST.FROM from' |> rset F.PEN_LAST.TO who |> rset F.PEN_LAST.STROKE_LO (strokeNow s)

/-- All three copies take a value, which PEN_STATE shows. -/
def loadCopies (x : PenCopy) (s : State) : State :=
  s |> setPen (fun p => { p with copies := [x, x, x] }) |> rset F.PEN_STATE.HOLDER x.holder |> rset F.PEN_STATE.EPOCH x.epoch
    |> rset F.PEN_STATE.GEN x.gen

/-- HOST_GRANT is cleared on every P page and on SYS (R347). -/
def clearGrants (s : State) : State := forAll (pSYS :: pPages) (fun p => rset (F.OWNER.HOST_GRANT p) 0) s

/-- The result of a CLAIM goes to TBa of the command that waits for it, and the scribe goes on (R353). -/
def claimResult (h v : Nat) (s : State) : State :=
  if (half s h).wait ≠ .claim then s else
  let pc := rget s (sf h F.SCRR_STATE.PC)
  s |> tbSet h (slice 52 4 (memGet s h pc)) v |> setHalf h (fun x => { x with wait := .none }) |> setPc h (pc + 1)

/-- The half that HOLDER named leaves PEN (R347, R349). -/
def penLeft (old : Nat) (s : State) : State :=
  match holderHalf old with
  | none => s
  | some h => if halfState s h = 4 then setHalfState h 2 s else s

/-- The half that HOLDER names receives the pen: its state, its claim, slot 1 and the CLAIM that waited (R347, R351, R353). -/
def penTaken (v : Nat) (s : State) : State :=
  match holderHalf v with
  | none => s
  | some h => s |> whenB (halfRuns s h) (setHalfState h 4) |> rset (sf h F.SCRR_STATE.CLAIM) 0 |> triggerSlot h 1 |> claimResult h 1

/-- A change of HOLDER at DCLK cycle `now`, with GEN made `gen` (R347, R351 slot 1). -/
def setHolder (v cause gen now : Nat) (s : State) : State :=
  s |> loadCopies { holder := v, epoch := epochOf s v, gen := gen % 65536 } |> clearGrants |> penLast cause (penHolder s) v |> raise pPEN 0
    |> setPen (fun p => { p with since := now, withdraw := false }) |> penLeft (penHolder s) |> penTaken v

/-- The next GEN. -/
def nextGen (s : State) : Nat := rget s F.PEN_STATE.GEN + 1

/-- The holder's period ends at DCLK cycle `now` without a toggle: the loss is counted, and the pen goes at the end of the window
(R346). -/
def heartbeatTimeout (now : Nat) (s : State) : State :=
  match holderHalf (penHolder s) with
  | none => s
  | some h =>
    let from' := max s.pen.since ((half s h).hbAt.getD 0)
    if s.pen.withdraw || decide (now < from' + rget s F.PEN_CFG.HB_TIMEOUT_US * 512) then s
    else s |> setPen (fun p => { p with withdraw := true }) |> inc F.PEN_COUNT.HB_LOSSES |> raise pPEN 3

/-- The holder leaves the pen at the end of a window: released, reset or halted, or without a heartbeat (R345, R346). -/
def windowLeave (now : Nat) (s : State) : State :=
  match holderHalf (penHolder s) with
  | none => s
  | some h =>
    match (half s h).drop with
    | some cause => setHolder 0 cause (nextGen s) now s
    | none => if s.pen.withdraw then setHolder 0 4 (nextGen s) now s else s

/-- Claims that meet a held pen: the holder's changes nothing and is granted, one in HOLD stays pending, another is refused and
withdrawn (R345). -/
def claimHeld (h : Nat) (s : State) : State :=
  if holderHalf (penHolder s) = some h then s |> rset (sf h F.SCRR_STATE.CLAIM) 0 |> claimResult h 1
  else if halfState s h = 3 then claimResult h 0 s
  else s |> rset (sf h F.SCRR_STATE.CLAIM) 0 |> inc F.PEN_COUNT.CLAIM_REFUSED |> raise pPEN 2 |> claimResult h 2

/-- A contest for the free pen: the higher pen epoch wins, Recto on equal ones, and the loser enters HOLD with its claim pending
(R345). -/
def contest (now : Nat) (s : State) : State :=
  let w := if rget s (sf 0 F.SCRR_EPOCH.EPOCH) < rget s (sf 1 F.SCRR_EPOCH.EPOCH) then 1 else 0
  s |> inc F.PEN_COUNT.CONTESTS |> setHalfState (1 - w) 3 |> raise pPEN 1 |> setHolder (w + 1) 2 (nextGen s) now |> claimResult (1 - w) 0

/-- The claims that count in a window. -/
def windowClaims (claims : List Nat) (now : Nat) (s : State) : State :=
  if penHolder s = 0 then
    match claims with
    | [h] => setHolder (h + 1) 1 (nextGen s) now s
    | _ :: _ => contest now s
    | [] => s
  else forAll claims claimHeld s

/-- A half's leaving is done: its claim goes with a reset or a halt (R346). -/
def dropDone (h : Nat) (s : State) : State :=
  match (half s h).drop with
  | none => s
  | some c => s |> whenB (c == 5) (rset (sf h F.SCRR_STATE.CLAIM) 0) |> setHalf h (fun x => { x with drop := none })

/-- The end of an arbitration window (R345, R346); while the pen is frozen claims and releases are ignored (R349). -/
def penWindow (now : Nat) (s : State) : State :=
  if penHolder s = 3 then
    s |> forAll [0, 1] dropDone
      |> forAll [0, 1] (fun h s => if (half s h).wait = .claim then s |> rset (sf h F.SCRR_STATE.CLAIM) 0 |> claimResult h 3 else s)
  else
    let claims := [0, 1].filter (fun h => on s (sf h F.SCRR_STATE.CLAIM) && (half s h).drop.isNone)
    s |> windowLeave now |> forAll [0, 1] dropDone |> windowClaims claims now

/-! ### Voting and the frozen pen (R348 to R350) -/

/-- A copy is outvoted: it is rewritten, and its FIX count and SRC[4] show it. -/
def fixCopy (f : Fld) (x : PenCopy) (s : State) : State := s |> setPen (fun p => { p with copies := [x, x, x] }) |> inc f |> raise pPEN 4

/-- The agreed value is used. -/
def useAgreed (x : PenCopy) (s : State) : State :=
  s |> whenB (penHolder s != x.holder) (raise pPEN 0) |> rset F.PEN_STATE.HOLDER x.holder |> rset F.PEN_STATE.EPOCH x.epoch
    |> rset F.PEN_STATE.GEN x.gen

/-- The pen freezes: armed commit sets that are not sealed are disarmed; HOLDER reads 3, and GEN and EPOCH keep the last agreed values
(R348, R349). -/
def penFreeze (s : State) : State :=
  s |> rset F.PEN_STATE.HOLDER 3 |> rset F.PEN_STATE.FROZEN 1 |> inc F.PEN_VOTE.FREEZES |> raise pPEN 5 |> penLast 8 (penHolder s) 3
    |> wear F.MON_WEAR.PEN_OK 0 |> setPen (fun p => { p with withdraw := false })
    |> forAll (List.range 8) (fun k s => if (commitSet s k).isSealed then s else disarmSet k s)
    |> penLeft (penHolder s)

/-- The three copies are compared as they are found (R348). -/
def penCompare (a b c : PenCopy) (s : State) : State :=
  if penHolder s = 3 then s else
  let s := setPen (fun p => { p with copies := [a, b, c] }) s
  if a = b ∧ b = c then useAgreed a s
  else if a = b then s |> useAgreed a |> fixCopy F.PEN_VOTE.FIX_C a
  else if a = c then s |> useAgreed a |> fixCopy F.PEN_VOTE.FIX_B a
  else if b = c then s |> useAgreed b |> fixCopy F.PEN_VOTE.FIX_A b
  else penFreeze s

/-- PEN_UNLOCK.RESULT (R350). -/
def unlockResult (v : Nat) (s : State) : State := s |> rset F.PEN_UNLOCK.RESULT v |> raise pPEN 6

/-- The unlock: the copies take the new holder and one more than their highest GEN, and the armings the hub held are made (R349, R350). -/
def penUnlock (who cyc now : Nat) (s : State) : State :=
  let g := (s.pen.copies.map (·.gen)).foldl max 0 + 1
  let held := s.pen.heldArms
  s |> setPen (fun p => { p with heldArms := [] }) |> rset F.PEN_STATE.FROZEN 0 |> wear F.MON_WEAR.PEN_OK 1 |> setHolder who 7 g now
    |> forAll held (fun p => writeCommitNext p cyc) |> unlockResult 1

/-- A write to PEN_UNLOCK (R350). -/
def unlockWrite (r : Req) (key who : Nat) (go : Bool) (s : State) : State :=
  let now := dclkAt r s
  if penHolder s ≠ 3 then unlockResult 2 s
  else if key = 0x3C5A ∧ !go then setPen (fun p => { p with key := some (r.who, now) }) s
  else
    let was := s.pen.key
    let s := setPen (fun p => { p with key := none }) s
    match was with
    | none => unlockResult 2 s
    | some (w, t) =>
      if w ≠ r.who ∨ t + 1024 < now ∨ key ≠ 0xA5C3 ∨ !go ∨ who = 3 then unlockResult 2 s
      else match holderHalf who with
        | none => penUnlock 0 r.cyc now s
        | some h => if halfAlive s h now then penUnlock who r.cyc now s else unlockResult 3 s

/-! ### The hand-over (R358, R359) -/

/-- A hand-over flag is set, which raises SRC[7]. -/
def xferFlag (f : Fld) (s : State) : State := s |> rset f 1 |> raise pPEN 7

def setXferArm (x : Option (Nat × Nat)) (s : State) : State :=
  s |> setPen (fun p => { p with xfer := x }) |> rset F.PEN_XFER.ARMED x.isSome.toNat

/-- PEN_XFER.GO: a hand-over to `who` is armed for PEN_XFER_STROKE under R38; TO = 0 disarms; a frozen pen refuses (R349, R358). -/
def xferArm (who cyc : Nat) (s : State) : State :=
  if who = 0 then setXferArm none s
  else if penHolder s = 3 then inc F.PEN_COUNT.FROZEN_REFUSED s
  else match armOutcome s (rget s F.PEN_XFER_STROKE.STROKE) cyc with
    | .on m => setXferArm (some (who, m)) s
    | .late m => s |> setXferArm (some (who, m)) |> xferFlag F.PEN_XFER.LATE
    | .stale => xferFlag F.PEN_XFER.STALE s

/-- Why a hand-over is refused at its strike, 0 where it is not (R358). -/
def xferReason (who now : Nat) (s : State) : Nat :=
  if who = 3 then 4
  else if penHolder s = 3 then 2
  else if penHolder s = who then 3
  else match holderHalf who with
    | none => 4
    | some h => if halfRuns s h && halfAlive s h now then 0 else 1

/-- The hand-over of stroke `n` at its strike (R358, R359): the outgoing half is reset, or enters READY. -/
def handOver (n : Nat) (s : State) : State :=
  match s.pen.xfer with
  | none => s
  | some (who, m) =>
    if m ≠ n then s else
    let now := s.strikeDclk
    let s := setXferArm none s
    let why := xferReason who now s
    if why ≠ 0 then s |> rset F.PEN_XFER.REASON why |> xferFlag F.PEN_XFER.REFUSED
    else
      let old := holderHalf (penHolder s)
      let s := s |> setHolder who 6 (nextGen s) now |> rset F.PEN_XFER.LAST_LO n
      match old with
      | none => s
      | some h => if on s F.PEN_CFG.RELOAD_OLD then halfReset h false s else s

end Sys2Proof.Machine
end

