-- ==== Sys2Proof/Machine/Solver.lean ====
section
/-!
DEFINITION. The end of a trim run: the solver's checks, the staging of what passes and its arming (R100, R105 to R108), and ABORT (R110).
-/

namespace Sys2Proof.Machine

/-- The front-end part ends after its strokes (R100). -/
def trimFeEnd (s : State) : State :=
  if trimState s = 1 ∧ s.trim.feOn ∧ s.trim.feLen ≤ rget s F.TRIM_PROGRESS.FE_DONE then { s with trim := { s.trim with feOn := false } } else s

/-- The run ends when NIB_DONE is W and the front-end part has run its length, and the solver begins (R100, R107). -/
def trimRunEnd (s : State) : State :=
  if trimState s = 1 ∧ trimW ≤ rget s F.TRIM_PROGRESS.NIB_DONE ∧ s.trim.feLen ≤ rget s F.TRIM_PROGRESS.FE_DONE then
    { s with trim := { s.trim with feOn := false } } |> rset F.TRIM_STATUS.STATE 2
  else s

/-- The nib results that count: of a nib that is not retired and has converted its share (R100). -/
def nibsCounted (s : State) (v : Solved) : List NibResult :=
  v.nibs.filter (fun r => decide (r.nib < 72) && nibState s r.nib != 3 && nibComplete s r.nib)

/-- The channels that the front-end part correlated (R100, R101). -/
def feChans (s : State) : List Nat :=
  if s.trim.feLen = 0 then [] else indicesWhere 512 (fun c => bitSet s.trim.grp (groupOf c) && rget s (fcMode c) != 3)

/-- The front-end place of a channel's live range. -/
def fePlace (s : State) (c : Nat) : Nat := 4 * c + rget s (fcRange c)

/-- A channel's result passes (R105). -/
def feOk (s : State) (c : Nat) : Bool := fePasses s (fePlace s c) (corrResult s c).1 (corrResult s c).2

/-- A lane's results all pass; it has run its calibration step when LANE_EN is 1 (R104, R105). -/
def laneOk (s : State) (v : Solved) (k : Nat) : Bool :=
  (v.lanes.filter (fun x => x.1 / 4 == k)).all (fun x => fePasses s (2048 + x.1) x.2.1 x.2.2)

/-- The outcome of a run (R105, R106). -/
def solvedOutcome (s : State) (v : Solved) (nibFails items : Nat) : Nat :=
  if 100 * rget s F.TRIM_LIM_REF.REF_AGREE < v.ref.natAbs then 3
  else if rget s F.TRIM_LIM_REF.INJ_TOL < v.inj then 4
  else if rget s F.TRIM_CTRL.FAIL_CAP < nibFails then 5
  else if items = 0 then 1 else 2

/-- A bit map over 64-bit registers. -/
def setMap (f : Nat → Fld) (n : Nat) (xs : List Nat) (s : State) : State :=
  forAll (List.range n) (fun j => rset (f j) (bitsOf ((xs.filter (fun c => c / 64 == j)).map (· % 64)))) s

/-- A nib's result is counted: a rejection is a failing check, and three in consecutive runs retire the nib (R84 reason 4, R86). -/
def nibTrimmed (nib : Nat) (pass : Bool) (s : State) : State :=
  let n := if pass then 0 else (nibSt s nib).trimFails + 1
  s |> setNibSt nib { nibSt s nib with trimFails := n } |> whenB (!pass) (checkFailed nib 4 (decide (3 ≤ n)))

/-- AGE of what the run did not measure; a seed keeps 255 (R102, R112). -/
def ageRest (s : State) : State :=
  { s with trim := { s.trim with age := (s.trim.age.map (fun x => (x.1, min 255 (x.2 + 1)))).filter (fun x => x.2 != 255) } }

/-- Passing results are staged together, in the place of any that still wait (R107, R108). -/
def stageResults (nibs : List NibResult) (fe : List (Nat × Nat × Nat)) (exc : List ExcResult) (s : State) : State :=
  let g : Staged :=
    { nibs := nibs.map (fun r => (r.nib, r.ofs, r.gain, r.lin))
      wts := nibs.flatMap (fun r => (List.range 22).map (fun d => (22 * r.nib + d, nth 0 r.weights d % 2 ^ 32)))
      fe := fe
      exc := exc.map (fun r => (r.src, r.iNa))
      temps := s.trim.temps, board := s.trim.board, start := s.trim.start }
  s |> whenB s.trim.staged.isSome (inc F.TRIM_COUNT.SUPERSEDED)
    |> (fun s => { s with trim := { s.trim with staged := some g } }) |> raise pTRIM 1

/-- What the solver finds of a run (R102, R105, R106): the results that count and those that fail, and its outcome. -/
structure Verdict where
  nibs : List NibResult
  nibBad : List Nat
  unm : List Nat
  feBad : List Nat
  laneBad : List Nat
  excs : List ExcResult
  excBad : List ExcResult
  /-- What may be staged of the front end and the lanes: place, offset, gain. -/
  fe : List (Nat × Nat × Nat)
  outcome : Nat

/-- Failing items of a run. -/
def Verdict.items (d : Verdict) : Nat := d.nibBad.length + d.feBad.length + d.laneBad.length + d.excBad.length

/-- The check of every result of a run (R102, R105, R106). -/
def verdict (s : State) (v : Solved) : Verdict :=
  let nibs := nibsCounted s v
  let chans := feChans s
  let meas := chans.filter (corrMeasured s)
  let laneRan := on s F.TRIM_CTRL.LANE_EN
  let excs := if laneRan then v.exc.filter (fun r => decide (r.src < 16)) else []
  let d : Verdict :=
    { nibs := nibs
      nibBad := (nibs.filter (fun r => !nibPasses s r)).map (·.nib)
      unm := chans.filter (fun c => !corrMeasured s c)
      feBad := meas.filter (fun c => !feOk s c)
      laneBad := if laneRan then indicesWhere 4 (fun k => !laneOk s v k) else []
      excs := excs
      excBad := excs.filter (fun r => !excPasses s r)
      fe := (meas.filter (feOk s)).map (fun c => (fePlace s c, ofInt 32 (corrResult s c).1, (corrResult s c).2 % 2 ^ 24))
        ++ (if laneRan then v.lanes.filter (fun x => decide (x.1 < 16) && laneOk s v (x.1 / 4)) else []).map (fun x =>
          (2048 + x.1, ofInt 32 x.2.1, x.2.2 % 2 ^ 24))
      outcome := 0 }
  { d with outcome := solvedOutcome s v d.nibBad.length d.items }

/-- The solver's report of a run (R84, R102, R105, R112). -/
def solverShow (v : Solved) (d : Verdict) (s : State) : State :=
  s |> rset F.TRIM_REFS.REF_DEV (ofInt 16 (clampSigned 16 v.ref)) |> rset F.TRIM_REFS.INJ_DEV (min 65535 v.inj)
    |> rset F.TRIM_NIBFAIL0.FAIL (bitsOf (d.nibBad.filter (· < 64)))
    |> rset F.TRIM_NIBFAIL1.FAIL (bitsOf ((d.nibBad.filter (64 ≤ ·)).map (· - 64)))
    |> setMap F.TRIM_FEFAIL.FAIL 8 d.feBad |> setMap F.TRIM_FEUNM.UNM 8 d.unm |> rset F.TRIM_LANEFAIL.FAIL (bitsOf d.laneBad)
    |> forAll d.excs (fun r => rset (F.EXC_STATUS.TRIM_FAIL r.src) (d.excBad.contains r).toNat)
    |> whenB (!d.excBad.isEmpty) (raise pEXC 1) |> whenB (!d.unm.isEmpty) (raise pTRIM 7)
    |> incBy F.TRIM_COUNT.ITEM_FAILS d.items |> ageRest

/-- A passing run counts its nibs' results and stages what passed; sources with ICODE 0 have nothing to stage (R84, R104, R107). -/
def solverStage (d : Verdict) (s : State) : State :=
  s |> forAll d.nibs (fun r => nibTrimmed r.nib (!d.nibBad.contains r.nib))
    |> stageResults (d.nibs.filter (fun r => !d.nibBad.contains r.nib)) d.fe
        (d.excs.filter (fun r => !d.excBad.contains r && rget s (F.EXC_CFG.ICODE r.src) != 0))
    |> whenB (d.outcome == 2) (raise pTRIM 3)

/-- The run that has just ended is the newest of TRIM_HIST, and with HOLD = 0 the hub arms COMMIT_NEXT (R107, R112). -/
def solverArm (cyc : Nat) (s : State) : State :=
  { s with trim := { s.trim with staged := s.trim.staged.map (fun g => { g with hist := 0 }) } } |> whenB (!s.trim.hold) (hubArm pTRIM cyc)

/-- TRIM_SOLVER_DONE at DCLK cycle `cyc`: every result is checked, and what passes is staged (R102, R105 to R108). -/
def solverDone (v : Solved) (cyc : Nat) (s : State) : State :=
  if trimState s ≠ 2 then s else
  let d := verdict s v
  let t := solverShow v d s
  if d.outcome ≤ 2 then t |> solverStage d |> trimEnd d.outcome |> solverArm cyc
  else t |> raise pTRIM 4 |> trimEnd d.outcome

/-- Staged results are discarded unless their set is sealed (R110). -/
def dropUnsealed (s : State) : State := if pageSealed s pTRIM then s else dropStaged s

/-- TRIM_CTRL.ABORT (R110): a run or its solver ends, and staged results are discarded unless their set is sealed. -/
def trimAbort (s : State) : State := dropUnsealed (if trimBusy s then trimAbortRun s else s)

end Sys2Proof.Machine
end

