-- ==== Sys2Proof/Machine/TimeOut.lean ====
section
/-!
DEFINITION. Steps of time, the time outputs and the launch queue (R147, R149, R155 to R159).
-/

namespace Sys2Proof.Machine

/-! ### TSU_STATUS.STATE (R145) -/

def tsuState (s : State) : Nat := rget s F.TSU_STATUS.STATE

/-- SOURCE (R138), with 0b11 as 0b10. -/
def tsuSource (s : State) : Nat := min 2 (rget s F.TSU_CTRL.SOURCE)

/-- The mean of the last 2^HOLD_AVG applied rates, or of those there are; the present rate where there is none (R145). -/
def holdRate (s : State) : Int :=
  let xs := s.tsu.rates.take (2 ^ rget s F.TSU_CTRL.HOLD_AVG)
  if xs.isEmpty then rgetI s F.TSU_RATE.RATE else divHalfEven (xs.foldl (· + ·) 0) xs.length

/-- STATE takes a value; a change raises TSU SRC[0]; entering HOLDOVER holds the mean rate from cycle `cyc` (R145, R160). -/
def tsuSetState (v cyc : Nat) (s : State) : State :=
  if tsuState s = v then s else
  let s := s |> rset F.TSU_STATUS.STATE v |> raise pTSU 0
  if v = 3 then s |> tsuSetRate cyc (holdRate s) |> inc F.TSU_HOLD_INFO.HOLDS |> rset F.TSU_HOLD_INFO.SINCE_S 0
  else if v = 1 then { s with tsu := { s.tsu with lockRun := 0 } }
  else s

/-- HOLDOVER, once time has been set (R145). -/
def tsuHoldover (cyc : Nat) (s : State) : State := if s.tsu.valid then tsuSetState 3 cyc s else s

/-! ### Time outputs (R155 to R157) -/

def tout (s : State) (n : Nat) : Tout := mget (fun _ => {}) s.touts n
def setTout (n : Nat) (x : Tout) (s : State) : State := { s with touts := mput (fun _ => {}) n x s.touts }

/-- START and PERIOD of an output in 2⁻¹⁶ ns. -/
def toutStart (s : State) (n : Nat) : Nat :=
  rget s (F.TOUT_START_S.SECONDS n) * secUnits + rget s (F.TOUT_START_NS.NS n) * 65536
def toutPeriod (s : State) (n : Nat) : Nat := rget s (F.TOUT_PERIOD.PERIOD_NS n) * 65536 + rget s (F.TOUT_PERIOD.FRAC n)

/-- MODE, with 5 to 7 as 0 (R155). -/
def toutMode (s : State) (n : Nat) : Nat :=
  let m := rget s (F.TOUT_CFG.MODE n)
  if 5 ≤ m then 0 else m

/-- The limits on WIDTH and PERIOD (R155). -/
def toutBad (s : State) (n : Nat) : Bool :=
  let w := rget s (F.TOUT_CFG.WIDTH n)
  match toutMode s n with
  | 1 | 3 => decide (w < 2)
  | 2 => decide (w < 2 ∨ toutPeriod s n ≤ w * 65536 ∨ toutPeriod s n < 16 * 65536)
  | _ => false

/-- The pin takes its active or inactive level, by POL. -/
def toutDrive (n : Nat) (active : Bool) (s : State) : State :=
  let lvl := (active != on s (F.TOUT_CFG.POL n)).toNat
  if rget s (F.TOUT_CFG.LEVEL n) = lvl then s else s |> rset (F.TOUT_CFG.LEVEL n) lvl |> emit (.tout n lvl)

/-- DONE, PAST or BADCFG is set on an output, and SRC[n] is raised (R160). -/
def toutEnd (n : Nat) (f : Nat → Fld) (s : State) : State := s |> rset (f n) 1 |> raise pTOUT n

/-- The first grid point of a periodic output at or after a time. -/
def gridFrom (start period t : Nat) : Nat := if t ≤ start then start else start + ceilDiv (t - start) period * period

/-- An output is armed by a commit at the strike time `t` (R155, R156). -/
def toutArm (n t : Nat) (s : State) : State :=
  let s := s |> rset (F.TOUT_CFG.DONE n) 0 |> rset (F.TOUT_CFG.BADCFG n) 0 |> rset (F.TOUT_CFG.ARMED n) 0
    |> rset (F.TOUT_START_NS.EDGES n) 0 |> setTout n { tout s n with high := false } |> toutDrive n (toutMode s n == 4)
  if toutBad s n then toutEnd n F.TOUT_CFG.BADCFG s
  else match toutMode s n with
  | 1 =>
    if toutStart s n < t + 65536000 then s |> rset (F.TOUT_CFG.PAST n) 1 |> toutEnd n F.TOUT_CFG.DONE
    else s |> setTout n { tout s n with next := toutStart s n } |> rset (F.TOUT_CFG.ARMED n) 1
  | 2 => s |> setTout n { tout s n with next := gridFrom (toutStart s n) (toutPeriod s n) (t + 65536000) } |> rset (F.TOUT_CFG.ARMED n) 1
  | 3 => rset (F.TOUT_CFG.ARMED n) 1 s
  | _ => s

/-- Whether the commit changes an output's configuration. -/
def toutChanged (before s : State) (n : Nat) : Bool :=
  let d (f : Fld) : Bool := rget before f != rget s f
  d (F.TOUT_CFG.MODE n) || d (F.TOUT_CFG.POL n) || d (F.TOUT_CFG.TU n) || d (F.TOUT_CFG.WIDTH n) || d (F.TOUT_CFG.COUNT n)
    || d (F.TOUT_START_S.SECONDS n) || d (F.TOUT_START_NS.NS n) || d (F.TOUT_PERIOD.PERIOD_NS n) || d (F.TOUT_PERIOD.FRAC n)

/-- SKIPPED or REPEATED is set, and SRC[8 + n] is raised (R160). -/
def toutNote (n : Nat) (f : Nat → Fld) (s : State) : State := s |> rset (f n) 1 |> raise pTOUT (8 + n)

/-- After a step an armed output is placed again against the new t(c) (R157). -/
def toutReplace (n t : Nat) (s : State) : State :=
  if !on s (F.TOUT_CFG.ARMED n) then s else
  let x := tout s n
  match toutMode s n with
  | 1 => if !x.high && decide (toutStart s n < t) then
      s |> rset (F.TOUT_CFG.ARMED n) 0 |> toutNote n F.TOUT_CFG.SKIPPED |> toutEnd n F.TOUT_CFG.DONE else s
  | 2 =>
    let nx := gridFrom (toutStart s n) (toutPeriod s n) (t + 65536000)
    s |> setTout n { x with next := nx } |> whenB (decide (x.next < nx)) (toutNote n F.TOUT_CFG.SKIPPED)
      |> whenB (decide (nx < x.next)) (toutNote n F.TOUT_CFG.REPEATED)
  | _ => s

/-- A leading edge leaves output `n`: in modes 1 and 2 at its time, in mode 3 on a firing (R155). -/
def toutPulse (n : Nat) (s : State) : State :=
  let x := tout s n
  s |> toutDrive n true |> inc (F.TOUT_START_NS.EDGES n)
    |> setTout n { next := if toutMode s n = 2 then x.next + toutPeriod s n else x.next, high := true }

/-- TOUT_EDGE: the edge of an armed output of mode 1 or 2 falls due (R155). -/
def toutEdge (n : Nat) (s : State) : State :=
  if on s (F.TOUT_CFG.ARMED n) ∧ (toutMode s n = 1 ∨ toutMode s n = 2) then toutPulse n s else s

/-- TOUT_PULSE_END: the pulse's width is over; a single pulse, or the last of COUNT, is done (R155, R156). -/
def toutPulseEnd (n : Nat) (s : State) : State :=
  let x := tout s n
  if !x.high then s else
  let s := s |> toutDrive n (toutMode s n == 4) |> setTout n { x with high := false }
  let m := toutMode s n
  let cnt := rget s (F.TOUT_CFG.COUNT n)
  if on s (F.TOUT_CFG.ARMED n) ∧ (m = 1 ∨ (m = 2 ∧ cnt ≠ 0 ∧ cnt ≤ rget s (F.TOUT_START_NS.EDGES n))) then
    s |> rset (F.TOUT_CFG.ARMED n) 0 |> toutEnd n F.TOUT_CFG.DONE
  else s

/-- A firing of trigger unit `u` drives the outputs of mode 3 that name it (R155). -/
def toutFire (u : Nat) (s : State) : State :=
  forAll ((List.range 8).filter (fun n => toutMode s n == 3 && on s (F.TOUT_CFG.ARMED n) && rget s (F.TOUT_CFG.TU n) == u)) toutPulse s

/-! ### The launch queue (R158, R159) -/

/-- Word 0 of a launch entry, low and high half. -/
def lqWord (s : State) (e w : Nat) : Nat := (mget wideZero s.lq (128 * e + w)).toNat
def lqValid (s : State) (e : Nat) : Bool := bitSet (lqWord s e 0) 127

/-- The launch time of an entry in 2⁻¹⁶ ns. -/
def lqTime (s : State) (e : Nat) : Nat := slice 64 48 (lqWord s e 0) * secUnits + slice 0 30 (lqWord s e 0) * 65536

/-- An entry's VALID is cleared. -/
def lqClear (e : Nat) (s : State) : State :=
  { s with lq := mput wideZero (128 * e) (BitVec.ofNat 128 (clrBit (lqWord s e 0) 127)) s.lq }
    |> clrBitOf F.TSU_LQ_STATUS.VALID_MASK e

/-- An entry is not sent: cleared, counted in PAST, SRC[5] raised (R159). -/
def lqPast (e : Nat) (s : State) : State := s |> lqClear e |> inc F.TSU_LQ_STATUS.PAST |> raise pTSU 5

/-- VALID of an entry is set through the window: an entry less than 2 µs ahead is not sent (R159). -/
def lqSet (e cyc : Nat) (s : State) : State :=
  if lqTime s e < tsuUnits s cyc + 2000 * 65536 then lqPast e s else setBitOf F.TSU_LQ_STATUS.VALID_MASK e s

/-- The frame of an entry, LEN bytes from the destination address. -/
def lqFrame (s : State) (e : Nat) : List Nat :=
  (List.range (slice 34 11 (lqWord s e 0))).map (fun i => slice (8 * (i % 16)) 8 (lqWord s e (1 + i / 16)))

/-- Bytes of a number, most significant first. -/
def bytesBE : Nat → Nat → List Nat
  | 0, _ => []
  | n + 1, v => slice (8 * n) 8 v :: bytesBE n v

/-- The frame with bytes put at an offset. -/
def putBytes (ofs : Nat) (bs : List Nat) (fr : List Nat) : List Nat :=
  (List.range fr.length).map (fun i => if ofs ≤ i ∧ i < ofs + bs.length then nth 0 bs (i - ofs) else nth 0 fr i)

/-- The one's complement weight of the bytes at an offset, in a checksum whose field stands at `c`. -/
def csumOf (c ofs : Nat) (bs : List Nat) : Nat :=
  (List.range bs.length).foldl (fun a i => a + nth 0 bs i * (if (ofs + i + c) % 2 = 0 then 256 else 1)) 0

/-- The departure time goes into the frame at TS_OFS, and the UDP checksum at CSUM_OFS follows it (R158). -/
def lqStamped (s : State) (e depart : Nat) : List Nat :=
  let w := lqWord s e 0
  let fr := lqFrame s e
  if !bitSet w 45 then fr else
  let ofs := slice 46 11 w
  let c := slice 112 11 w
  let bs := bytesBE 6 (depart / secUnits) ++ bytesBE 4 (depart % secUnits / 65536)
  let fr' := putBytes ofs bs fr
  if c = 0 then fr' else
  let old := nth 0 fr c * 256 + nth 0 fr (c + 1)
  let sum := (65535 - old) + csumOf c ofs bs + (65535 * 11 - csumOf c ofs ((List.range 10).map (fun i => nth 0 fr (ofs + i))) % 65535)
  let v := 65535 - (if sum = 0 then 0 else (sum - 1) % 65535 + 1)
  putBytes c [v / 256, v % 256] fr'

/-- The valid entry that leaves next: the earliest, and the lowest at equal times (R158). -/
def lqNext (s : State) : Option Nat :=
  (List.range 16).foldl (fun a e => if lqValid s e then
    (match a with | none => some e | some b => if lqTime s e < lqTime s b then some e else some b) else a) none

/-- Whether an Ethernet port's link is up. -/
def portUp (s : State) (p : Nat) : Bool := rget s (F.ETH_PSTAT.LINK p) == 2

/-- SCHEDULED_LAUNCH: entry `e` falls due; `late` is how long after its time it leaves, in 2⁻¹⁶ ns, and `behind` says that a coarse
round frame was on the wire (R158, R159). -/
def scheduledLaunch (e late : Nat) (behind : Bool) (s : State) : State :=
  if !on s F.TSU_LQ_CTRL.EN ∨ lqNext s ≠ some e then s else
  let port := slice 32 2 (lqWord s e 0)
  if !portUp s port then lqPast e s
  else
    let d := lqTime s e + late
    s |> emit (.launch port (lqStamped s e d)) |> lqClear e
      |> rset F.TSU_LQ_LAST.NS (d % secUnits / 65536) |> rset F.TSU_LQ_LAST.SEC_LO (d / secUnits) |> rset F.TSU_LQ_LAST.ENTRY e
      |> raise pTSU 4 |> whenB behind (fun s => s |> inc F.TSU_LQ_STATUS.DELAYED |> raise pTSU 5)

/-- TSU_LQ_CTRL.FLUSH clears every entry unsent. -/
def lqFlush (s : State) : State := forAll ((List.range 16).filter (lqValid s)) lqClear s

/-! ### The step (R147, R149) -/

/-- The time of the strike of `n` becomes `u` 2⁻¹⁶ ns by a step: the outputs and the launches are placed again, and the step is
logged (R147, R149, R157, R159). -/
def applyStep (n : Nat) (u : Int) (s : State) : State :=
  let old : Int := s.tsu.t / 2 ^ 32
  let new := u.toNat
  let delta := (new : Int) - old
  let ns := delta / 65536
  let us := clampSigned 32 (delta / 65536000)
  let shift (i : Nat) (s : State) : State :=
    s |> rset (F.TSU_STEPLOG.STROKE_LO (i + 1)) (rget s (F.TSU_STEPLOG.STROKE_LO i))
      |> rset (F.TSU_STEPLOG.DELTA_US (i + 1)) (rget s (F.TSU_STEPLOG.DELTA_US i))
  { s with tsu := { s.tsu with t := new * 2 ^ 32, cyc := 0, strike := new * 2 ^ 32, valid := true, cand := [] } }
    |> rset F.TSU_STATUS.JUMP_PEND 0 |> rset F.TSU_STATUS.STEPS (rget s F.TSU_STATUS.STEPS + 1) |> inc F.TSU_COUNT.STEPS_APPLIED
    |> rset F.TSU_LAST_S.DELTA_S (ofInt 48 (ns / 1000000000)) |> rset F.TSU_LAST_NS.NS (ns % 1000000000).toNat
    |> rset F.TSU_LAST_NS.STROKE_LO n
    |> forAll [6, 5, 4, 3, 2, 1, 0] shift
    |> rset (F.TSU_STEPLOG.STROKE_LO 0) n |> rset (F.TSU_STEPLOG.DELTA_US 0) (ofInt 32 us)
    |> raise pTSU 2
    |> forAll (List.range 8) (fun k => toutReplace k new)
    |> (fun s => forAll ((List.range 16).filter (fun e => lqValid s e && decide (lqTime s e < new))) lqPast s)

/-- The TSU page's part of a commit on stroke `n`: a staged step, and a change of SOURCE (R145, R147). -/
def tsuCommit (n : Nat) (before : State) (s : State) : State :=
  let s := if on s F.TSU_STEP_CTRL.VALID then
      let u := if on s F.TSU_STEP_CTRL.ABS then stepUnits s else (s.tsu.t / 2 ^ 32 : Nat) + stepUnits s
      s |> applyStep n u |> bset F.TSU_STEP_CTRL.VALID 0
        |> (fun s => if tsuSource s = 2 then tsuSetState 4 0 s else if tsuSource s = 0 then tsuSetState 1 0 s else s)
    else s
  if tsuSource before = tsuSource s then s
  else if tsuSource s = 2 then s |> tsuSetRate 0 0 |> tsuSetState 4 0
  else if tsuSource s = 0 then (if s.tsu.valid then tsuSetState 1 0 s else tsuSetState 0 0 s)
  else s

end Sys2Proof.Machine
end

