-- ==== Sys2Proof/Machine/Ptp.lean ====
section
/-!
DEFINITION. The PTP clock: dropped messages, master selection, offset, path delay, servo, jumps and the hub's own messages
(R139 to R148, R153, R154).
-/

namespace Sys2Proof.Machine

/-- Whether the ordinary clock runs. -/
def ptpOn (s : State) : Bool := on s F.PTP_CTRL.EN

def setPtp (f : Ptp → Ptp) (s : State) : State := { s with ptp := f s.ptp }

/-! ### Times (R140) -/

/-- The stamp of a received frame in 2⁻¹⁶ ns: the captured time less TSU_LAT.RX, which counts 1/64 ns. -/
def rxStamp (s : State) (port : Nat) (a : PtpAt) : Int :=
  (tsuUnits s a.cyc : Int) + a.sub - 1024 * rget s (F.TSU_LAT.RX port)

/-- The stamp of a sent frame: its launch time plus TSU_LAT.TX. -/
def txStamp (s : State) (port : Nat) (a : PtpAt) : Int :=
  (tsuUnits s a.cyc : Int) + a.sub + 1024 * rget s (F.TSU_LAT.TX port)

/-- The cycle from which what a frame's computation found holds: the one after the computation, which ends within 64 cycles, and
at the latest cycle 0 of the next stroke (R144). -/
def afterWork (s : State) (a : PtpAt) : Nat := min (a.cyc + min a.work 63 + 1) (strokeLen s)

/-- A stamp as PTP_T shows it. -/
def showT (k : Nat) (t : Int) (s : State) : State :=
  s |> rset (F.PTP_T.NS k) (t % secUnits / 65536).toNat |> rset (F.PTP_T.SEC_LO k) (ofInt 16 (t / secUnits))

/-- A time in 2⁻¹⁶ ns as whole ns, saturated to 32 bits. -/
def nsSat (t : Int) : Nat := ofInt 32 (clampSigned 32 (divHalfEven t 65536))

/-! ### Dropped messages (R141) -/

/-- A message dropped for a reason: its counter, the violation log and PTP SRC[3]. -/
def ptpDrop (reason typ : Nat) (h : PtpHdr) (s : State) : State :=
  s |> inc (F.PTP_DROP.DROP (reason / 4) (reason % 4)) |> vlog pPTP 3 32 F.PTP_VLOG.ENTRY 1 reason h.port (typ * 64 + h.domain % 64)

/-- TRANSPORT, with 3 as 0. -/
def ptpTransport (s : State) : Nat :=
  let t := rget s F.PTP_CTRL.TRANSPORT
  if t = 3 then 0 else t

/-- The selected master, if there is one. -/
def ptpMaster (s : State) : Option Foreign :=
  match s.ptp.sel with
  | none => none
  | some k => mget (fun _ => none) s.ptp.masters k

/-- Whether a message comes from the selected master. -/
def fromMaster (s : State) (h : PtpHdr) : Bool :=
  match ptpMaster s with
  | none => false
  | some m => m.id == h.srcId && m.num == h.srcPort && m.port == h.port

/-- The first reason of the order of R141 but for 6, 7, 10 and 11, which the message's own rule judges. `lim` says that the message
is beyond MAX_PPS, `bad` that its type is none the hub uses, `far` that it is an Announce with stepsRemoved of 255 or more, and
`own` that only the selected master may send it. -/
def ptpReason (s : State) (h : PtpHdr) (timed lim bad far own : Bool) : Option Nat :=
  if lim then some 15
  else if h.transport ≠ ptpTransport s then some 14
  else if h.version ≠ 2 then some 1
  else if h.domain ≠ rget s F.PTP_CFG.DOMAIN then some 0
  else if bad then some 2
  else if h.short then some 3
  else if h.unicast then some 13
  else if h.alt then some 12
  else if h.srcId = rget s F.PTP_OWN_ID.ID then some 4
  else if far then some 5
  else if !timed then some 9
  else if own && !fromMaster s h then some 8
  else none

/-- A PTP message received for the hub: it counts towards MAX_PPS, a lost time-stamp event is counted (R140), and the message goes on
to its own rule or is dropped. -/
def ptpReceive (typ : Nat) (h : PtpHdr) (timed bad far own : Bool) (use : State → State) (s : State) : State :=
  if !ptpOn s then s else
  let lim := decide (rget s F.PTP_RATE_LIM.MAX_PPS ≤ s.ptp.pps)
  let fresh := lim && !s.ptp.limiting
  let s := s |> setPtp (fun p => { p with pps := p.pps + 1, limiting := p.limiting || lim })
    |> whenB lim (inc F.PTP_RATE_LIM.LIMITED) |> whenB fresh (raise pPTP 4)
    |> whenB (!timed) (fun s => s |> inc F.TSU_COUNT.EVT_LOST |> raise pTSU 3)
  match ptpReason s h timed lim bad far own with
  | some r => ptpDrop r typ h s
  | none => use (inc (F.ETH_RXOWN.PTP h.port) s)

/-! ### Master selection (R142) -/

def fmAt (s : State) (k : Nat) : Option Foreign := mget (fun _ => none) s.ptp.masters k

/-- The data set comparison: data set fields in their order when the grandmasters differ, else the path to it (log entry 10). -/
def gmBetter (a b : Foreign) : Bool :=
  let key (x : Foreign) : List Nat :=
    if a.gm.id = b.gm.id then [x.steps, x.id, x.num, x.port]
    else [x.gm.prio1, x.gm.cls, x.gm.accuracy, x.gm.variance, x.gm.prio2, x.gm.id]
  lexLt (key a) (key b)
where
  lexLt : List Nat → List Nat → Bool
    | a :: as, b :: bs => decide (a < b) || (a == b && lexLt as bs)
    | _, _ => false

/-- The registers of entry `k` of the foreign-master table. -/
def showFm (k : Nat) (s : State) : State :=
  let s := match fmAt s k with
    | none => s |> clearAll [F.PTP_FM_ID.ID k, F.PTP_FM_DS.GM k, F.PTP_FM_DS.STEPS k, F.PTP_FM_DS.PORT k, F.PTP_FM_DS.QUALIFIED k,
        F.PTP_FM_DS.VALID k]
    | some m => s |> rset (F.PTP_FM_ID.ID k) m.gm.id
        |> rset (F.PTP_FM_DS.GM k) (m.gm.prio2 % 256 * 2 ^ 40 + m.gm.variance % 65536 * 2 ^ 24 + m.gm.accuracy % 256 * 2 ^ 16
            + m.gm.cls % 256 * 256 + m.gm.prio1 % 256)
        |> rset (F.PTP_FM_DS.STEPS k) m.steps |> rset (F.PTP_FM_DS.PORT k) m.port
        |> rset (F.PTP_FM_DS.QUALIFIED k) m.qualified.toNat |> rset (F.PTP_FM_DS.VALID k) 1
  rset F.PTP_STATE.FM_COUNT ((List.range 8).filter (fun k => (fmAt s k).isSome)).length s

def setFm (k : Nat) (x : Option Foreign) (s : State) : State :=
  s |> setPtp (fun p => { p with masters := mput (fun _ => none) k x p.masters }) |> showFm k

/-- PTP_STATE.STATE takes a value; a change raises PTP SRC[2]. -/
def ptpSetState (v : Nat) (s : State) : State :=
  if rget s F.PTP_STATE.STATE = v then s else s |> rset F.PTP_STATE.STATE v |> raise pPTP 2

/-- The registers that show the selected master. -/
def showMaster (s : State) : State :=
  match s.ptp.sel, ptpMaster s with
  | some k, some m => s |> rset F.PTP_STATE.FM_SEL k |> rset F.PTP_STATE.SLAVE_PORT m.port |> rset F.PTP_STATE.LOG_ANN (ofInt 8 m.logInt)
      |> rset F.PTP_PARENT_ID.ID m.id |> rset F.PTP_PARENT.PORTNUM m.num |> rset F.PTP_PARENT.STEPS_REMOVED m.steps
      |> rset F.PTP_PARENT.TWO_STEP m.twoStep.toNat |> rset F.PTP_GM.PRIO1 m.gm.prio1 |> rset F.PTP_GM.CLASS m.gm.cls
      |> rset F.PTP_GM.ACCURACY m.gm.accuracy |> rset F.PTP_GM.VARIANCE m.gm.variance |> rset F.PTP_GM.PRIO2 m.gm.prio2
      |> rset F.PTP_GM.TIME_SOURCE m.gm.timeSource |> rset F.PTP_GM_ID.ID m.gm.id
  | _, _ => s |> clearAll [F.PTP_STATE.FM_SEL, F.PTP_STATE.SLAVE_PORT, F.PTP_STATE.LOG_ANN, F.PTP_PARENT_ID.ID, F.PTP_PARENT.PORTNUM,
      F.PTP_PARENT.STEPS_REMOVED, F.PTP_PARENT.TWO_STEP, F.PTP_GM.PRIO1, F.PTP_GM.CLASS, F.PTP_GM.ACCURACY, F.PTP_GM.VARIANCE,
      F.PTP_GM.PRIO2, F.PTP_GM.TIME_SOURCE, F.PTP_GM_ID.ID]

/-- The selected master's UTC data go to TSU_UTC: when it is selected and with each of its Announces (R142, R161; log entry 10). -/
def copyUtc (s : State) : State :=
  match ptpMaster s with
  | none => s
  | some m => s |> rset F.TSU_UTC.OFFSET m.utc |> rset F.TSU_UTC.LEAP61 m.l61.toNat |> rset F.TSU_UTC.LEAP59 m.l59.toNat
      |> rset F.TSU_UTC.VALID m.utcValid.toNat

/-- The better of two entries of the table. -/
def betterOf (s : State) (a : Option Nat) (k : Nat) : Option Nat :=
  match fmAt s k with
  | none => a
  | some m =>
    if !m.qualified then a else
    match a with
    | none => some k
    | some j => match fmAt s j with
      | none => some k
      | some b => if gmBetter m b then some k else some j

/-- The hub picks the best qualified entry (R142). A change of master leaves the servo's integrator as it is. -/
def ptpChoose (cyc : Nat) (s : State) : State :=
  let best := (List.range 8).foldl (betterOf s) none
  if best = s.ptp.sel then showMaster s else
  let s := s |> setPtp (fun p => { p with sel := best, sync := none, dreq := none, pdreq := none, pdresp := none })
    |> showMaster |> copyUtc |> rset F.PTP_STATE.LOG_SYNC 0 |> inc F.PTP_SWITCH.SWITCHES |> rset F.PTP_SWITCH.STROKE_LO (strokeNow s) |> raise pPTP 0
  match best with
  | some _ => ptpSetState 2 s
  | none => s |> ptpSetState 1 |> whenB (tsuSource s == 0) (tsuHoldover cyc)

/-- The worst recorded entry. -/
def worstFm (s : State) : Option Nat :=
  (List.range 8).foldl (fun a k =>
    match fmAt s k, a with
    | none, _ => a
    | some _, none => some k
    | some m, some j => match fmAt s j with
      | none => some k
      | some b => if gmBetter b m then some k else some j) none

/-- Whether the strokes between two Announce messages lie within a number of announce intervals of 2^log seconds. -/
def withinIntervals (n gap : Nat) (log : Int) (s : State) : Bool :=
  decide (gap * mLive s * 2 ^ (-log).toNat ≤ n * 1024000 * 2 ^ log.toNat)

/-- Where an Announce's sender stands in the table, or the free entry. -/
def fmFind (s : State) (h : PtpHdr) : Option Nat :=
  (List.range 8).find? (fun k => match fmAt s k with
    | none => false
    | some m => m.id == h.srcId && m.num == h.srcPort && m.port == h.port)

/-- The contents of an Announce (R142): the grandmaster's data set, stepsRemoved, twoStepFlag, and the UTC fields. -/
def announce (h : PtpHdr) (gm : GmData) (steps utc : Nat) (l61 l59 uv two : Bool) (cyc : Nat) (s : State) : State :=
  let s := inc F.PTP_RXCNT.ANN s
  if !bitSet (rget s F.PTP_CTRL.PORT_EN) h.port then s else
  let now := strokeNow s
  let new : Foreign := { id := h.srcId, num := h.srcPort, port := h.port, gm := gm, steps := steps, twoStep := two, logInt := h.logInt,
                         last := now, qualified := false, utc := utc, l61 := l61, l59 := l59, utcValid := uv }
  let s := match fmFind s h with
    | some k =>
      (match fmAt s k with
       | none => s
       | some m =>
         let q := m.qualified || withinIntervals 4 (now - m.last) h.logInt s
         s |> setFm k (some { new with qualified := q }) |> whenB (q && !m.qualified) (raise pPTP 1))
    | none =>
      (match (List.range 8).find? (fun k => (fmAt s k).isNone), worstFm s with
       | some k, _ => setFm k (some new) s
       | none, some w => (match fmAt s w with
         | none => s
         | some m => if gmBetter new m then s |> setFm w (some new) |> raise pPTP 1 else s)
       | none, none => s)
  let s := ptpChoose cyc s
  if fromMaster s h then copyUtc s else s

/-- A foreign master is removed after ANN_TIMEOUT intervals without an Announce (R142). -/
def fmTimeout (k cyc : Nat) (s : State) : State :=
  if !ptpOn s ∨ (fmAt s k).isNone then s
  else s |> setFm k none |> raise pPTP 1 |> whenB (s.ptp.sel == some k) (setPtp (fun p => { p with sel := none })) |> ptpChooseAfter cyc
where
  /-- The choice after a removal: no qualified entry left leaves no selected master. -/
  ptpChooseAfter (cyc : Nat) (t : State) : State :=
    if s.ptp.sel = some k ∧ ((List.range 8).foldl (betterOf t) none).isNone then
      t |> showMaster |> inc F.PTP_SWITCH.SWITCHES |> rset F.PTP_SWITCH.STROKE_LO (strokeNow t) |> raise pPTP 0 |> ptpSetState 1
        |> whenB (tsuSource t == 0) (tsuHoldover cyc)
    else ptpChoose cyc t

/-! ### The servo, jumps (R144 to R148) -/

/-- The servo's update from an offset θ in 2⁻¹⁶ ns and the Sync's logMessageInterval; its work is done at cycle `cyc`. -/
def servo (theta log : Int) (cyc : Nat) (s : State) : State :=
  let fm : Int := rget s F.PTP_FILT.FREQ_MAX * 1000
  let iMax : Int := divHalfEven (fm * 2 ^ 32 * (2 ^ log.toNat : Nat)) (2 ^ (-log).toNat)
  let i := clampInt (-iMax) iMax (s.tsu.integ + rget s F.PTP_SERVO.KI * theta)
  let x := -(rget s F.PTP_SERVO.KP * theta + i)
  let r := clampInt (-fm * 65536) (fm * 65536) (divHalfEven (x * (2 ^ (-log).toNat : Nat)) (65536 * 2 ^ log.toNat))
  { s with tsu := { s.tsu with integ := i, rates := (r :: s.tsu.rates).take 32768 } } |> tsuSetRate cyc r |> inc F.PTP_TXCNT.SAMPLES

/-- The samples that await confirmation agree: there are CONFIRM of them and they lie within THR_NS of one another (R146). -/
def jumpAgrees (xs : List Int) (need : Nat) (thr : Int) : Bool :=
  decide (xs.length = need) && xs.all (fun a => xs.all (fun b => decide (a - b ≤ thr)))

/-- A jump is declared: the record, JUMP_PEND and TSU SRC[1] (R146). -/
def declareJump (xs : List Int) (cyc : Nat) (s : State) : State :=
  let ns := divHalfEven (xs.foldl (· + ·) 0) (65536 * xs.length)
  s |> whenB (tsuState s != 0) (tsuHoldover cyc) |> rset F.TSU_STATUS.JUMP_PEND 1
    |> rset F.TSU_JUMP_S.OFS_S (ofInt 48 (ns / 1000000000)) |> rset F.TSU_JUMP_NS.OFS_NS (ns % 1000000000).toNat
    |> rset F.TSU_JUMP_NS.STROKE_LO (strokeNow s) |> inc F.TSU_COUNT.JUMPS |> raise pTSU 1

/-- A sample that is beyond the threshold, or that comes before time is set, is held for confirmation (R146, R148). -/
def heldSample (theta : Int) (cyc : Nat) (s : State) : State :=
  let need := rget s F.TSU_JUMP.CONFIRM
  let cand := (theta :: s.tsu.cand).take need
  let s := { s with tsu := { s.tsu with cand := cand } }
  if !jumpAgrees cand need (65536 * rget s F.TSU_JUMP.THR_NS) then s
  else if tsuState s = 0 ∧ on s F.TSU_CTRL.INIT_AUTO then
    if on s F.TSU_STATUS.JUMP_PEND then s
    else s |> declareJump cand cyc |> stageJump |> hubArm pTSU cyc
  else declareJump cand cyc s

/-- STATE after an accepted sample: HOLDOVER ends in ACQUIRING, and LOCK_N samples in a row within LOCK_NS give LOCKED (R145). -/
def lockStep (theta : Int) (cyc : Nat) (s : State) : State :=
  let s := if tsuState s = 3 then tsuSetState 1 cyc s else s
  let run := if theta.natAbs ≤ 65536 * rget s F.PTP_SERVO.LOCK_NS then s.tsu.lockRun + 1 else 0
  { s with tsu := { s.tsu with lockRun := run } }
    |> whenB (tsuState s == 1 && decide (rget s F.PTP_SERVO.LOCK_N ≤ run)) (tsuSetState 2 cyc)

/-- An offset sample of the selected master (R143 to R146): t1, t2 and the sum of the corrections in 2⁻¹⁶ ns, and the Sync interval. -/
def ptpSample (typ : Nat) (h : PtpHdr) (t1 t2 cs log : Int) (cyc : Nat) (s : State) : State :=
  let theta := t2 - t1 - cs - rgetI s F.PTP_MPD.MPD - rgetI s (F.PTP_ASYM.ASYM (rget s F.PTP_STATE.SLAVE_PORT))
  let s := s |> setPtp (fun p => { p with t1 := t1, t2 := t2, cs := cs }) |> rset F.PTP_OFFSET.OFS (ofInt 48 (clampSigned 48 theta))
  if tsuSource s = 1 then s |> rset F.TSU_INK.MON_OFS (nsSat theta)
  else if tsuSource s = 2 then s
  else
    let far := decide (65536 * rget s F.TSU_JUMP.THR_NS < theta.natAbs)
    let s := whenB far (ptpDrop 11 typ h) s
    if tsuState s = 0 || far then heldSample theta cyc s
    else
      let s := { s with tsu := { s.tsu with cand := [] } }
      if on s F.TSU_STATUS.JUMP_PEND then s
      else s |> lockStep theta cyc |> servo theta log cyc |> ptpSetState 3

/-- A Sync from the selected master: one-step, it gives the sample; two-step, it waits for its Follow_Up. -/
def ptpSync (h : PtpHdr) (a : PtpAt) (twoStep : Bool) (t1 : Int) (s : State) : State :=
  let t2 := rxStamp s h.port a
  let s := s |> rset F.PTP_STATE.LOG_SYNC (ofInt 8 h.logInt) |> inc F.PTP_RXCNT.SYNC
  if twoStep then setPtp (fun p => { p with sync := some (h.seq, t2, h.corr, h.logInt) }) s
  else s |> setPtp (fun p => { p with sync := none }) |> ptpSample 0 h t1 t2 h.corr h.logInt (afterWork s a)

/-- A Follow_Up completes the Sync of its sequenceId. -/
def ptpFollowUp (h : PtpHdr) (a : PtpAt) (t1 : Int) (s : State) : State :=
  let s := inc F.PTP_RXCNT.FUP s
  match s.ptp.sync with
  | some (seq, t2, c, log) =>
    if seq = h.seq then s |> setPtp (fun p => { p with sync := none }) |> ptpSample 8 h t1 t2 (c + h.corr) log (afterWork s a)
    else ptpDrop 6 8 h s
  | none => ptpDrop 6 8 h s

/-! ### Path delay (R143, R154) -/

/-- A raw path delay in 2⁻¹⁶ ns goes through the gate and the filter. -/
def pathDelay (typ : Nat) (h : PtpHdr) (raw : Int) (s : State) : State :=
  let d := rgetI s F.PTP_MPD.MPD
  if !s.ptp.hasD then s |> rset F.PTP_MPD.MPD (ofInt 48 (clampSigned 48 raw)) |> setPtp (fun p => { p with hasD := true })
  else if 65536 * rget s F.PTP_FILT.DELAY_GATE < (raw - d).natAbs then ptpDrop 10 typ h s
  else rset F.PTP_MPD.MPD (ofInt 48 (clampSigned 48 (d + divHalfEven (raw - d) (2 ^ rget s F.PTP_FILT.DELAY_SHIFT)))) s

/-- The last complete exchange in its registers. -/
def showExchange (t1 t2 t3 t4 cs cr : Int) (s : State) : State :=
  s |> showT 0 t1 |> showT 1 t2 |> showT 2 t3 |> showT 3 t4 |> rset F.PTP_CORR.C_S (nsSat cs) |> rset F.PTP_CORR.C_R (nsSat cr)

/-- Whether a response names the hub and the request in flight. -/
def answersUs (s : State) (h : PtpHdr) (r : PtpReq) (seq : Nat) : Bool :=
  r.id == rget s F.PTP_OWN_ID.ID && r.port == h.port + 1 && h.seq == seq

/-- A Delay_Resp completes an end-to-end exchange. -/
def delayResp (h : PtpHdr) (r : PtpReq) (t4 : Int) (s : State) : State :=
  let s := inc F.PTP_RXCNT.DRESP s
  match s.ptp.dreq with
  | none => ptpDrop 7 9 h s
  | some (seq, t3) =>
    if !answersUs s h r seq then ptpDrop 7 9 h s else
    let p := s.ptp
    s |> setPtp (fun p => { p with dreq := none }) |> rset F.PTP_STATE.LOG_DREQ (ofInt 8 h.logInt)
      |> showExchange p.t1 p.t2 t3 t4 p.cs h.corr |> pathDelay 9 h (divHalfEven ((p.t2 - t3) + (t4 - p.t1) - p.cs - h.corr) 2)

/-- A link delay of a Pdelay exchange: its four times and its correction. -/
def peerDelay (typ : Nat) (h : PtpHdr) (t1 t2 t3 t4 c : Int) (s : State) : State :=
  let raw := divHalfEven ((t4 - t1) - (t3 - t2) - c) 2
  s |> rset F.PTP_PEER.LINK_DELAY (ofInt 48 (clampSigned 48 raw)) |> showExchange t1 t2 t3 t4 0 c |> pathDelay typ h raw

/-- A Pdelay_Resp: one-step, it gives the link delay; two-step, it waits for its Follow_Up. -/
def pdelayResp (h : PtpHdr) (a : PtpAt) (r : PtpReq) (twoStep : Bool) (t2 : Int) (s : State) : State :=
  match s.ptp.pdreq with
  | none => ptpDrop 7 3 h s
  | some (seq, t1) =>
    if !answersUs s h r seq then ptpDrop 7 3 h s else
    let t4 := rxStamp s h.port a
    let s := setPtp (fun p => { p with pdreq := none }) s
    if twoStep then setPtp (fun p => { p with pdresp := some (seq, t1, t2, t4, h.corr) }) s
    else peerDelay 3 h t1 t2 t2 t4 h.corr s

/-- A Pdelay_Resp_Follow_Up completes a two-step peer exchange. -/
def pdelayFollowUp (h : PtpHdr) (r : PtpReq) (t3 : Int) (s : State) : State :=
  match s.ptp.pdresp with
  | none => ptpDrop 7 10 h s
  | some (seq, t1, t2, t4, c) =>
    if !answersUs s h r seq then ptpDrop 7 10 h s
    else s |> setPtp (fun p => { p with pdresp := none }) |> peerDelay 10 h t1 t2 t3 t4 (c + h.corr)

/-- A Pdelay_Req on a port of PORT_EN is answered with a one-step Pdelay_Resp whose correctionField carries the turnaround (R154). -/
def pdelayReq (h : PtpHdr) (rx tx : PtpAt) (s : State) : State :=
  if !on s F.PTP_CTRL.DELAY_MECH ∨ !bitSet (rget s F.PTP_CTRL.PORT_EN) h.port then s
  else s |> inc F.PTP_TXCNT.PDRESP |> emit (.ptp h.port 3 h.seq (h.corr + txStamp s h.port tx - rxStamp s h.port rx))

/-- The hub's own Delay_Req, at the interval of the master's Delay_Resp. -/
def delayReqSend (a : PtpAt) (s : State) : State :=
  if !ptpOn s ∨ on s F.PTP_CTRL.DELAY_MECH then s else
  match ptpMaster s with
  | none => s
  | some m => s |> setPtp (fun p => { p with dreq := some (p.seq, txStamp s m.port a), seq := (p.seq + 1) % 65536 })
      |> inc F.PTP_TXCNT.DREQ |> emit (.ptp m.port 1 s.ptp.seq 0)

/-- The hub's own Pdelay_Req on the slave port, once per second (R154). -/
def pdelayReqSend (a : PtpAt) (s : State) : State :=
  if !ptpOn s ∨ !on s F.PTP_CTRL.DELAY_MECH then s else
  match ptpMaster s with
  | none => s
  | some m => s |> setPtp (fun p => { p with pdreq := some (p.seq, txStamp s m.port a), pdresp := none, seq := (p.seq + 1) % 65536 })
      |> inc F.PTP_TXCNT.PDREQ |> emit (.ptp m.port 2 s.ptp.seq 0)

/-- No Sync for 4 Sync intervals (R145). -/
def syncTimeout (cyc : Nat) (s : State) : State :=
  if ptpOn s ∧ tsuSource s = 0 ∧ s.ptp.sel.isSome then tsuHoldover cyc s else s

/-- The PTP page's part of a commit: the clock is started or stopped (R145, R162). -/
def ptpCommit (before : State) (s : State) : State :=
  if ptpOn before = ptpOn s then s
  else if ptpOn s then ptpSetState 1 s
  else s |> forAll (List.range 8) (fun k s => if (fmAt s k).isSome then setFm k none s else s)
    |> setPtp (fun p => { p with sel := none, sync := none, dreq := none, pdreq := none, pdresp := none, hasD := false })
    |> showMaster |> ptpSetState 0 |> whenB (tsuSource s == 0) (tsuHoldover 0)

/-- REJECT clears JUMP_PEND and discards the record (R147). -/
def jumpReject (s : State) : State :=
  s |> rset F.TSU_STATUS.JUMP_PEND 0 |> clearAll [F.TSU_JUMP_S.OFS_S, F.TSU_JUMP_NS.OFS_NS, F.TSU_JUMP_NS.STROKE_LO]

/-- The transparent clock's part of a bridged PTP message (R153): an event message's residence in 2⁻¹⁶ ns goes into its
correctionField; Pdelay, general and untimed messages go unchanged. Answers the correctionField that leaves. -/
def tcForward (event timed : Bool) (corr residence : Int) (s : State) : State × Int :=
  if !on s F.PTP_CTRL.TC_EN then (s, corr)
  else if event && timed then
    let ns := nsSat residence
    (s |> inc F.PTP_TC_CNT.CORRECTED |> rset F.PTP_TC_RES.LAST ns |> rset F.PTP_TC_RES.MAX (max ns (rget s F.PTP_TC_RES.MAX)), corr + residence)
  else (s |> inc F.PTP_TC_CNT.UNCORRECTED |> raise pPTP 5, corr)

end Sys2Proof.Machine
end

