-- ==== Sys2Proof/Machine/Ilk.lean ====
section
/-!
DEFINITION. The ruling domain: parents, joins, phases, placement, holdover and time over Inkline (R165, R170 to R183, R186).
-/

namespace Sys2Proof.Machine

/-- A stroke period in 2⁻¹⁶ ns. -/
def strokeUnits (s : State) : Int := 64000000 * mLive s

/-- STATE takes a value; a change raises ILK SRC[0] (R173, R187). -/
def ilkSetState (v : Nat) (s : State) : State :=
  if ilkState s = v then s else s |> rset F.ILK_STATE.STATE v |> raise pILK 0

/-! ### Topology and BCAST_LEAD on the root (R42, R172, R188) -/

def topoAt (s : State) (h : Nat) : Nat := (mget wideZero s.ilk.topo h).toNat

/-- The entry of a joined hub. -/
def topoEntry (state depth up parent path : Nat) : Nat :=
  1 + state % 16 * 2 + depth % 8 * 32 + up % 4 * 256 + parent % 1024 * 1024 + path % 2 ^ 32 * 2 ^ 32

def topoPresent (s : State) : List Nat := (List.range 1024).filter (fun h => bitSet (topoAt s h) 0)

/-- BCAST_LEAD from the largest path with 48 DCLK cycles a hop, and 64 cycles, in whole strokes (R42), and the other root figures. -/
def rootFigures (s : State) : State :=
  if !isRoot s then s |> clearAll [F.BCAST_LEAD.LEAD, F.ILK_ROOTSTAT.HUBS, F.ILK_ROOTSTAT.MAXDEPTH, F.ILK_ROOTSTAT.MAX_RTT_NS] else
  let hs := (topoPresent s).map (topoAt s)
  let delay := hs.foldl (fun a w => max a (slice 32 32 w + 93750 * slice 5 3 w)) 0
  s |> rset F.BCAST_LEAD.LEAD (ceilDiv (2 * (delay + 125000)) (1953125 * mLive s))
    |> rset F.ILK_ROOTSTAT.HUBS hs.length |> rset F.ILK_ROOTSTAT.MAXDEPTH (hs.foldl (fun a w => max a (slice 5 3 w)) 0)
    |> rset F.ILK_ROOTSTAT.MAX_RTT_NS (hs.foldl (fun a w => max a (ceilDiv (2 * slice 32 32 w) 1000)) 0)

/-- An entry of the topology changes (ILK SRC[7]). -/
def setTopo (h w : Nat) (s : State) : State :=
  s |> setIlk (fun i => { i with topo := mput wideZero h (BitVec.ofNat 128 w) i.topo }) |> rootFigures |> raise pILK 7

/-- The hub becomes the ruling root, with its own entry (R170, R181). -/
def becomeRoot (s : State) : State :=
  s |> forAll (List.range 4) (fun k => rset (F.ILK_LSTAT.UPSTREAM k) 0) |> setIlk (fun i => { i with topo := [] })
    |> clearAll [F.ILK_STATE.UP_LANE, F.ILK_STATE.DEPTH, F.ILK_STATE.HOLD, F.ILK_STATE.ANC_HOLD, F.ILK_PLACE.CARRY, F.ILK_PATH.PATH_PS,
        F.ILK_PATH.HOPS]
    |> forAll (List.range 7) (fun i => rset (F.ILK_ANC.ANC (i / 6) (i % 6)) 0x3FF)
    |> ilkSetState 7 |> (fun s => setTopo (hubId s) (topoEntry 7 0 0 0x3FF 0) s)

/-! ### Parents (R171, R178, R179) -/

/-- Whether the hub was ever placed by a join, or has struck. -/
def everStruck (s : State) : Bool := s.struck

/-- A HELLO from another DOMAIN, or with a loop (R171, R186 0x07). -/
def helloAlien (s : State) (h : Hello) : Bool :=
  rget s F.ILK_ID.DOMAIN != 0 && h.domain != rget s F.ILK_ID.DOMAIN
def helloLoop (s : State) (h : Hello) : Bool := (ancestorsOf h).contains (hubId s) || h.hubId == hubId s

/-- A neighbour that may be chosen as parent (R16, R171); `held` says that the hub is in HOLDOVER, which ignores a parent with HOLD. -/
def acceptable (s : State) (held : Bool) (k : Nat) : Bool :=
  match (ilkLane s k).hello with
  | none => false
  | some h => laneUp s k && bitSet (rget s F.ILK_CFG.LANE_EN) k && on s (F.ILK_LCFG.EN k) && h.accept && decide (h.depth ≤ 6)
      && !helloAlien s h && !helloLoop s h
      && (match s.ilk.lastEpoch with | none => true | some e => decide (e ≤ h.epoch))
      && h.mMinus1 == rget s F.SYS_STROKE_CFG.M_MINUS1 && decide (h.ppm.natAbs ≤ 20000) && !(held && h.hold)

/-- PREF_LANE first, then the least depth, then the lowest lane. -/
def bestParent (s : State) (held : Bool) : Option Nat :=
  let ks := (List.range 4).filter (acceptable s held)
  let depth (k : Nat) : Nat := match (ilkLane s k).hello with | none => 8 | some h => h.depth
  if ks.contains (rget s F.ILK_CFG.PREF_LANE) then some (rget s F.ILK_CFG.PREF_LANE)
  else ks.foldl (fun a k => match a with | none => some k | some b => if depth k < depth b then some k else some b) none

/-- A parent is chosen: LOCK on its lane, with the measurement begun anew (R173). -/
def takeParent (k : Nat) (s : State) : State :=
  s |> forAll (List.range 4) (fun j => rset (F.ILK_LSTAT.UPSTREAM j) (if j = k then 1 else 0)) |> rset F.ILK_STATE.UP_LANE k
    |> setIlkLane k (fun l => { l with phiN := 0, phiSum := 0, phiHas := false, delayHas := false, miss := 0, lastSn := none })
    |> whenB s.ilk.lastEpoch.isSome (inc F.ILK_COUNT.REPARENTS) |> ilkSetState 2

/-- The hub looks for a parent, if it has none. -/
def seekParent (s : State) : State :=
  if ilkState s = 1 ∨ ilkState s = 5 then
    match bestParent s (ilkState s == 5) with
    | none => s
    | some k => takeParent k s
  else s

/-- Shadow of ACCEPTABLE for every lane. -/
def showAcceptable (s : State) : State :=
  forAll (List.range 4) (fun k t => rset (F.ILK_LSTAT.ACCEPTABLE k) (acceptable s (ilkState s == 5) k).toNat t) s

/-- The parent is lost (R178): a hub that strikes goes to HOLDOVER, another back to SEARCH. -/
def loseParent (s : State) : State :=
  let st := ilkState s
  if st = 2 ∨ st = 3 ∨ st = 4 ∨ st = 6 ∨ st = 8 then
    let s := s |> forAll (List.range 4) (fun j => rset (F.ILK_LSTAT.UPSTREAM j) 0) |> setIlk (fun i => { i with slew := 0 })
    if everStruck s then
      s |> whenB (st == 4 || st == 6) (fun s => s |> raise pILK 1 |> inc F.ILK_HOLD.HOLDS |> rset F.ILK_HOLD.SINCE_STROKE_LO (strokeNow s))
        |> rset F.ILK_STATE.HOLD 1 |> ilkSetState 5 |> whenB (tsuSource s == 1) (tsuHoldover 0)
    else s |> ilkSetState 1
  else s

/-- Whether a lane is the upstream lane. -/
def isUp (s : State) (k : Nat) : Bool := on s (F.ILK_LSTAT.UPSTREAM k)

/-- A lane stops carrying frames: what awaited an ACK and what was measured on it is gone. -/
def laneReset (k : Nat) (link : Nat) (s : State) : State :=
  let up := isUp s k
  s |> rset (F.ILK_LSTAT.LINK k) link |> setIlkLane k (fun _ => {})
    |> clearAll [F.ILK_NBR.HUB_ID k, F.ILK_NBR.DOMAIN k, F.ILK_NBR.DEPTH k, F.ILK_NBR.STATE k, F.ILK_NBR.EPOCH k]
    |> whenB up loseParent |> showAcceptable

/-- LANE_DOWN (R178). -/
def laneDown (k : Nat) (s : State) : State := if rget s (F.ILK_LSTAT.LINK k) = 0 then s else s |> laneReset k 0 |> seekParent

/-- LANE_UP (R171). -/
def laneComesUp (k : Nat) (s : State) : State :=
  if laneUp s k ∨ !on s (F.ILK_LCFG.EN k) ∨ !bitSet (rget s F.ILK_CFG.LANE_EN) k ∨ ilkState s = 0 then s
  else s |> rset (F.ILK_LSTAT.LINK k) 2 |> setIlkLane k (fun _ => {})

/-- A lane retrains (R169, R186, R189): SRC[4], and the parent behind it is lost (R178). -/
def laneRetrain (k : Nat) (s : State) : State := s |> laneReset k 1 |> inc F.ILK_COUNT.RETRAINS |> raise pILK 4 |> seekParent

/-- A frame is sent again, or the lane retrains after four resends (R169). -/
def ilkResend (k : Nat) (express : Bool) (seq : Nat) (s : State) : State :=
  let c := chanOfLane s k express
  match c.unacked.find? (fun x => x.seq == seq) with
  | none => s
  | some x =>
    if x.frame.typ = 15 then ilkAcked k express seq s
    else if 4 ≤ x.resends then s |> ilkViolation 0x0B k |> laneRetrain k
    else s |> setChanOfLane k express { c with unacked := c.unacked.map (fun y => if y.seq = seq then { y with resends := y.resends + 1 } else y) }
      |> inc (F.ILK_CRC.RESENDS k) |> whenB (x.frame.typ == 7) (inc F.ILK_TRIG.RETRIED)
      |> emit (.ilk k express seq x.frame.typ x.frame.words)

/-- ACK_RECEIVE (R169). -/
def ilkAck (k : Nat) (express : Bool) (seq : Nat) (nak : Bool) (s : State) : State :=
  if !laneUp s k then s else if nak then ilkResend k express seq s else ilkAcked k express seq s

/-- CRC_FAILURE: a frame that fails its CRC (reason 1), its length (2) or its type (3) is answered with a NAK (R169, R186). -/
def ilkBadFrame (k : Nat) (express : Bool) (seq reason : Nat) (s : State) : State :=
  if !laneUp s k then s
  else s |> whenB (reason == 1) (inc (F.ILK_CRC.CRC_ERR k)) |> ilkViolation reason k |> emit (.ack k express seq true reason)

/-- CODE_VIOLATION (R186 0x04, 0x05): `span` numbers the lane's spans of 2²⁰ words; above CODE_THR in one the lane retrains. `idle`
says that the violation is 256 words without an IDLE, for which the lane is not accepted as a parent. -/
def codeViolation (k span : Nat) (idle : Bool) (s : State) : State :=
  if !laneUp s k then s
  else if idle then s |> ilkViolation 0x05 k |> setIlkLane k (fun l => { l with hello := l.hello.map (fun h => { h with accept := false }) })
    |> showAcceptable
  else
    let l := ilkLane s k
    let n := if l.codeSpan = span then l.codes + 1 else 1
    s |> inc (F.ILK_CODE.CODE_ERR k) |> setIlkLane k (fun l => { l with codes := n, codeSpan := span }) |> ilkViolation 0x04 k
      |> whenB (decide (rget s F.ILK_BACKUP.CODE_THR < n)) (laneRetrain k)

/-! ### Marks (R165, R178) -/

/-- Whether this hub, or an ancestor, is in holdover. -/
def markHold (s : State) : Bool := on s F.ILK_STATE.HOLD || on s F.ILK_STATE.ANC_HOLD

/-- MARKs of stroke `n` leave on every lane that is up (R165). -/
def sendMarks (n : Nat) (s : State) : State :=
  forAll ((List.range 4).filter (laneUp s)) (fun k => emit (.mark k (n % 2 ^ 20) (markHold s))) s

/-- A mark that is missing, out of sequence or mistimed; three in a row lose the parent (R178, R186 0x06). -/
def markBad (k : Nat) (counted : Bool) (s : State) : State :=
  if !laneUp s k then s else
  let m := (ilkLane s k).miss + 1
  s |> whenB counted (fun s => s |> inc (F.ILK_CODE.MARK_ERR k) |> ilkViolation 0x06 k) |> setIlkLane k (fun l => { l with miss := m, lastSn := none })
    |> whenB (isUp s k && decide (3 ≤ m)) (fun s => s |> loseParent |> seekParent)

/-- A hub that has struck nothing counts the parent's marks as its provisional grid (R173; log entry 17). -/
def provisional (k sn : Nat) (s : State) : State :=
  if everStruck s || !isUp s k then s else
  let n := strokeNow s
  rset F.SYS_STROKE_NOW.STROKE ((n / 2 ^ 20 + (if sn < n % 2 ^ 20 then 1 else 0)) * 2 ^ 20 + sn) s

/-- SN_received less SN_own, the received number extended from this hub's counter (R165). -/
def snDiff (s : State) (sn : Nat) : Int := asInt 20 ((sn + 2 ^ 20 - strokeNow s % 2 ^ 20) % 2 ^ 20)

/-- A MARK on a lane: its SN and HOLD, the phase of its K28.7 against this hub's strike in 2⁻¹⁶ ns, and whether it is mistimed by
more than one word (R165). -/
def markReceive (k sn : Nat) (hold : Bool) (phase : Int) (mistimed : Bool) (s : State) : State :=
  if !laneUp s k then s else
  let l := ilkLane s k
  let seqBad := match l.lastSn with | none => false | some p => (p + 1) % 2 ^ 20 != sn % 2 ^ 20
  if seqBad || mistimed then markBad k true s |> setIlkLane k (fun l => { l with lastSn := some sn }) else
  let s := provisional k (sn % 2 ^ 20) s
  let tx := match l.hello with | none => 0 | some h => h.txLat
  let phi := snDiff s sn * strokeUnits s + phase - 1024 * rget s (F.ILK_LAT.RX k) - 1024 * (tx : Int)
  let n := l.phiN + 1
  let span := 2 ^ rget s F.ILK_TRACK.AVG
  let s := setIlkLane k (fun l => { l with miss := 0, lastSn := some sn }) s
  let s := if n < span then setIlkLane k (fun l => { l with phiN := n, phiSum := l.phiSum + phi }) s
    else s |> rset (F.ILK_PHI.PHI k) (ofInt 48 (divHalfEven (l.phiSum + phi) span))
      |> setIlkLane k (fun l => { l with phiN := 0, phiSum := 0, phiHas := true, phiStroke := strokeNow s })
  if isUp s k then
    let s := rset F.ILK_STATE.ANC_HOLD hold.toNat s
    whenB (hold && tsuSource s == 1) (tsuHoldover 0) s
  else s

/-! ### HELLO (R168, R171) -/

/-- The HELLO of this hub on a lane. -/
def helloFrame (k : Nat) (s : State) : IlkFrame :=
  let anc (i : Nat) : Nat := rget s (F.ILK_ANC.ANC (i / 6) (i % 6))
  let st := ilkState s
  let depth := rget s F.ILK_STATE.DEPTH
  let acc := (st == 7 || (st == 4 && decide (depth ≤ 6)))
  ⟨1, [rget s F.ILK_ID.DOMAIN + hubId s * 2 ^ 16 + depth * 2 ^ 26 + rget s F.ILK_CFG.ROLE * 2 ^ 29,
       st + acc.toNat * 16 + (markHold s).toNat * 32 + rget s F.ILK_ID.EPOCH * 256 + rget s F.SYS_STROKE_CFG.M_MINUS1 * 2 ^ 16,
       rget s (F.ILK_LAT.TX k) + anc 0 * 2 ^ 16, anc 1 + anc 2 * 2 ^ 10 + anc 3 * 2 ^ 20, anc 4 + anc 5 * 2 ^ 10]⟩

/-- HELLO_SEND on a lane. -/
def helloSend (k : Nat) (s : State) : State := if ilkState s = 0 then s else ilkSend k false (helloFrame k s) s

/-- A HELLO updates the neighbour's record (R168, R171), and its answers of R186 follow. -/
def helloUse (k : Nat) (h : Hello) (s : State) : State :=
  let l := ilkLane s k
  let span := strokeNow s / 1024
  let cnt := if l.helloSpan = span then l.hellos + 1 else 1
  let s := setIlkLane k (fun l => { l with hellos := cnt, helloSpan := span }) s
  if 16 < cnt then ilkViolation 0x08 k s else
  let s := s |> setIlkLane k (fun l => { l with hello := some h })
    |> rset (F.ILK_NBR.HUB_ID k) h.hubId |> rset (F.ILK_NBR.DOMAIN k) h.domain |> rset (F.ILK_NBR.DEPTH k) h.depth
    |> rset (F.ILK_NBR.STATE k) h.state |> rset (F.ILK_NBR.EPOCH k) h.epoch |> rset (F.ILK_PPM.PPM k) (ofInt 16 (clampSigned 16 h.ppm))
  -- A child names this hub as its last ancestor, which is no loop.
  let loop := helloLoop s h && !isChild s k
  let s := s |> whenB (helloAlien s h || loop) (ilkViolation 0x07 k) |> whenB loop (inc F.ILK_COUNT.LOOPS)
    |> whenB (decide (20000 < h.ppm.natAbs)) (ilkViolation 0x05 k)
    |> whenB (isRoot s && h.domain == rget s F.ILK_ID.DOMAIN && decide (rget s F.ILK_ID.EPOCH < h.epoch)) (raise pILK 6)
  let gone := isUp s k && (helloAlien s h || helloLoop s h || h.mMinus1 != rget s F.SYS_STROKE_CFG.M_MINUS1)
  s |> whenB gone loseParent |> seekParent |> showAcceptable

/-! ### Measuring and placing (R174 to R176) -/

/-- E, RTT and PATH from the upstream lane's two phases (R174). -/
def measured (k : Nat) (s : State) : Int × Int × Nat :=
  let c := rgetI s (F.ILK_PHI.PHI k)
  let p := rgetI s (F.ILK_RPHI.PHI k)
  let a := rgetI s (F.ILK_ASYM.A k)
  let ps := divHalfEven ((c + p + a) * 1000) (2 * 65536)
  (divHalfEven (c - p - a) 2, c + p, ((ilkLane s k).path + ps).toNat)

/-- The measured figures in their registers. -/
def showMeasured (k : Nat) (s : State) : State :=
  let m := measured k s
  s |> rset F.ILK_OFFSET.E (ofInt 48 (clampSigned 48 m.1)) |> rset (F.ILK_RTT.RTT k) (ofInt 48 m.2.1) |> rset F.ILK_PATH.PATH_PS m.2.2

/-- n of R175, and the CARRY that it leaves. -/
def placeSteps (x : Int) : Int := divHalfEven x 1000

/-- The strike is to move by x: its whole steps become the slew, and CARRY what they leave (R175, R176). -/
def placeBy (x : Int) (s : State) : State :=
  let n := placeSteps x
  s |> rset F.ILK_PLACE.CARRY (ofInt 16 (n * 1000 - x)) |> setIlk (fun i => { i with slew := n })

/-- PLACEMENT_UPDATE in JOINED (R176). -/
def placementUpdate (s : State) : State :=
  match upLane s with
  | none => s
  | some k =>
    if ilkState s ≠ 4 ∨ !(ilkLane s k).phiHas ∨ !(ilkLane s k).delayHas then s
    else let s := showMeasured k s
         placeBy ((measured k s).1 - (ilkLane s k).carry) s

/-- SLEW_STEP: one interpolator step, with the TSU's time on the same cycle (R135, R176); ALIGNING ends with the last one (R179). -/
def slewStep (cyc : Nat) (s : State) : State :=
  if s.ilk.slew = 0 then s else
  let d : Int := if 0 < s.ilk.slew then 1 else -1
  let t := ((tsuAt s cyc : Int) + d * (1000 * 2 ^ 32)).toNat
  let s := { s with tsu := { s.tsu with t := t, cyc := max cyc s.tsu.cyc } }
    |> rset F.ILK_PLACE.APPLIED (ofInt 40 (rgetI s F.ILK_PLACE.APPLIED + d)) |> setIlk (fun i => { i with slew := i.slew - d })
  if s.ilk.slew = 0 ∧ ilkState s = 6 then
    s |> ilkSetState 4 |> rset F.ILK_STATE.HOLD 0 |> rset F.ILK_REJOIN_LEN.STROKES (strokeNow s - s.ilk.alignFrom) |> raise pILK 2
  else s

/-- DELAY_SEND: φ of the child's marks, this hub's CARRY and PATH (R168). -/
def delaySend (k : Nat) (s : State) : State :=
  if !(childLanes s).contains k then s else
  let phi := rget s (F.ILK_PHI.PHI k)
  ilkSend k false ⟨4, [phi % 2 ^ 32, phi / 2 ^ 32 + rget s F.ILK_PLACE.CARRY * 2 ^ 16, rget s F.ILK_PATH.PATH_PS,
    (ilkLane s k).phiStroke % 2 ^ 32]⟩ s

/-- A DELAY from the parent: its φ, CARRY and PATH, and the low 32 bits of the stroke whose mark gave φ. A hub that has struck nothing
takes the number's upper bits for its provisional grid (R173, R174). -/
def delayUse (k : Nat) (phi carry : Int) (path strokeLo : Nat) (s : State) : State :=
  if !isUp s k then s
  else s |> whenB (!everStruck s) (rset F.SYS_STROKE_NOW.STROKE (strokeLo / 2 ^ 20 * 2 ^ 20 + strokeNow s % 2 ^ 20)) |> rset (F.ILK_RPHI.PHI k) (ofInt 48 phi) |> setIlkLane k (fun l => { l with carry := carry, path := path, delayHas := true })

/-- ILK_LOCK_ACQUIRED: LOCK ends in MEASURE (R173). -/
def lockAcquired (s : State) : State := if ilkState s = 2 then ilkSetState 3 s else s

/-- JOIN goes to the root (R172). -/
def sendJoin (k : Nat) (s : State) : State :=
  let depth := match (ilkLane s k).hello with | none => 7 | some h => h.depth + 1
  ilkSend k false ⟨2, [hubId s + depth % 8 * 2 ^ 10 + rget s F.BCAST_SEQ.RX_SEQ * 2 ^ 16, rget s F.ILK_PATH.PATH_PS]⟩ s

/-- ILK_MEASURE_DONE: the averages stand, and JOIN is sent (R172, R173). -/
def measureDone (s : State) : State :=
  match upLane s with
  | none => s
  | some k =>
    if ilkState s ≠ 3 ∨ !(ilkLane s k).phiHas ∨ !(ilkLane s k).delayHas then s
    else let s := showMeasured k s
         s |> setIlk (fun i => { i with x := (measured k s).1 - (ilkLane s k).carry }) |> sendJoin k

/-! ### Joins (R172, R179, R180) -/

/-- The hub stands under the parent on lane `k`: its depth, ancestors, path and EPOCH. -/
def underParent (k : Nat) (s : State) : State :=
  match (ilkLane s k).hello with
  | none => s
  | some h =>
    let anc := ancestorsOf h ++ [h.hubId]
    s |> rset F.ILK_STATE.DEPTH (h.depth + 1) |> rset F.ILK_PATH.HOPS (h.depth + 1) |> rset F.ILK_ID.EPOCH h.epoch
      |> setIlk (fun i => { i with lastEpoch := some h.epoch })
      |> forAll (List.range 7) (fun i => rset (F.ILK_ANC.ANC (i / 6) (i % 6)) (nth 0x3FF anc i))

/-- The number of whole strokes by which E leaves (−T/2, T/2] (R173). -/
def strokeShift (e t : Int) : Int := -((t - 2 * e) / (2 * t))

/-- A first join: the numbering and the strike are set at once (R173); CARRY as R175. -/
def firstJoin (k : Nat) (s : State) : State :=
  let sh := strokeShift (measured k s).1 (strokeUnits s)
  let x := s.ilk.x - sh * strokeUnits s
  s |> rset F.SYS_STROKE_NOW.STROKE ((strokeNow s : Int) - sh).toNat |> rset F.ILK_PLACE.CARRY (ofInt 16 (placeSteps x * 1000 - x))
    |> rset F.ILK_PLACE.APPLIED 0 |> underParent k |> ilkSetState 4 |> rset F.ILK_STATE.HOLD 0

/-- A join of a hub that strikes: ALIGNING by x, or FAR when the error is above 2¹⁹ strokes (R179, R180). -/
def rejoin (k : Nat) (s : State) : State :=
  let x := s.ilk.x
  if 2 ^ 19 * strokeUnits s < x.natAbs then
    s |> rset F.ILK_REJOIN.FAR 1 |> raise pILK 3 |> rset (F.ILK_LSTAT.UPSTREAM k) 0 |> ilkSetState 5
  else
    s |> rset F.ILK_REJOIN.X (ofInt 48 (clampSigned 48 x)) |> rset F.ILK_REJOIN.FAR 0 |> underParent k |> placeBy x
      |> setIlk (fun i => { i with alignFrom := strokeNow s }) |> ilkSetState 6
      |> (fun s => if s.ilk.slew = 0 then s |> ilkSetState 4 |> rset F.ILK_STATE.HOLD 0 |> rset F.ILK_REJOIN_LEN.STROKES 0 |> raise pILK 2 else s)

/-- A JOIN_ACK: this hub's own is obeyed, another goes on down the lane it was heard on (R172). -/
def joinAckUse (hub result : Nat) (s : State) : State :=
  if hub = hubId s then
    match upLane s with
    | none => s
    | some k =>
      if ilkState s ≠ 3 then s
      else if result = 0 then (if everStruck s then rejoin k s else firstJoin k s)
      else s |> inc F.ILK_COUNT.REFUSALS |> raise pILK 3 |> ilkSetState 8
  else
    match (List.range 4).find? (fun k => mget zeroAt s.ilk.route hub == k + 1) with
    | none => s
    | some k => ilkSend k false ⟨3, [hub + result * 2 ^ 12]⟩ s

/-- JOIN_RETRY: a REFUSED hub asks again (R172). -/
def joinRetry (s : State) : State :=
  if ilkState s ≠ 8 then s else
  match bestParent s (everStruck s) with
  | some k => takeParent k s
  | none => s |> forAll (List.range 4) (fun j => rset (F.ILK_LSTAT.UPSTREAM j) 0) |> ilkSetState (if everStruck s then 5 else 1)

/-- What the root answers to a JOIN (R172). -/
def joinResult (s : State) (j : Join) : Nat :=
  if !on s F.ILK_CFG.JOIN_EN then 3
  else if bitSet (topoAt s j.hubId) 0 && j.before != some j.hubId then 1
  else if 7 < j.depth then 2
  else 0

/-- The broadcasts a joined hub has missed: sent again while they are BCAST_LEAD ahead, else reported with CMD 15 (R185). -/
def resendMissed (k last : Nat) (s : State) : State :=
  forAll (s.ilk.sent.reverse.filter (fun b => 0 < (b.bseq + 65536 - last) % 65536 && (b.bseq + 65536 - last) % 65536 < 32768))
    (fun b s =>
      if strokeNow s + rget s F.BCAST_LEAD.LEAD ≤ b.stroke then s |> ilkSend k true (bcastFrame b) |> inc F.BCAST_RESEND.RESENT
      else ilkSend k true (bcastFrame { b with cmd := 15 }) s) s

/-- A JOIN: the root answers it, another hub forwards it upstream (R172, R182). -/
def joinUse (k : Nat) (j : Join) (s : State) : State :=
  let s := setIlk (fun i => { i with route := mput zeroAt j.hubId (k + 1) i.route }) s
  if isRoot s then
    let r := joinResult s j
    let s := if r = 0 then
        s |> (fun s => match j.before with
            | some b => if b = j.hubId then s else setTopo b 0 s
            | none => s)
          |> setTopo j.hubId (topoEntry 4 j.depth j.upLane j.parent j.pathPs)
      else s
    s |> ilkSend k false ⟨3, [j.hubId + r * 2 ^ 12]⟩ |> whenB (r == 0) (resendMissed k j.lastBseq)
  else
    match upLane s with
    | none => s
    | some u => ilkSend u false ⟨2, [j.hubId + j.depth % 8 * 2 ^ 10 + j.lastBseq * 2 ^ 16, j.pathPs]⟩ s

/-- REVERT_TIMER: PREF_LANE has been acceptable for 2²⁰ strokes (R180). -/
def revertTimer (s : State) : State :=
  let p := rget s F.ILK_CFG.PREF_LANE
  if ilkState s = 4 ∧ on s F.ILK_CFG.REVERT ∧ upLane s ≠ some p ∧ acceptable s false p then
    s |> setIlk (fun i => { i with slew := 0 }) |> takeParent p
  else s

/-- BACKUP_TAKEOVER: a backup root that has found no parent becomes ROOT with the next EPOCH (R181). -/
def backupTakeover (s : State) : State :=
  if rget s F.ILK_CFG.ROLE = 2 ∧ ilkState s = 5 ∧ (bestParent s true).isNone then
    s |> rset F.ILK_ID.EPOCH (rget s F.ILK_ID.EPOCH + 1) |> becomeRoot |> raise pILK 6
  else s

/-! ### Time (R183) -/

def timeWords (f : TimeFrame) : IlkFrame :=
  ⟨5, [f.stroke % 2 ^ 32, f.stroke / 2 ^ 32 % 2 ^ 32, f.seconds % 2 ^ 32,
       f.seconds / 2 ^ 32 % 65536 + f.rootState % 8 * 2 ^ 16 + f.steps % 256 * 2 ^ 24, f.ns, f.frac, f.rate]⟩

/-- TIME_SEND: t and the rate for a stroke `ahead` of the present one, at least BCAST_LEAD. -/
def timeSend (ahead : Nat) (s : State) : State :=
  if !isRoot s then s else
  let n := max ahead (rget s F.BCAST_LEAD.LEAD)
  let u := (tsuAt s 0 + (n * strokeLen s) * tsuInc s) / 2 ^ 32
  let f : TimeFrame :=
    { stroke := strokeNow s + n, seconds := u / secUnits, ns := u % secUnits / 65536, frac := u % 65536,
      rate := rget s F.TSU_RATE.RATE, rootState := tsuState s, steps := rget s F.TSU_STATUS.STEPS }
  ilkSendAll (childLanes s) true (timeWords f) s

/-- A frame that only the parent may send comes from another lane (R186 0x09). -/
def fromChild (k : Nat) (use : State → State) (s : State) : State := if isUp s k then use s else ilkViolation 0x09 k s

/-- TIME from the parent: forwarded, and held for its stroke where the hub follows the root's time. -/
def timeUse (f : TimeFrame) (s : State) : State :=
  s |> inc F.BCAST_TIME.TIME_RX |> ilkSendAll (childLanes s) true (timeWords f)
    |> whenB (tsuSource s == 1 && decide (strokeNow s < f.stroke)) (setIlk (fun i => { i with load := some f }))

/-- Two TIME intervals without a frame: for the TSU the parent is lost. -/
def timeTimeout (s : State) : State :=
  if tsuSource s = 1 ∧ !isRoot s then s |> incBy F.BCAST_TIME.TIME_MISSED 2 |> tsuHoldover 0 else s

/-- At the strike of s_t the root's time is loaded, as a step when it differs by 1 ns or more (R138, R183). -/
def timeLoad (n : Nat) (s : State) : State :=
  match s.ilk.load with
  | none => s
  | some f =>
    if f.stroke ≠ n then s else
    let s := setIlk (fun i => { i with load := none }) s
    if tsuSource s ≠ 1 then s else
    let u : Int := f.seconds * secUnits + f.ns * 65536 + f.frac
    let old : Int := (s.tsu.t / 2 ^ 32 : Nat)
    let back := tsuState s != 5
    let s := if 65536 ≤ (u - old).natAbs then applyStep n u s
      else { s with tsu := { s.tsu with t := u.toNat * 2 ^ 32, cyc := 0, strike := u.toNat * 2 ^ 32, valid := true } }
    s |> whenB back (rset F.TSU_INK.REJOIN_DELTA (nsSat (u - old))) |> tsuSetRate 0 (asInt 32 f.rate)
      |> whenB (!on s F.ILK_STATE.ANC_HOLD) (tsuSetState 5 0)

/-! ### The commit of the ILK page (R170, R173, R182) -/

def ilkCommit (before : State) (s : State) : State :=
  let role := rget s F.ILK_CFG.ROLE
  let role' := rget before F.ILK_CFG.ROLE
  let s := if role = role' then s
    else if role = 3 then s |> forAll (List.range 4) (fun k => laneReset k 0) |> ilkSetState 0 |> rootFigures
    else if role = 1 then becomeRoot s
    else if ilkState s = 7 then
      -- A root made a member goes on striking and looks for a parent (R181).
      s |> setIlk (fun i => { i with topo := [] }) |> rset F.ILK_STATE.HOLD 1 |> inc F.ILK_HOLD.HOLDS
        |> rset F.ILK_HOLD.SINCE_STROKE_LO (strokeNow s) |> ilkSetState (if everStruck s then 5 else 1) |> rootFigures
    else if ilkState s = 0 then ilkSetState (if everStruck s then 5 else 1) s
    else s
  let moved := hubId s != hubId before || rget s F.ILK_ID.DOMAIN != rget before F.ILK_ID.DOMAIN
  let s := if !moved then s
    else if isRoot s then
      (if hubId s = hubId before then s
       else s |> setTopo (hubId before) 0 |> setTopo (hubId s) (topoEntry 7 0 0 0x3FF 0))
    else loseParent s
  let s := forAll ((List.range 4).filter (fun k => laneUp s k && (!on s (F.ILK_LCFG.EN k) || !bitSet (rget s F.ILK_CFG.LANE_EN) k))) laneDown s
  s |> seekParent |> showAcceptable

end Sys2Proof.Machine
end

