-- ==== Sys2Proof/Machine/Items.lean ====
section
/-!
DEFINITION. The 64-bit items of the record: sample words, anchors, control words, rubrics and packed blocks
(R150, R151, R197, R198, R218 to R223).
-/

namespace Sys2Proof.Machine

/-- The stamp of a word in whole ns of TAI, rounded with ties to even (R128, R137). -/
def stampFull (w : TagWord) : Nat := (divHalfEven (w.stamp : Int) 65536).toNat

/-- A number cut to `w` bits and put at bit `lo`. -/
def put (lo w v : Nat) : Nat := (v % 2 ^ w) * 2 ^ lo

/-- A tagged sample word (R218). -/
def sampleWord (w : TagWord) : Nat :=
  put 52 10 w.chan + put 46 6 w.s.fl + put 44 2 w.s.rng + put 40 4 w.tap + put 32 8 w.seq + wordValue w.s

/-- Anchor flags at [49:45]: DISC, HOLDOVER, UNSET, FREE, REPLAY, from the state flags of the stroke (R150, R219). -/
def anchorFlags (disc replay : Bool) (tfl : Nat) : Nat :=
  disc.toNat * 16 + bit tfl 0 * 8 + bit tfl 1 * 4 + bit tfl 2 * 2 + replay.toNat

/-- An anchor (R219). -/
def anchorWords (chan tap flags steps full stroke : Nat) : List Nat :=
  let k := 2 * 2 ^ 62 + put 52 10 chan
  [k + put 45 5 flags + put 40 4 tap + put 32 8 steps + full % 1000000000,
   k + 2 ^ 50 + put 0 48 (full / 1000000000),
   k + 2 * 2 ^ 50 + put 0 50 stroke]

/-- A control word (R220). -/
def ctlWord (code body : Nat) : Nat := 3 * 2 ^ 62 + put 56 6 code + body % 2 ^ 56
def stampWord (tap seq full : Nat) : Nat := ctlWord 1 (put 40 4 tap + put 32 8 seq + put 0 32 full)
def gapWord (reason tap count first : Nat) : Nat := ctlWord 2 (put 52 4 reason + put 48 4 tap + put 32 16 count + put 0 32 first)
def replayBegin (id from' : Nat) : Nat := ctlWord 3 (put 32 16 id + put 0 32 from')
def replayEnd (outcome id till : Nat) : Nat := ctlWord 4 (put 52 4 outcome + put 32 16 id + put 0 32 till)
def configWord (gen stroke : Nat) : Nat := ctlWord 5 (put 40 8 gen + put 0 32 stroke)

/-- GAP words for `count` strokes from `first`, 65,535 at most in each (R220, R276). -/
def gapWords (reason tap first count : Nat) : List Nat :=
  (List.range (ceilDiv count 65535)).map (fun i => gapWord reason tap (min 65535 (count - 65535 * i)) (first + 65535 * i))

/-! ### Rubrics (R197, R198) -/

/-- A rubric word. -/
def rubricWord (unit : Nat) (remote : Bool) (dir source tapBits seq stamp : Nat) : Nat :=
  2 ^ 62 + put 55 6 unit + put 54 1 remote.toNat + put 53 1 dir + put 43 10 source + put 39 4 tapBits + put 32 7 seq + put 0 32 stamp

/-- The unit of a rubric word. -/
def rubricUnit (w : Nat) : Nat := slice 55 6 w

/-- Insertion by unit. -/
def insertRubric (w : Nat) : List Nat → List Nat
  | [] => [w]
  | a :: rest => if rubricUnit w < rubricUnit a then w :: a :: rest else a :: insertRubric w rest

/-- The local rubrics of a stroke in ascending unit order (R199). -/
def sortRubrics (ws : List Nat) : List Nat := ws.foldr insertRubric []

/-- The coincidence word of two or more local rubrics, given in order (R198). -/
def coincidence (ws : List Nat) : List Nat :=
  match ws with
  | a :: _ :: _ =>
    let base := rubricUnit a
    [2 ^ 62 + 2 ^ 61 + put 54 7 ws.length + put 48 6 base
      + bitsOf ((ws.map (fun w => rubricUnit w - base)).filter (fun i => decide (i < 48)))]
  | _ => []

/-- The stamp of a firing: t(s_f) and CYCLE × 1.953125 ns, rounded to the ns with ties to even (R196). -/
def firingFull (strike cycle : Nat) : Nat := (divHalfEven ((strike + 128000 * cycle : Nat) : Int) 65536).toNat

/-! ### Packed blocks (R222, R223) -/

/-- 32-bit values two to a word, the last word padded. -/
def pack32 : List Nat → List Nat
  | [] => []
  | [a] => [a * 2 ^ 32]
  | a :: b :: rest => (a * 2 ^ 32 + b) :: pack32 rest

/-- The flag entries of a block's values, in value order. -/
def flagEntries : Nat → List Samp → List Nat
  | _, [] => []
  | i, x :: rest =>
    if x.fl = 0 then flagEntries (i + 1) rest
    else (put 20 12 i + put 14 6 x.fl + put 12 2 x.rng) :: flagEntries (i + 1) rest

/-- The words of a block. -/
def blockWords (b : Block) : List Nat :=
  let vs := b.vals.flatten
  let fe := flagEntries 0 vs
  [put 52 10 b.first + put 46 6 (vs.foldl (fun a x => a ||| x.fl) 0) + put 40 4 b.tap + put 32 8 b.seq + put 0 32 b.full,
   put 48 16 b.count + put 40 8 b.vals.length + put 24 16 fe.length + put 0 24 b.stride]
    ++ pack32 (vs.map wordValue) ++ pack32 fe

/-- The bytes of a block without its flag entries. -/
def blockBytes (b : Block) : Nat := 16 + 8 * ceilDiv (b.count * b.vals.length) 2

/-- The stamp that a block gives its index `k` (R223). -/
def blockStamp (b : Block) (k m : Nat) : Nat :=
  (b.full + (divHalfEven ((k * b.stride * m * 64000000 : Nat) : Int) 65536).toNat) % 2 ^ 32

/-- The strokes between two indices of a word's tap: 1 for TAP 0, else D_j of the channel's chain (R120, R222). -/
def wordStride (s : State) (w : TagWord) : Nat :=
  if w.tap = 0 then 1 else
  match runDesc s w.chan with
  | none => 1
  | some e => descRatio ((descList false s e).take w.tap)

/-- The words of one tap of a stroke, cut into runs that one block can hold: consecutive list positions with one stamp, index and
stride; `pos` gives a channel's list position. -/
def runsOf (s : State) (pos : Nat → Nat) : List TagWord → List Block
  | [] => []
  | w :: rest =>
    let one : Block := { first := pos w.chan, tap := w.tap, seq := w.seq, full := stampFull w, stride := wordStride s w, count := 1,
                         vals := [[w.s]] }
    match runsOf s pos rest with
    | [] => [one]
    | b :: bs =>
      if b.first = one.first + 1 ∧ b.full = one.full ∧ b.seq = one.seq ∧ b.stride = one.stride then
        { b with first := one.first, count := b.count + 1, vals := [w.s :: b.vals.flatten] } :: bs
      else one :: b :: bs

/-! ### Which anchors are due (R149, R151) -/

/-- The key of a tap of a channel. -/
abbrev tapKey (chan tap : Nat) : Nat := 16 * chan + tap

/-- What a stream remembers of a tap's latest anchor: its time in ns plus 1, and STEPS. (0, 0) stands for none. -/
def noAnchor (_ : Nat) : Nat × Nat := (0, 0)

/-- Whether an anchor is due before a stamp: the first of the tap, PERIOD_MS on, 2³⁰ ns or more away, or after a step. -/
def anchorDue (s : State) (a : Nat × Nat) (full steps : Nat) : Bool :=
  if a.1 = 0 then true else
  let t := a.1 - 1
  let d := if t ≤ full then full - t else t - full
  decide (rget s F.TSU_ANCHOR.PERIOD_MS * 1000000 ≤ d) || decide (2 ^ 30 ≤ d) || a.2 != steps

/-- An anchor made for a tap, with DISC where a step lies between it and the latest one. -/
def makeAnchor (r : Rec) (a : Nat × Nat) (chan tap full : Nat) (replay : Bool) : List Nat :=
  anchorWords chan tap (anchorFlags (a.1 != 0 && a.2 != r.steps) replay r.tfl) r.steps full r.stroke

/-- The channel and tap of a rubric anchor (R202). -/
abbrev rubKey : Nat := tapKey 1023 14

end Sys2Proof.Machine
end

