-- ==== Sys2Proof/Machine/Inkwell.lean ====
section
/-!
DEFINITION. The Inkwell: capacity, rings, what is held, loss, channel states, errors, repair and retraining (R264 to R297).
-/

namespace Sys2Proof.Machine

def setInk (f : Ink → Ink) (s : State) : State := { s with ink := f s.ink }

/-! ### Fitted memory and addresses (R265, R267) -/

def rowBits (s : State) : Nat :=
  match on s F.INKW_CFG.X8, on s F.INKW_CFG.D16G with
  | false, false => 17
  | false, true => 18
  | true, false => 16
  | true, true => 17

/-- A channel's fitted capacity in MB (R265). -/
def fittedMb (s : State) : Nat :=
  let rank := match on s F.INKW_CFG.X8, on s F.INKW_CFG.D16G with
    | false, false => 16384
    | false, true => 32768
    | true, false => 8192
    | true, true => 16384
  if on s F.INKW_CFG.RANKS2 then 2 * rank else rank

/-- DDR4 data rate in MT/s. -/
def ddrMt (s : State) : Nat := nth 3200 [1600, 1866, 2133, 2400, 2666, 2933, 3200] (rget s F.INKW_CFG.SPEED)

/-- The place of a byte address: rank, bank group, bank, row and column (R267). -/
structure DAddr where
  rank : Nat
  bg : Nat
  ba : Nat
  row : Nat
  col : Nat
  deriving DecidableEq, Repr

def ddrAddr (s : State) (a : Nat) : DAddr :=
  let k := rget s F.INKW_CFG.RANKS2
  let row := slice (17 + k) (rowBits s) a
  let rank := if k = 1 then bit a 17 else 0
  let x (lo w : Nat) : Nat := slice lo w a
  let g := match rget s F.INKW_CFG.ORDER with
    | 1 => (x 6 2, x 8 2, x 10 3 * 8 + x 13 2 * 64 + x 15 2 * 256)
    | 2 => (bit a 14 + 2 * bit a 15, bit a 12 + 2 * bit a 13, x 6 2 * 8 + x 8 2 * 32 + 0 + x 10 2 * 256 + 0)
    | _ => (x 6 2, x 15 2, x 8 2 * 8 + x 10 3 * 32 + x 13 2 * 256)
  let h := on s F.INKW_CFG.HASH
  { rank := rank, bg := if h then g.1 ^^^ (row % 4) else g.1, ba := if h then g.2.1 ^^^ (row / 4 % 4) else g.2.1, row := row, col := g.2.2 }

/-! ### Rings (R268 to R271) -/

def ringOf (s : State) (k : Nat) : Ring := mget (fun _ => {}) s.ink.rings k
def setRing (k : Nat) (r : Ring) (s : State) : State := setInk (fun i => { i with rings := mput (fun _ => {}) k r i.rings }) s
def recAt (s : State) (n : Nat) : Option Rec := mget (fun _ => none) s.ink.log n
def ringOn (s : State) (k : Nat) : Bool := on s (F.INKW_RCFG.EN k)

/-- What INKW_RSEL holds after reset: ring 0 has every channel (R268). -/
def rselReset (k : Nat) : Wide := if k < 4 then BitVec.ofNat 128 (ones 128) else if k = 4 then BitVec.ofNat 128 (ones 80) else 0

/-- Whether a selection word table selects a channel (R230, R297); `base` is the place of its first word. -/
def selects (tab : Nat → Nat) (base chan : Nat) : Bool :=
  if chan < 512 then bitSet (tab (base + chan / 128)) (chan % 128) else chan < 592 && bitSet (tab (base + 4)) (chan - 512)

def rselWord (shadow : Bool) (s : State) (i : Nat) : Nat := (mget rselReset (if shadow then s.ink.rselSh else s.ink.rsel) i).toNat

/-- Whether ring `k` records a tap of a channel. -/
def ringTakes (s : State) (k chan tap : Nat) : Bool :=
  tap < 7 && bitSet (rget s (F.INKW_RCFG.TAPS k)) tap && selects (rselWord false s) (8 * k) chan

/-- SHARE of an enabled ring; 0 stands for 256 (log entry 20). -/
def shareOf (v : Nat) : Nat := if v = 0 then 256 else v

/-- Segments of a ring: SHARE/256 of the usable capacity, in whole 2 MB segments. -/
def ringSegs (s : State) (k : Nat) : Nat :=
  if ringOn s k then shareOf (rget s (F.INKW_RCFG.SHARE k)) * rget s F.INKW_STATE.CAPACITY_MB / 512 else 0

/-- Segments kept free ahead of the writer (R269). -/
def ringGuard (n : Nat) : Nat := ceilDiv (67 * n) 1000

/-- A sum of fractions, as numerator and denominator. -/
def addFrac (a : Nat × Nat) (n d : Nat) : Nat × Nat :=
  let x := a.1 * d + n * a.2
  let y := a.2 * d
  let g := Nat.gcd x y
  (x / g, y / g)

/-- The total ratio of tap `j` of a fast channel's chain, if it has that tap. -/
def tapRatio (shadow : Bool) (s : State) (c j : Nat) : Option Nat :=
  if j = 0 then some 1
  else
    let en := if shadow then sget s (fltEn c) else rget s (fltEn c)
    let d := if shadow then sget s (fltDesc c) else rget s (fltDesc c)
    if en = 1 ∧ j ≤ descStages shadow s d then some (descRatio ((descList shadow s d).take j)) else none

/-- BPS of a selection: 4 bytes for each fast channel and tap output, 4/D_j on the average (R268), rounded up. -/
def bpsOf (shadow : Bool) (s : State) (k : Nat) : Nat :=
  let get (f : Fld) : Nat := if shadow then sget s f else rget s f
  if get (F.INKW_RCFG.EN k) = 0 then 0 else
  let taps := (List.range 7).filter (bitSet (get (F.INKW_RCFG.TAPS k)))
  let t := (List.range 512).foldl (fun a c =>
    if selects (rselWord shadow s) (8 * k) c then
      taps.foldl (fun a j => match tapRatio shadow s c j with | none => a | some d => addFrac a 4 d) a
    else a) (0, 1)
  ceilDiv t.1 t.2

/-- The bytes of a stroke's items in a ring (R222, R268), and the anchors they bring. -/
def ringItems (s : State) (k : Nat) (r : Rec) : Nat × Table (Nat × Nat) :=
  let anch := (ringOf s k).anch
  let a0 : Nat × Table (Nat × Nat) :=
    if r.rub.isEmpty then (0, anch) else
    let full := r.strike / 65536
    let due := anchorDue s (mget noAnchor anch rubKey) full r.steps
    (8 * r.rub.length + (if due then 24 else 0), if due then mput noAnchor rubKey (full + 1, r.steps) anch else anch)
  (List.range 7).foldl (fun a j =>
    let ws := r.samples.filter (fun w => w.tap == j && ringTakes s k w.chan j)
    (runsOf s id ws).foldl (fun a b =>
      let due := anchorDue s (mget noAnchor a.2 (tapKey b.first j)) b.full r.steps
      (a.1 + 8 * (blockWords b).length + (if due then 24 else 0),
       if due then mput noAnchor (tapKey b.first j) (b.full + 1, r.steps) a.2 else a.2)) a) a0

/-! ### Pins (R205, R270) -/

def capState (s : State) (n : Nat) : Nat := rget s (F.CAP_REC_A.STATE n)

/-- The strokes that slot `n` pins, first and last. -/
def capSpan (s : State) (n : Nat) : Nat × Nat :=
  let e := rget s (F.CAP_REC_STROKE.STROKE n)
  (e - rget s (F.CAP_REC_GOT.PRE_GOT n), e + rget s (F.CAP_REC_GOT.POST_GOT n))

/-- The spans pinned in ring `k`. -/
def pinSpans (s : State) (k : Nat) : List (Nat × Nat) :=
  if bitSet (rget s F.CAP_CTRL.RINGS) k then ((List.range 16).filter (fun n => capState s n != 0)).map (capSpan s) else []

def segPinned (spans : List (Nat × Nat)) (g : Seg) : Bool := spans.any (fun p => decide (p.1 ≤ g.last ∧ g.first ≤ p.2))

/-- The oldest segments without a pin go until the ring has room for its guard; `fuel` bounds them (R269, R270). -/
def trimSegs (spans : List (Nat × Nat)) (room : Nat) : Nat → List Seg → List Seg
  | 0, gs => gs
  | fuel + 1, gs =>
    if gs.length ≤ room then gs else
    match gs.findIdx? (fun g => !segPinned spans g) with
    | none => gs
    | some i => if i + 1 < gs.length then trimSegs spans room fuel (gs.eraseIdx i) else gs

/-- The payload of a 2 MB segment after its 4 KB header. -/
abbrev segBytes : Nat := 2097152 - 4096

/-- Ring `k`'s registers. -/
def showRing (k : Nat) (s : State) : State :=
  let g := (ringOf s k).segs
  let spans := pinSpans s k
  s |> rset (F.INKW_RSIZE.BYTES k) (ringSegs s k * 2097152) |> rset (F.INKW_RSIZE.PINNED_SEG k) (g.filter (segPinned spans)).length
    |> rset (F.INKW_ROLD.STROKE k) (match g with | [] => 0 | a :: _ => a.first)
    |> rset (F.INKW_RNEW.STROKE k) (match g.getLast? with | none => 0 | some a => a.last)

/-- The writer of ring `k` takes a stroke's items; a ring restarted by a commit takes none of an earlier stroke (R271). -/
def ringWrite (k : Nat) (r : Rec) (s : State) : State :=
  let n := ringSegs s k
  if n = 0 ∨ r.stroke < (ringOf s k).start then s else
  let x := ringOf s k
  let it := ringItems s k r
  let gs := match x.segs.getLast? with
    | some g => if g.used + it.1 ≤ segBytes then x.segs.dropLast ++ [{ g with last := r.stroke, used := g.used + it.1 }]
      else x.segs ++ [{ first := r.stroke, last := r.stroke, used := it.1 }]
    | none => [{ first := r.stroke, last := r.stroke, used := it.1 }]
  let gs := trimSegs (pinSpans s k) (n - ringGuard n) gs.length gs
  s |> setRing k { x with segs := gs, wptr := x.wptr + it.1, anch := it.2 } |> showRing k

/-- Whether a segment list holds a stroke, lost ranges apart. -/
def segsHold (gs : List Seg) (n : Nat) : Bool :=
  gs.any (fun g => decide (g.first ≤ n ∧ n ≤ g.last) && !g.whole && !g.lost.any (fun p => decide (p.1 ≤ n ∧ n ≤ p.2)))

/-- Whether ring `k` holds a stroke. -/
def ringHolds (s : State) (k n : Nat) : Bool := ringOn s k && segsHold (ringOf s k).segs n

/-- Whether the Inkwell holds a value of a tap of a channel on a stroke. -/
def inkHolds (s : State) (n chan tap : Nat) : Bool := (List.range 8).any (fun k => ringHolds s k n && ringTakes s k chan tap)

/-- Whether some ring records a tap of a channel. -/
def inkRecords (s : State) (chan tap : Nat) : Bool := (List.range 8).any (fun k => ringOn s k && ringTakes s k chan tap)

/-- Strokes that no ring covers any more leave the log. -/
def pruneLog (s : State) : State :=
  setInk (fun i => { i with log := i.log.filter (fun e => (List.range 8).any (fun k => (ringOf s k).segs.any (fun g => decide (g.first ≤ e.1 ∧ e.1 ≤ g.last)))) }) s

/-- Every enabled ring takes a stroke's words. -/
def inkWrite (r : Rec) (s : State) : State :=
  s |> forAll (List.range 8) (fun k => ringWrite k r)
    |> setInk (fun i => { i with log := mput (fun _ => none) r.stroke (some r) i.log }) |> pruneLog

/-! ### Channel states (R272 to R276, R291) -/

def ddr (s : State) (c : Nat) : DdrCh := mget (fun _ => {}) s.ink.chans c
def setDdr (c : Nat) (f : DdrCh → DdrCh) (s : State) : State := setInk (fun i => { i with chans := mput (fun _ => {}) c (f (ddr s c)) i.chans }) s
def chState (s : State) (c : Nat) : Nat := rget s (F.INKW_CHST.STATE c)

/-- IN, CATCHUP and RESILVER accept writes. -/
def chAccepts (st : Nat) : Bool := st == 2 || st == 4 || st == 7
def otherCh (c : Nat) : Nat := 1 - c
def chIn (s : State) (c : Nat) : Bool := chState s c == 2

/-- MON_WEAR.DRAM_STEP: what is lost for good (R392; log entry 21). -/
def dramStep (s : State) : Nat :=
  let out (c : Nat) : Bool := chState s c == 8 || chState s c == 9
  let mapped := rget s (F.INKW_PPR.MAPOUT 0) + rget s (F.INKW_PPR.MAPOUT 1) != 0
  if mapped && ((List.range 2).any (fun c => on s (F.INKW_CHRET.KEPT_LAST c))) then 4
  else if out 0 || out 1 then 3
  else if mapped then 2
  else if (List.range 2).any (fun c => rget s (F.INKW_PPR.SPPR_USED c) + rget s (F.INKW_PPR.HPPR_USED c) != 0) then 1
  else 0

def showDramStep (s : State) : State := wear F.MON_WEAR.DRAM_STEP (dramStep s) s

/-- A channel's STATE changes (R272, R293). -/
def setChState (c st : Nat) (s : State) : State :=
  let was := chState s c
  if was = st then s else
  let s := if chAccepts was && !chAccepts st then setDdr c (fun d => { d with left := (List.range 8).map (fun k => (ringOf s k).wptr) }) s else s
  let mir := on s F.INKW_STATE.MIRRORED
  let s := s |> rset (F.INKW_CHST.STATE c) st |> rset (F.INKW_CHST.SINCE_LO c) (strokeNow s)
    |> rset (if c = 0 then F.INKW_STATE.CH0 else F.INKW_STATE.CH1) st |> raise pINKW 0
  let now := chIn s 0 && chIn s 1
  s |> rset F.INKW_STATE.MIRRORED now.toNat |> whenB (now && !mir) (raise pINKW 3) |> whenB (st == 8 || st == 9) (raise pINKW 2)
    |> showDramStep

/-- The span still to copy, in MB, rounded up (R274). -/
def showCopy (c mb : Nat) (s : State) : State := s |> rset (F.INKW_CATCHUP.LEFT_MB c) mb |> rset (F.INKW_CATCHUP.TOTAL_MB c) mb

/-- A channel returns by copying what it missed (R274). -/
def toCatchup (c : Nat) (s : State) : State :=
  let left := (ddr s c).left
  let bytes := (List.range 8).foldl (fun a k => a + ((ringOf s k).wptr - nth 0 left k)) 0
  s |> setChState c 4 |> showCopy c (ceilDiv bytes 1048576)

/-- A channel whose contents were lost copies every segment that holds a stroke (R274). -/
def toResilver (c : Nat) (s : State) : State :=
  s |> setChState c 7 |> showCopy c (2 * (List.range 8).foldl (fun a k => a + (ringOf s k).segs.length) 0)

/-! ### Row log, repair and retirement (R281, R289 to R292) -/

def logRow (c ev req rank bg ba row : Nat) (s : State) : State :=
  let w (i : Nat) (f : Nat → Fld) (s : State) : State := rset (f (i + 1)) (rget s (f i)) s
  s |> forAll ((List.range 27).reverse) (fun i s => s |> w i F.INKW_ROWLOG.CH |> w i F.INKW_ROWLOG.RANK |> w i F.INKW_ROWLOG.BG
        |> w i F.INKW_ROWLOG.BA |> w i F.INKW_ROWLOG.ROW |> w i F.INKW_ROWLOG.EVENT |> w i F.INKW_ROWLOG.REQ |> w i F.INKW_ROWLOG.STROKE_LO)
    |> rset (F.INKW_ROWLOG.CH 0) c |> rset (F.INKW_ROWLOG.RANK 0) rank |> rset (F.INKW_ROWLOG.BG 0) bg |> rset (F.INKW_ROWLOG.BA 0) ba
    |> rset (F.INKW_ROWLOG.ROW 0) row |> rset (F.INKW_ROWLOG.EVENT 0) ev |> rset (F.INKW_ROWLOG.REQ 0) req
    |> rset (F.INKW_ROWLOG.STROKE_LO 0) (strokeNow s)

/-- The bit of INKW_HPPR that stands for a device and bank group (R296). -/
def hpprBit (c : Nat) (r : DRow) : Fld × Nat :=
  (F.INKW_HPPR.USED (2 * (2 * c + r.rank) + r.dev / 16), 4 * (r.dev % 16) + r.bg)

def hpprUsed (s : State) (c : Nat) (r : DRow) : Bool := bitSet (rget s (hpprBit c r).1) (hpprBit c r).2

/-- A row is mapped out: 2 MB less in both channels (R289). -/
def mapOut (c : Nat) (r : DRow) (req : Nat) (s : State) : State :=
  s |> inc (F.INKW_PPR.MAPOUT c) |> inc F.INKW_COUNT.MAPOUTS |> rset F.INKW_STATE.CAPACITY_MB (rget s F.INKW_STATE.CAPACITY_MB - 2)
    |> logRow c 6 req r.rank r.bg r.ba r.row |> raise pINKW 5 |> showDramStep |> forAll (List.range 8) showRing

/-- A row is put on the list of rows pending hPPR. -/
def pendRow (c : Nat) (r : DRow) (s : State) : State :=
  let s := setDdr c (fun d => { d with pend := d.pend ++ [r] }) s
  rset (F.INKW_PPR.HPPR_PEND c) (min 255 (ddr s c).pend.length) s

/-- A row is repaired by sPPR, else left to hPPR, else mapped out (R289). -/
def repairRow (c : Nat) (r : DRow) (req : Nat) (s : State) : State :=
  let key := (r.rank, r.dev, r.bg)
  if !(ddr s c).sppr.contains key then
    s |> setDdr c (fun d => { d with sppr := d.sppr ++ [key] }) |> inc (F.INKW_PPR.SPPR_USED c) |> pendRow c r
      |> logRow c 4 req r.rank r.bg r.ba r.row |> raise pINKW 5 |> showDramStep
  else if !hpprUsed s c r then pendRow c r s
  else mapOut c r req s

/-- A channel is retired with a reason, unless it is the last in service (R291). -/
def retireCh (c reason : Nat) (s : State) : State :=
  let o := chState s (otherCh c)
  let last := o == 0 || o == 8 || o == 9
  let s := s |> rset (F.INKW_CHRET.REASON c) reason |> rset (F.INKW_CHRET.STROKE_LO c) (strokeNow s)
  if last then s |> rset (F.INKW_CHRET.KEPT_LAST c) 1 |> showDramStep
  else s |> setChState c 9 |> inc F.INKW_COUNT.RETIRED |> ledgerPut 3 (128 * c) reason

/-! ### Freezes (R283, R285, R286) -/

/-- The freeze record (R285, R296). -/
def freezeRecord (c cause req addr synd dev rowCe : Nat) (s : State) : State :=
  let a := ddrAddr s addr
  let u := s.tsu.strike / 2 ^ 32
  s |> rset F.INKW_FRZ0.CH c |> rset F.INKW_FRZ0.VALID 1 |> rset F.INKW_FRZ0.CAUSE cause |> rset F.INKW_FRZ0.RANK a.rank
    |> rset F.INKW_FRZ0.BG a.bg |> rset F.INKW_FRZ0.BA a.ba |> rset F.INKW_FRZ0.ROW a.row |> rset F.INKW_FRZ0.COL a.col
    |> rset F.INKW_FRZ0.REQ req |> rset F.INKW_FRZ1.STROKE (strokeNow s) |> rset F.INKW_FRZ2.SEC_LO (u / secUnits)
    |> rset F.INKW_FRZ2.NS (u % secUnits / 65536) |> rset F.INKW_FRZ3.SYNDROME synd |> rset F.INKW_FRZ3.DEVICE dev
    |> rset F.INKW_FRZ4.ADDR addr |> rset F.INKW_FRZ5.ROW_CE rowCe
    |> rset F.INKW_FRZ5.WRPTR_MB (((List.range 8).foldl (fun a k => a + (ringOf s k).wptr) 0) / 1048576)

/-- Strokes of 24 h. -/
def dayStrokes (s : State) : Nat := 86400 * 1024000 / mLive s

/-- A channel is frozen, or retired at the fourth freeze within 24 h (R283). -/
def freezeCh (c : Nat) (row : Option DRow) (s : State) : State :=
  let n := strokeNow s
  let recent := (ddr s c).freezes.filter (fun f => decide (n < f + dayStrokes s))
  if 3 ≤ recent.length then retireCh c 1 s
  else s |> setDdr c (fun d => { d with freezes := recent ++ [n], row := row }) |> inc (F.INKW_UE.FREEZES c) |> setChState c 5 |> raise pINKW 1

/-- The row of a burst, with the device suspected. -/
def rowOf (s : State) (addr dev : Nat) : DRow :=
  let a := ddrAddr s addr
  { rank := a.rank, bg := a.bg, ba := a.ba, row := a.row, dev := if dev = 31 then 0 else dev }

/-- A lost burst's strokes in its ring's segment headers, 16 ranges at most (R284). -/
def loseRange (k a b : Nat) (s : State) : State :=
  let x := ringOf s k
  setRing k { x with segs := x.segs.map (fun g =>
    if g.first ≤ b ∧ a ≤ g.last then (if 16 ≤ g.lost.length then { g with whole := true } else { g with lost := g.lost ++ [(a, b)] }) else g) } s

/-- UNCORRECTABLE_ERROR (R283, R284). -/
def uncorrectable (e : DdrErr) (s : State) : State :=
  let c := e.ch % 2
  if !chAccepts (chState s c) then s else
  let s := inc (F.INKW_UE.UE c) s
  let row := rowOf s e.addr e.dev
  let s := logRow c 2 e.req row.rank row.bg row.ba row.row s
  if chIn s (otherCh c) && !e.otherBad then
    let rc := ((ddr s c).ce.find? (fun x => x.1 == row)).map (·.2) |>.getD 0
    s |> freezeRecord c (if e.scrub then 2 else 1) e.req e.addr e.syndrome e.dev rc |> freezeCh c (some row)
  else
    s |> forAll e.hits (fun h => loseRange h.1 h.2.1 h.2.2) |> inc (F.INKW_UE.UE_LOST c) |> raise pINKW 11 |> repairRow c row e.req

/-- PATROL_SCRUB of a burst at an address; `ce` says that it was corrected, and `wrap` that the pass ends with it (R282). -/
def patrolScrub (c addr dev : Nat) (ce wrap : Bool) (s : State) : State :=
  if !chAccepts (chState s c) ∨ !on s F.INKW_SCRUB.EN then s else
  let s := rset (F.INKW_SCRUBST.AT_MB c) (addr / 1048576) s
  let s := if !ce then s else
    let row := rowOf s addr dev
    let n := (((ddr s c).ce.find? (fun x => x.1 == row)).map (·.2) |>.getD 0) + 1
    let s := s |> inc (F.INKW_CE.SCRUB_CE c) |> setDdr c (fun d => { d with ce := (row, n) :: d.ce.filter (fun x => x.1 != row) })
    if rget s F.INKW_SCRUB.CE_ROW_THR ≤ n then
      s |> logRow c 1 4 row.rank row.bg row.ba row.row |> setDdr c (fun d => { d with ce := d.ce.filter (fun x => x.1 != row) })
        |> repairRow c row 4
    else s
  if wrap then s |> inc (F.INKW_SCRUBST.PASSES c) |> setDdr c (fun d => { d with ce := [] }) else s

/-- The frozen channel, if there is one. -/
def frozenCh (s : State) : Option Nat := (List.range 2).find? (fun c => chState s c == 5)

/-- OP 1 of R285, also at FREEZE_S: sPPR where the cause lies in a row, then resilver. -/
def freezeResume (s : State) : State :=
  match frozenCh s with
  | none => s
  | some c =>
    let s := match (ddr s c).row with
      | some r => repairRow c r (rget s F.INKW_FRZ0.REQ) s
      | none => s
    s |> setDdr c (fun d => { d with row := none, sr := 0 }) |> toResilver c

/-- OP 2. -/
def freezeRetire (s : State) : State := match frozenCh s with | none => s | some c => retireCh c 4 s

/-! ### Retraining and hPPR (R275, R287, R288, R290) -/

/-- DX15 in °C, once it has a result (R93, R295). -/
def dx15 (s : State) : Option Int :=
  if bitSet s.nibs.dxHas 15 then some (divHalfEven (mget (fun _ => 0) s.nibs.dxVal 15 * 409600 - 273150 * 2 ^ 31) (1000 * 2 ^ 31)) else none

/-- A retraining or hPPR begins on channel `c`. -/
def ddrAct (op c : Nat) (s : State) : State :=
  if !chAccepts (chState s c) then s
  else if op = 0 then setChState c 3 s
  else if (ddr s c).pend.isEmpty then s else setChState c 6 s

/-- A trigger of a retraining (0) or hPPR (1): deferred while the other channel is not IN, unless forced (R275). -/
def ddrTrigger (op c : Nat) (force : Bool) (s : State) : State :=
  let st := chState s c
  if op = 0 ∧ st = 8 then s |> setDdr c (fun d => { d with failed := true }) |> setChState c 3
  else if !chAccepts st then s
  else if chIn s (otherCh c) || force then ddrAct op c s
  else s |> setInk (fun i => { i with deferred := i.deferred.filter (· != (op, c)) ++ [(op, c)] }) |> inc (F.INKW_RTFAIL.DEFERRED c) |> raise pINKW 8

/-- What a channel had to put off runs once the other one is IN. -/
def runDeferred (c : Nat) (s : State) : State :=
  match s.ink.deferred.find? (fun x => x.2 == c) with
  | none => s
  | some x => s |> setInk (fun i => { i with deferred := i.deferred.filter (· != x) }) |> ddrAct x.1 c

/-- A channel enters IN. -/
def enterIn (c : Nat) (s : State) : State := s |> showCopy c 0 |> setChState c 2 |> runDeferred (otherCh c)

/-- CHANNEL_COPY_DONE (R274). -/
def copyDone (c : Nat) (s : State) : State := if chState s c = 4 ∨ chState s c = 7 then enterIn c s else s

/-- The end of a retraining: a setting found, the previous one kept, or neither (R288). -/
def retrainEnd (c result rd wr vref : Nat) (s : State) : State :=
  if chState s c ≠ 3 then s else
  let s := s |> rset (F.INKW_TRAIN.RESULT c) result |> inc (F.INKW_TRAIN.TRAINS c) |> rset (F.INKW_TRAIN.STROKE_LO c) (strokeNow s)
    |> setDdr c (fun d => { d with trainC := dx15 s })
  if result = 3 then
    let s := s |> inc (F.INKW_RTFAIL.CONSEC c) |> inc (F.INKW_RTFAIL.TOTAL c) |> setChState c 8 |> setDdr c (fun d => { d with failed := true })
    if rget s F.INKW_RETRAIN.RETRY_MAX ≤ rget s (F.INKW_RTFAIL.CONSEC c) then retireCh c 2 s else s
  else
    let lost := (ddr s c).failed
    s |> whenB (result == 1) (fun s => s |> rset (F.INKW_TRAIN_EYE.RD_EYE_PS c) rd |> rset (F.INKW_TRAIN_EYE.WR_EYE_PS c) wr
          |> rset (F.INKW_TRAIN_EYE.VREF c) vref)
      |> whenB (result == 2) (raise pINKW 8) |> rset (F.INKW_RTFAIL.CONSEC c) 0 |> setDdr c (fun d => { d with failed := false })
      |> (if lost then toResilver c else toCatchup c)

/-- RETRAIN_PERIOD: the scheduled retraining, or the pending hPPR in its place (R287, R290). -/
def retrainPeriod (c : Nat) (s : State) : State :=
  if rget s F.INKW_RETRAIN.PERIOD_S = 0 then s
  else if on s F.INKW_CTRL.AUTO_HPPR && !(ddr s c).pend.isEmpty then ddrTrigger 1 c false s
  else ddrTrigger 0 c false s

/-- DX15 has moved by RT_DELTA since a channel's last training (R287). -/
def retrainByTemp (s : State) : State :=
  match dx15 s with
  | none => s
  | some t =>
    let s := forAll (List.range 2) (fun c => rset (F.INKW_DTEMP.DX15_C c) (ofInt 8 t)) s
    let d := rget s F.INKW_RETRAIN.RT_DELTA
    if d = 0 then s else
    forAll (List.range 2) (fun c s => match (ddr s c).trainC with
      | none => setDdr c (fun x => { x with trainC := some t }) s
      | some r => if (d : Int) ≤ (t - r).natAbs ∧ chState s c = 2 then s |> setDdr c (fun x => { x with trainC := some t }) |> ddrTrigger 0 c false
        else s) s

/-- HPPR_DONE: one pending row of a channel in REPAIR is done, with its ledger entry; a row whose device and bank group have used
their hPPR is exhausted (R290, R292). `src` is the source of the ledger's REASON. -/
def hpprDone (c src : Nat) (s : State) : State :=
  if chState s c ≠ 6 then s else
  match (ddr s c).pend with
  | [] => toResilver c s
  | r :: rest =>
    let s := s |> setDdr c (fun d => { d with pend := rest }) |> rset (F.INKW_PPR.HPPR_PEND c) (min 255 rest.length) |> raise pINKW 6
    if hpprUsed s c r then
      if chIn s (otherCh c) then retireCh c 3 s
      else s |> mapOut c r 7 |> whenB rest.isEmpty (toResilver c)
    else
      s |> setBitOf (hpprBit c r).1 (hpprBit c r).2 |> inc (F.INKW_PPR.HPPR_USED c) |> inc F.INKW_COUNT.HPPR_DONE
        |> logRow c 5 7 r.rank r.bg r.ba r.row |> ledgerPut 2 (128 * c + 64 * r.rank + r.dev) (r.bg + 4 * (src % 4)) |> showDramStep
        |> whenB rest.isEmpty (toResilver c)

/-- OP 3: hPPR of the frozen row, then resilver (R285, R290). -/
def freezeHard (s : State) : State :=
  match frozenCh s with
  | none => s
  | some c =>
    let s := match (ddr s c).row with | some r => pendRow c r s | none => s
    s |> setDdr c (fun d => { d with row := none, sr := 0 }) |> (fun s => if (ddr s c).pend.isEmpty then toResilver c s else setChState c 6 s)

/-- DDR_ALERT: CA parity (`wcrc` false) or write CRC; `same` says that it concerns the command or burst of the alert before it, and
`sec` numbers the second (R286). -/
def ddrAlert (c : Nat) (wcrc same : Bool) (sec req addr : Nat) (s : State) : State :=
  if !chAccepts (chState s c) then s else
  let d := ddr s c
  let run := if same then d.alertRun + 1 else 1
  let n := if d.alertSec = sec then d.alerts + 1 else 1
  let s := s |> inc (if wcrc then F.INKW_LINKERR.WCRC c else F.INKW_LINKERR.CA_PAR c)
    |> setDdr c (fun d => { d with alertRun := run, alertSec := sec, alerts := n })
  if 4 ≤ run ∧ chIn s (otherCh c) then
    s |> setDdr c (fun d => { d with alertRun := 0 }) |> freezeRecord c (if wcrc then 4 else 3) req addr 0 31 0 |> freezeCh c none
  else if n = rget s F.INKW_CTRL.LINKERR_THR + 1 then s |> raise pINKW 10 |> ddrTrigger 0 c false
  else s

/-! ### Refresh, power and row disturbance (R277 to R281) -/

/-- Whether a rank is hot, by DX15 or by its MPR status (R277). -/
def ddrHot (s : State) (c : Nat) : Bool :=
  (match dx15 s with | none => false | some t => decide ((rget s F.INKW_REFRESH.HOT_C : Int) < t))
    || decide (2 ≤ rget s (F.INKW_DTEMP.MPR_R0 c)) || decide (2 ≤ rget s (F.INKW_DTEMP.MPR_R1 c))

def ddrRefresh (c : Nat) (s : State) : State :=
  if chState s c = 0 ∨ chState s c = 9 then s else
  let f := rget s F.INKW_REFRESH.FGR
  s |> inc (F.INKW_REF.REFS c) |> rset (F.INKW_REF.HOT c) (ddrHot s c).toNat |> rset (F.INKW_REF.FGR_NOW c) (if f = 3 then 0 else f)

def mprRead (c r0 r1 : Nat) (s : State) : State :=
  let s := s |> rset (F.INKW_DTEMP.MPR_R0 c) r0 |> rset (F.INKW_DTEMP.MPR_R1 c) r1
  rset (F.INKW_REF.HOT c) (ddrHot s c).toNat s

/-- A rank idle for PD_IDLE cycles enters power-down. -/
def powerDown (c rank : Nat) (s : State) : State :=
  if !on s F.INKW_PWR.PD_EN ∨ chState s c = 0 ∨ (ddr s c).pd.contains rank then s else setDdr c (fun d => { d with pd := d.pd ++ [rank] }) s

/-- Self-refresh entry begins with PREA (R279, R280). -/
def srEntry (c : Nat) (s : State) : State :=
  let st := chState s c
  let ok := st == 5 || (st == 2 && on s F.INKW_PWR.SR_EN && decide (rget s F.INKW_PWR.SR_MIN_M ≤ mLive s))
  if ok && (ddr s c).sr == 0 then s |> setDdr c (fun d => { d with sr := 1 }) |> inc (F.INKW_RESID.SR_ENTRIES c) else s

/-- Entry is complete; a held request makes exit begin at once. -/
def srEntryDone (c : Nat) (s : State) : State := if (ddr s c).sr = 1 then setDdr c (fun d => { d with sr := 2 }) s else s

/-- Self-refresh ends; `delay` is what it added to the held request, in DCLK cycles. -/
def srExit (c delay : Nat) (s : State) : State :=
  let d := ddr s c
  if d.sr ≠ 2 then s
  else s |> setDdr c (fun d => { d with sr := 0, held := false }) |> whenB (d.held && decide (rget s F.INKW_SRWAIT.MAX_DCLK < delay)) (rset F.INKW_SRWAIT.MAX_DCLK (min delay 65535))

/-- A request reaches a channel: it wakes a powered-down rank, and is held while the channel is in or entering self-refresh. -/
def ddrTouch (c : Nat) (s : State) : State :=
  let d := ddr s c
  s |> setDdr c (fun d => { d with pd := [], held := d.held || d.sr != 0 }) |> whenB (d.sr != 0) (inc F.INKW_SRWAIT.HELD)

def throttledMask (s : State) : Nat := bitsOf (s.ink.throttles.map (fun x => x.2.2))

/-- ROW_HAMMER: a row's activations reach RH_THR (R281). -/
def rowHammer (c addr req : Nat) (s : State) : State :=
  if !chAccepts (chState s c) then s else
  let a := ddrAddr s addr
  let s := s |> inc F.INKW_RH_STAT.EVENTS |> logRow c 3 req a.rank a.bg a.ba a.row
  if req = 0 then s
  else
    let t := (c, 16 * a.rank + 4 * a.bg + a.ba, req)
    let s := setInk (fun i => { i with throttles := if i.throttles.contains t then i.throttles else i.throttles ++ [t] }) s
    s |> rset F.INKW_RH_STAT.THROTTLED (throttledMask s) |> inc (F.INKW_THROTTLE.EVENTS c) |> raise pINKW 7

def refreshWindowEnd (c : Nat) (s : State) : State :=
  let s := setInk (fun i => { i with throttles := i.throttles.filter (fun x => x.1 != c) }) s
  rset F.INKW_RH_STAT.THROTTLED (throttledMask s) s

/-! ### Boot and the strokes' closure (R274, R276, R376) -/

/-- The usable capacity: the fitted memory less what is mapped out. -/
def showCapacity (s : State) : State :=
  let mapped := rget s (F.INKW_PPR.MAPOUT 0) + rget s (F.INKW_PPR.MAPOUT 1)
  s |> rset F.INKW_STATE.CAPACITY_MB (fittedMb s - 2 * mapped) |> forAll (List.range 8) showRing

/-- A channel whose queue cannot take the stroke leaves write service and enters CATCHUP at once, while the other one writes (R274). -/
def queueStall (full : List Nat) (s : State) : State :=
  forAll ((List.range 2).filter (fun c => full.contains c && chAccepts (chState s c) && chAccepts (chState s (otherCh c)) && !full.contains (otherCh c)))
    (fun c s => s |> setDdr c (fun d => { d with left := (List.range 8).map (fun k => (ringOf s k).wptr) }) |> toCatchup c) s

/-- Whether some channel takes a stroke's words. -/
def inkAccepts (s : State) (full : List Nat) : Bool := (List.range 2).any (fun c => chAccepts (chState s c) && !full.contains c)

/-- A stroke's words are lost (R276). -/
def loseStroke (n : Nat) (s : State) : State :=
  let begun := s.ink.loss.isSome
  s |> setInk (fun i => { i with loss := some (match i.loss with | none => (n, 1) | some (f, k) => (f, k + 1)) }) |> inc F.INKW_LOSS.LOST_STROKES
    |> whenB (!begun) (fun s => s |> inc F.INKW_LOSS.LOSS_EVENTS |> rset F.INKW_LOSS_LAST.STROKE n |> raise pINKW 4)

/-- A channel accepts again: the GAP words of the loss go into every ring (R276). -/
def endLoss (s : State) : State :=
  match s.ink.loss with
  | none => s
  | some g => forAll ((List.range 8).filter (ringOn s)) (fun k s =>
      let x := ringOf s k
      setRing k { x with gaps := x.gaps ++ [g], wptr := x.wptr + 8 * ceilDiv g.2 65535 } s) (setInk (fun i => { i with loss := none }) s)

/-- The closure of a stroke hands its words to the rings, or they wait for the closure of the next, or are lost (R274, R276). -/
def inkClose (r : Rec) (full : List Nat) (s : State) : State :=
  let s := queueStall full s
  if inkAccepts s full then
    let s := endLoss s
    let s := match s.ink.waiting with | none => s | some w => s |> inkWrite w |> setInk (fun i => { i with waiting := none })
    inkWrite r s
  else
    let s := match s.ink.waiting with | none => s | some w => loseStroke w.stroke s
    if s.ink.loss.isSome then s |> setInk (fun i => { i with waiting := none }) |> loseStroke r.stroke
    else setInk (fun i => { i with waiting := some r }) s

/-! ### The commit of the INKW page (R271) -/

/-- The write load of R271 in bytes × M per second against 0.75 × MT/s × 8 bytes: whether it is exceeded. -/
def inkOverload (s : State) (bps rd cu m : Nat) : Bool :=
  decide (6 * ddrMt s * 1000000 * m < bps * 1015 * 1024 + (rd + cu) * 1000000 * m)

/-- Whether the shadows of ring `k` differ from its live configuration. -/
def ringChanges (s : State) (k : Nat) : Bool :=
  let d (f : Fld) : Bool := rget s f != sget s f
  d (F.INKW_RCFG.EN k) || d (F.INKW_RCFG.TAPS k) || d (F.INKW_RCFG.SHARE k)
    || (List.range 5).any (fun w => rselWord false s (8 * k + w) != rselWord true s (8 * k + w))

/-- Why the INKW page's shadows are withheld: 0 not, 1 share, 2 pins, 3 load; and the ring. -/
def inkWithhold (s : State) (m : Nat) : Nat × Nat :=
  let shares := (List.range 8).foldl (fun a k => a + (if sget s (F.INKW_RCFG.EN k) = 1 then shareOf (sget s (F.INKW_RCFG.SHARE k)) else 0)) 0
  if 256 < shares then (1, 0) else
  match (List.range 8).find? (fun k => ringChanges s k && ringOn s k && ((ringOf s k).segs.any (segPinned (pinSpans s k)))) with
  | some k => (2, k)
  | none =>
    let bps := (List.range 8).foldl (fun a k => a + bpsOf true s k) 0
    if inkOverload s bps (sget s F.INKW_RD.RD_MBPS) (sget s F.INKW_MIRROR.CATCHUP_MBPS) m then (3, 0) else (0, 0)

/-- A withheld commit or change of M on record. -/
def inkWithheld (cause ring : Nat) (bySys : Bool) (n : Nat) (s : State) : State :=
  s |> rset F.INKW_RCHK.CAUSE cause |> rset F.INKW_RCHK.RING ring |> rset F.INKW_RCHK.BY_SYS bySys.toNat |> rset F.INKW_RCHK.STROKE_LO n
    |> inc F.INKW_COUNT.WITHHELD |> raise pINKW 9

/-- BPS of every ring follows the live configuration; CAP_BPS is their sum over RINGS. -/
def showBps (s : State) : State :=
  let s := forAll (List.range 8) (fun k s => rset (F.INKW_RCFG.BPS k) (bpsOf false s k) s) s
  rset F.CAP_BPS.BPS ((List.range 8).foldl (fun a k => a + (if bitSet (rget s F.CAP_CTRL.RINGS) k then rget s (F.INKW_RCFG.BPS k) else 0)) 0) s

/-- The INKW page's part of a commit on stroke `n`: a changed ring restarts empty (R271). -/
def inkCommit (n : Nat) (before : State) (s : State) : State :=
  let changed := (List.range 8).filter (ringChanges before)
  setInk (fun i => { i with rsel := i.rselSh }) s |> forAll changed (fun k => setRing k { start := n }) |> pruneLog |> forAll (List.range 8) showRing

end Sys2Proof.Machine
end

