-- ==== Sys2Proof/Machine/Capture.lean ====
section
/-!
DEFINITION. Captures: slots, budget, filling and release (R204 to R208).
-/

namespace Sys2Proof.Machine

def capSlot (s : State) (n : Nat) : CapSlot := mget (fun _ => {}) s.caps n
def setCapSlot (n : Nat) (x : CapSlot) (s : State) : State := { s with caps := mput (fun _ => {}) n x s.caps }

/-- Slot `n` takes a state, 0 FREE, 1 FILLING, 2 CLOSED (R212). -/
def setCapState (n v : Nat) (s : State) : State :=
  s |> rset (F.CAP_REC_A.STATE n) v |> (if v = 0 then setBitOf else clrBitOf) F.CAP_SLOTS.FREE n
    |> (if v = 1 then setBitOf else clrBitOf) F.CAP_SLOTS.FILLING n |> (if v = 2 then setBitOf else clrBitOf) F.CAP_SLOTS.CLOSED n

/-- The spans of the slots in use. -/
def capSpans (s : State) : List (Nat × Nat) := ((List.range 16).filter (fun n => capState s n != 0)).map (capSpan s)

/-- Insertion of a span by its first stroke. -/
def insertSpan (p : Nat × Nat) : List (Nat × Nat) → List (Nat × Nat)
  | [] => [p]
  | q :: rest => if p.1 ≤ q.1 then p :: q :: rest else q :: insertSpan p rest

/-- How many strokes from `lo` on the sorted spans cover, each once. -/
def coveredFrom : Nat → List (Nat × Nat) → Nat
  | _, [] => 0
  | lo, (a, b) :: rest => let f := max lo a; (b + 1 - f) + coveredFrom (max lo (b + 1)) rest

/-- How many of the strokes `a` to `b` the spans cover. -/
def coveredIn (spans : List (Nat × Nat)) (a b : Nat) : Nat :=
  coveredFrom 0 (((spans.filter (fun p => decide (p.1 ≤ b ∧ a ≤ p.2))).map (fun p => (max p.1 a, min p.2 b))).foldr insertSpan [])

/-- Strokes pinned, each counted once (R205). -/
def pinnedStrokes (s : State) : Nat := coveredFrom 0 ((capSpans s).foldr insertSpan [])

/-- The budget in bytes: floor(PCT × CAPACITY_MB / 100) MB (R207). -/
def capBudgetMb (s : State) : Nat := rget s F.CAP_BUDGET.PCT * rget s F.INKW_STATE.CAPACITY_MB / 100

/-- Strokes that the budget still allows. -/
def capRoom (s : State) : Nat :=
  let b := rget s F.CAP_BPS.BPS
  if b = 0 then 2 ^ 40 else capBudgetMb s * 1048576 / b - pinnedStrokes s

/-- CAP_USE, BUDGET_MB and the rings' pins after a change; a rise of the use above WARN_PCT raises CAP SRC[4] (R209). -/
def showCaps (s : State) : State :=
  let was := rget s F.CAP_USE.USED
  let now := pinnedStrokes s * rget s F.CAP_BPS.BPS
  let lim := rget s F.CAP_CTRL.WARN_PCT * capBudgetMb s * 1048576
  s |> rset F.CAP_USE.USED now |> rset F.CAP_BUDGET.BUDGET_MB (capBudgetMb s)
    |> whenB (decide (100 * was ≤ lim) && decide (lim < 100 * now)) (raise pCAP 4)

/-- MBYTES of a record. -/
def showCapMb (n : Nat) (s : State) : State :=
  let p := capSpan s n
  rset (F.CAP_REC_A.MBYTES n) (min 65535 (ceilDiv ((p.2 + 1 - p.1) * rget s F.CAP_BPS.BPS) 1048576)) s

/-- The largest number up to `2 ^ fuel + lo` that a falling predicate still meets. -/
def searchMax (p : Nat → Bool) : Nat → Nat → Nat
  | 0, lo => lo
  | fuel + 1, lo => searchMax p fuel (if p (lo + 2 ^ fuel) then lo + 2 ^ fuel else lo)

/-- The oldest stroke held in every ring of RINGS that is enabled (R206). -/
def capOldest (s : State) : Nat :=
  (List.range 8).foldl (fun a k => if bitSet (rget s F.CAP_CTRL.RINGS) k && ringOn s k then max a (rget s (F.INKW_ROLD.STROKE k)) else a) 0

/-- A capture's filling ends (R206). -/
def capClose (n : Nat) (s : State) : State :=
  s |> setCapState n 2 |> showCapMb n |> raise pCAP 1
    |> whenB (on s (F.CAP_REC_A.TRUNC n) || on s (F.CAP_REC_A.SHORT n)) (raise pCAP 2)

/-- A capture of event stroke `ev` under profile `win` (R204 to R206). -/
def capStart (ev win unit origin : Nat) (remote : Bool) (s : State) : State :=
  match (List.range 16).find? (fun n => capState s n == 0) with
  | none => s |> inc F.CAP_COUNT.NOSLOT |> raise pCAP 3
  | some n =>
    let spans := capSpans s
    let room := capRoom s
    let cost (a : Nat) : Nat := (ev + 1 - a) - coveredIn spans a ev
    if rget s F.CAP_BUDGET.PCT = 0 ∨ room < cost ev then s |> inc F.CAP_COUNT.OVERBUDGET |> raise pCAP 3
    else
      let pre := rget s (F.CAP_WIN.PRE win)
      let avail := min pre (ev - min ev (capOldest s))
      let fits (p : Nat) : Bool := decide (p ≤ avail) && decide (cost (ev - p) ≤ room)
      let got := searchMax fits 32 0
      s |> setCapState n 1
        |> rset (F.CAP_REC_A.TRUNC n) (decide (got < avail)).toNat |> rset (F.CAP_REC_A.SHORT n) (decide (avail < pre ∧ got = avail)).toNat
        |> rset (F.CAP_REC_A.REMOTE n) remote.toNat |> rset (F.CAP_REC_A.UNIT n) unit |> rset (F.CAP_REC_A.ORIGIN n) origin
        |> rset (F.CAP_REC_STROKE.STROKE n) ev |> rset (F.CAP_REC_GOT.PRE_GOT n) got |> rset (F.CAP_REC_GOT.POST_GOT n) 0
        |> setCapSlot n { post := rget s (F.CAP_WIN.POST win) } |> showCapMb n
        |> rset F.CAP_LAST.SLOT n |> rset F.CAP_LAST.STROKE_LO ev |> whenB remote (inc F.TRG_COUNT.REMOTE_PINNED)
        |> showCaps |> raise pCAP 0

/-- The strike of stroke `n` lets a filling capture pin its next stroke, or closes it (R206, R207). -/
def capStrike (n k : Nat) (s : State) : State :=
  if capState s k ≠ 1 then s else
  let p := capSpan s k
  let got := rget s (F.CAP_REC_GOT.POST_GOT k)
  if on s (F.CAP_REC_A.TRUNC k) ∨ (capSlot s k).post ≤ got then capClose k s
  else if n ≤ p.2 then s
  else if coveredIn (capSpans s) (p.2 + 1) (p.2 + 1) = 0 ∧ capRoom s = 0 then s |> rset (F.CAP_REC_A.TRUNC k) 1 |> capClose k
  else s |> rset (F.CAP_REC_GOT.POST_GOT k) (got + 1) |> showCapMb k

def strikeCaptures (n : Nat) (s : State) : State :=
  if (List.range 16).any (fun k => capState s k == 1) then s |> forAll (List.range 16) (capStrike n) |> showCaps else s

/-- CAP_RELEASE with GO (R208). -/
def capRelease (n : Nat) (s : State) : State :=
  let st := capState s n
  if st = 0 then inc F.CAP_COUNT.BAD_RELEASE s
  else s |> setCapState n 0 |> whenB (st == 1) (inc F.CAP_COUNT.ABANDONED) |> showCaps |> forAll (List.range 8) showRing

end Sys2Proof.Machine
end

