-- ==== Sys2Proof/Machine/Trigger.lean ====
section
/-!
DEFINITION. Trigger units: comparison, priming, firing, and what a firing makes (R192 to R203).
-/

namespace Sys2Proof.Machine

def setTrg (f : Trg → Trg) (s : State) : State := { s with trg := f s.trg }

/-- Whether a unit's CHAN and TAP may be watched (R192). -/
def trgValid (chan tap : Nat) : Bool :=
  if chan < 512 then decide (tap ≤ 6) || tap == 15 else decide (chan < 592) && tap == 0

/-- TRG_PRIMED follows the primings. -/
def showPrimed (s : State) : State := rset F.TRG_PRIMED.PRIMED (s.trg.rise ||| s.trg.fall) s

def setPrimed (u : Nat) (r f : Bool) (s : State) : State :=
  let w (b : Bool) (m : Nat) : Nat := if b then setBit m u else clrBit m u
  s |> setTrg (fun t => { t with rise := w r t.rise, fall := w f t.fall }) |> showPrimed

/-- Unit `u` is armed or disarmed (R194). -/
def setArmed (u : Nat) (v : Bool) (s : State) : State :=
  s |> rset (F.TRG_CFG.ARMED u) v.toNat |> (if v then setBitOf else clrBitOf) F.TRG_ARMED.ARMED u

/-- Arming starts the unit unprimed. -/
def armUnit (u : Nat) (s : State) : State := s |> setArmed u true |> setPrimed u false false

/-- The payload of a TRIG frame. -/
def trigFrame (f : TrigFrame) : IlkFrame :=
  ⟨7, [f.stroke40 % 2 ^ 32, put 0 8 (f.stroke40 / 2 ^ 32) + put 8 19 f.cycle + put 27 2 f.edge + put 29 3 f.hops, put 0 10 f.origin + put 10 6 f.tu]⟩

/-- A firing of unit `u` on stroke `sf`, direction 0 rising or 1 falling, its compare ended at DCLK cycle `cycle` (R196, R197, R200,
R201, R204). -/
def fireUnit (sf cycle u dir chan tap : Nat) (s : State) : State :=
  let w := rubricWord u false dir chan tap sf (firingFull (strikeTime s) cycle)
  s |> setBitOf F.TRG_FIRED.FIRED u |> inc (F.TRG_FIRE.FIRE (u / 4) (u % 4)) |> rset (F.TRG_LAST.STROKE (u / 4) (u % 4)) sf
    |> setTrg (fun t => { t with here := t.here ++ [w] }) |> raise pTRG 0 |> toutFire u
    |> whenB (on s (F.TRG_CFG.BCAST u) && on s F.ILK_CFG.TRIG_TX) (fun s =>
        s |> ilkSendAll (joinedLanes s) true (trigFrame { stroke40 := sf % 2 ^ 40, cycle := cycle, edge := dir + 1, hops := 0, origin := hubId s, tu := u })
          |> inc F.ILK_TRIG.SENT)
    |> whenB (on s (F.TRG_CFG.PIN u)) (capStart sf (rget s (F.TRG_CFG.WIN u)) u (hubId s) false)

/-- Unit `u` sees a value of its source (R192 to R194). -/
def compareUnit (sf cycle : Nat) (w : TagWord) (u : Nat) (s : State) : State :=
  let mode := rget s (F.TRG_CFG.MODE u)
  let held := mget zeroAt s.trg.hold u
  let s := if held = 0 then s else setTrg (fun t => { t with hold := mput zeroAt u (held - 1) t.hold }) s
  if w.s.fl &&& rget s (F.TRG_CFG.FLAGMASK u) ≠ 0 then setPrimed u false false s
  else
    let level := rgetI s (F.TRG_LEVEL.LEVEL u)
    let hyst : Int := rget s (F.TRG_LEVEL.HYST u)
    let edge := rget s (F.TRG_CFG.EDGE u)
    let r := bitSet s.trg.rise u
    let f := bitSet s.trg.fall u
    let up := bitSet edge 0 && r && decide (level ≤ w.s.v)
    let down := bitSet edge 1 && f && decide (w.s.v ≤ level)
    let r' := bitSet edge 0 && ((r && !up) || decide (w.s.v < level - hyst))
    let f' := bitSet edge 1 && ((f && !down) || decide (level + hyst < w.s.v))
    let s := setPrimed u r' f' s
    if !up && !down then s
    else if on s (F.TRG_CFG.ARMED u) && held == 0 then
      s |> whenB (mode == 1) (setArmed u false)
        |> whenB (mode == 2) (fun s => setTrg (fun t => { t with hold := mput zeroAt u (rget s (F.TRG_CFG.HOLDOFF u)) t.hold }) s)
        |> fireUnit sf cycle u (if up then 0 else 1) w.chan w.tap
    else inc (F.TRG_SUPP.SUPP (u / 4) (u % 4)) s

/-- A value of a tap goes to the units that watch it; its compare ends at `cycle`. -/
def trgValue (sf cycle : Nat) (w : TagWord) (s : State) : State :=
  if !on s F.TRG_CTRL.EN then s else
  forAll ((List.range 64).filter (fun u =>
    let m := rget s (F.TRG_CFG.MODE u)
    (m == 1 || m == 2) && rget s (F.TRG_CFG.CHAN u) == w.chan && rget s (F.TRG_CFG.TAP u) == w.tap && trgValid w.chan w.tap))
    (compareUnit sf cycle w) s

/-- The words that a meaning has added since `before` go to the trigger units. -/
def trgNewWords (sf cycle : Nat) (before : State) (s : State) : State :=
  forAll (s.filt.words.drop before.filt.words.length) (trgValue sf cycle) s

/-- The TRG page's part of a commit (R192, R194, R195). -/
def trgCommit (before : State) (u : Nat) (s : State) : State :=
  let d (f : Fld) : Bool := rget before f != rget s f
  let m := rget s (F.TRG_CFG.MODE u)
  let m' := rget before (F.TRG_CFG.MODE u)
  let off (m : Nat) : Bool := m == 0 || m == 3
  let bad := !trgValid (rget s (F.TRG_CFG.CHAN u)) (rget s (F.TRG_CFG.TAP u))
  s |> whenB (d (F.TRG_CFG.CHAN u) || d (F.TRG_CFG.TAP u) || d (F.TRG_CFG.EDGE u) || d (F.TRG_LEVEL.LEVEL u) || d (F.TRG_LEVEL.HYST u)
          || d (F.TRG_CFG.FLAGMASK u)) (setPrimed u false false)
    |> whenB (off m && !off m') (setArmed u false)
    |> whenB (off m' && !off m) (armUnit u)
    |> whenB (bad && !on s (F.TRG_CFG.BADCFG u)) (raise pTRG 3) |> rset (F.TRG_CFG.BADCFG u) bad.toNat

/-! ### Remote rubrics (R184, R201) -/

/-- The full stroke of a TRIG frame, extended from this hub's counter. -/
def trigStroke (s : State) (st : Nat) : Nat :=
  let n := strokeNow s
  ((n : Int) + asInt 40 ((st + 2 ^ 40 - n % 2 ^ 40) % 2 ^ 40)).toNat

/-- t of a stroke near the present one, at the present rate, in 2⁻¹⁶ ns. -/
def strikeOf (s : State) (n : Nat) : Nat :=
  ((s.tsu.strike : Int) + ((n : Int) - strokeNow s) * (strokeLen s * tsuInc s : Nat)).toNat / 2 ^ 32

/-- A TRIG frame: forwarded with one more hop on every other joined lane, and handed to the trigger units as a remote rubric. -/
def trigUse (k : Nat) (f : TrigFrame) (s : State) : State :=
  let s := s |> inc F.ILK_TRIG.RECEIVED
    |> ilkSendAll ((joinedLanes s).filter (· != k)) true (trigFrame { f with hops := (f.hops + 1) % 8 })
  if !on s F.ILK_CFG.TRIG_RX then s
  else if !on s F.TRG_REMOTE.ACCEPT then s |> inc F.TRG_COUNT.REMOTE_DROPPED |> raise pTRG 2
  else
    let n := trigStroke s f.stroke40
    let w := rubricWord f.tu true (if f.edge = 2 then 1 else 0) f.origin (f.hops % 8) n (firingFull (strikeOf s n) f.cycle)
    let sh (i : Nat) (g : Nat → Fld) (s : State) : State := rset (g (i + 1)) (rget s (g i)) s
    s |> setTrg (fun t => { t with remote := t.remote ++ [w] }) |> inc F.TRG_COUNT.REMOTE_IN |> raise pTRG 2
      |> forAll [6, 5, 4, 3, 2, 1, 0] (fun i s => s |> sh i F.TRG_RLOG.ORIGIN |> sh i F.TRG_RLOG.TU |> sh i F.TRG_RLOG.HOPS |> sh i F.TRG_RLOG.STROKE_LO)
      |> rset (F.TRG_RLOG.ORIGIN 0) f.origin |> rset (F.TRG_RLOG.TU 0) f.tu |> rset (F.TRG_RLOG.HOPS 0) f.hops |> rset (F.TRG_RLOG.STROKE_LO 0) n
      |> whenB (on s F.TRG_REMOTE.PIN) (capStart n (rget s F.TRG_REMOTE.WIN) f.tu f.origin true)

/-! ### Strikes and closures (R198 to R200) -/

/-- The state flags of an anchor made on a stroke: HOLDOVER, UNSET, FREE (R150). -/
def tsuFlags (s : State) : Nat :=
  let st := tsuState s
  (st == 3).toNat + (st == 0).toNat * 2 + (st == 4).toNat * 4

/-- The strike puts the words of the stroke before aside for its closure. -/
def closeAside (s : State) : State :=
  let r : Rec := { stroke := strokeNow s, strike := strikeTime s, steps := rget s F.TSU_STATUS.STEPS, tfl := s.trg.tfl, rub := s.trg.here,
                   samples := s.filt.words }
  { s with trg := { s.trg with here := [], closing := s.trg.closing ++ [r] }, filt := { s.filt with words := [] } }

/-- The rubric words of a closing stroke: local ones, the coincidence word, remote ones (R199). -/
def closeRubrics (r : Rec) (s : State) : Rec × State :=
  let loc := sortRubrics r.rub
  let co := coincidence loc
  let all := loc ++ co ++ s.trg.remote
  ({ r with rub := all }, s |> setTrg (fun t => { t with remote := [] }) |> whenB (!co.isEmpty) (fun s => s |> inc F.TRG_COUNT.COINC |> raise pTRG 1))

/-- RUBQ takes the rubric words of a stroke, 255 in an item (R200, R255). -/
def rubqItems (n : Nat) (ws : List Nat) (s : State) : State :=
  forAll (List.range (ceilDiv ws.length 255)) (fun i s =>
    let body := (ws.drop (255 * i)).take 255
    pushItem qRUB ((put 56 8 body.length + put 48 8 (if i = 0 then 1 else 2) + put 0 48 n) :: body) s) s

end Sys2Proof.Machine
end

