-- ==== Sys2Proof/Machine/Stream.lean ====
section
/-!
DEFINITION. Ductus streams: the session entry, the placing of items into tagged, packed and rubric frames, the frames' bytes, and the
delivery of a copy (R213 to R224, R230, R231, R233, R241, R242).
-/

namespace Sys2Proof.Machine

/-- A session entry, taken apart as R230 lays it out. -/
structure Cfg where
  n : Nat
  w0 : Nat
  /-- Bit i: CHAN i. -/
  sel : Nat
  dport1 : Nat
  dport2 : Nat
  dest1 : Nat
  dest2 : Nat
  deriving DecidableEq, Repr

def sessWord (t : Table Wide) (n w : Nat) : Nat := (mget wideZero t (8 * n + w)).toNat

def cfgOf (t : Table Wide) (n : Nat) : Cfg :=
  let w := sessWord t n
  { n := n, w0 := w 0, sel := w 1 + w 2 * 2 ^ 128 + w 3 * 2 ^ 256 + w 4 * 2 ^ 384 + slice 0 80 (w 5) * 2 ^ 512,
    dport1 := slice 80 16 (w 5), dport2 := slice 96 16 (w 5), dest1 := w 6, dest2 := w 7 }

def cEN (c : Cfg) : Bool := bitSet c.w0 0
def cFormat (c : Cfg) : Nat := slice 1 2 c.w0
def cCmode (c : Cfg) : Bool := bitSet c.w0 3
def cRub (c : Cfg) : Bool := bitSet c.w0 4
def cAuth (c : Cfg) : Bool := bitSet c.w0 5
def cOpenNet (c : Cfg) : Bool := bitSet c.w0 6
def cDma (c : Cfg) : Bool := bitSet c.w0 7
def cPorts (c : Cfg) : Nat := slice 8 4 c.w0
def cPorts2 (c : Cfg) : Nat := slice 12 4 c.w0
def cDest2 (c : Cfg) : Bool := bitSet c.w0 16
def cIpv6 (c : Cfg) : Bool := bitSet c.w0 17
def cVlan (c : Cfg) : Bool := bitSet c.w0 18
def cShift (c : Cfg) : Nat := slice 19 5 c.w0
def cRing (c : Cfg) : Nat := slice 24 8 c.w0
def cMaxlen (c : Cfg) : Nat := slice 32 16 c.w0
def cMaxwait (c : Cfg) : Nat := slice 48 16 c.w0
def cTaps (c : Cfg) : Nat := slice 64 8 c.w0
def cKey (c : Cfg) : Nat := slice 112 5 c.w0
def cFine (c : Cfg) : Bool := cFormat c < 2
def cCoarse (c : Cfg) : Bool := cFormat c == 2

/-- Session entry word 0 as it is stored: CSHIFT, MAXLEN and MAXWAIT at the nearer end of their spans, CFG_GEN read-only (R225, R230). -/
def sessStore (w v : Nat) : Nat :=
  if w ≠ 0 then v else
  let cs := clampSpan (some (10, 16)) (slice 19 5 v)
  let ml := clampSpan (some (64, 9170)) (slice 32 16 v)
  let mw := clampSpan (some (1, 65535)) (slice 48 16 v)
  slice 0 19 v + put 19 5 cs + put 24 8 (slice 24 8 v) + put 32 16 ml + put 48 16 mw + slice 64 56 v * 2 ^ 64

/-! ### Sessions and copies -/

def setDuc (f : Duc → Duc) (s : State) : State := { s with duc := f s.duc }
def sessSt (s : State) (n : Nat) : Sess := mget (fun _ => {}) s.duc.st n
def setSess (n : Nat) (f : Sess → Sess) (s : State) : State := setDuc (fun d => { d with st := mput (fun _ => {}) n (f (sessSt s n)) d.st }) s
/-- A copy's key: session and copy. -/
abbrev copyKey (n k : Nat) : Nat := 2 * n + k
def copyOf (s : State) (n k : Nat) : Copy := mget (fun _ => {}) s.duc.copies (copyKey n k)
def setCopy (n k : Nat) (f : Copy → Copy) (s : State) : State :=
  setDuc (fun d => { d with copies := mput (fun _ => {}) (copyKey n k) (f (copyOf s n k)) d.copies }) s

/-- The table that governs items of a stroke (R233). -/
def sessTab (s : State) (stroke : Nat) : Table Wide :=
  match s.duc.old with
  | some (t, c) => if stroke < c then t else s.duc.sess
  | none => s.duc.sess

/-- A session's configuration in force, and for a stroke. -/
def cfgNow (s : State) (n : Nat) : Cfg := cfgOf s.duc.sess n
def cfgAt (s : State) (n stroke : Nat) : Cfg := cfgOf (sessTab s stroke) n

/-- The sessions enabled in a table. -/
def enabledIn (t : Table Wide) : List Nat := (t.filter (fun e => e.1 % 8 == 0 && bitSet e.2.toNat 0)).map (fun e => e.1 / 8)

/-- Where a copy goes. -/
inductive Dest | nowhere | ring (k : Nat) | net (ports : Nat) (ipv6 : Bool) (addr udp : Nat)
  deriving DecidableEq, Repr

/-- The destination of a session's copy (R230, R238, R242). -/
def destOf (s : State) (c : Cfg) (k : Nat) : Dest :=
  if k = 1 then (if cDest2 c then .net (cPorts2 c) (cIpv6 c) c.dest2 c.dport2 else .nowhere)
  else if cDma c then .ring (cRing c)
  else match (sessSt s c.n).bound with
    | none => .net (cPorts c) (cIpv6 c) c.dest1 c.dport1
    | some none => .nowhere
    | some (some p) => .net (2 ^ p.eth) p.ipv6 p.addr p.udp

/-! ### Ports and next hops (R231) -/

/-- The lowest port of a mask whose link is up. -/
def lowPort (s : State) (mask : Nat) : Option Nat := (List.range 4).find? (fun p => bitSet mask p && portUp s p)

/-- The next hop that must be resolved before a frame to an address leaves, if any. -/
def nextHop (s : State) (ipv6 : Bool) (addr : Nat) : Option Nat :=
  if ipv6 then
    if slice 120 8 addr = 0xFF then none else
    let own := rget s F.ETH_IP6_HI.ADDR * 2 ^ 64 + rget s F.ETH_IP6_LO.ADDR
    let sh := 128 - min 128 (rget s F.ETH_IP6_CFG.PREFIX)
    if addr >>> sh = own >>> sh then some addr else none
  else
    if slice 28 4 addr = 0xE then none else
    let sh := 32 - min 32 (rget s F.ETH_IP4.PREFIX)
    if addr >>> sh = rget s F.ETH_IP4.ADDR >>> sh then some addr else some (rget s F.ETH_GW4.GW)

def resolved (s : State) (ipv6 : Bool) (addr : Nat) : Bool :=
  match nextHop s ipv6 addr with
  | none => true
  | some h => s.eth.hops.contains (ipv6, h)

/-- A next hop that is asked for on a port. -/
def askHop (port : Nat) (ipv6 : Bool) (addr : Nat) (s : State) : State :=
  match nextHop s ipv6 addr with
  | none => s
  | some h => if s.eth.hops.contains (ipv6, h) || s.eth.asked.contains (ipv6, h) then s
    else { s with eth := { s.eth with asked := s.eth.asked ++ [(ipv6, h)] } } |> emit (.arp port 0 ipv6 h)

/-! ### DMA rings, as a stream sees them (R300 to R306) -/

def dmaRing (s : State) (k : Nat) : DmaRing := mget (fun _ => {}) s.dma.rings k
def setDma (f : Dma → Dma) (s : State) : State := { s with dma := f s.dma }
def setRingD (k : Nat) (f : DmaRing → DmaRing) (s : State) : State :=
  setDma (fun d => { d with rings := mput (fun _ => {}) k (f (dmaRing s k)) d.rings }) s
def clField (c : Nat) : Fld := if c = 0 then F.DMA_STATUS.CL0 else if c = 1 then F.DMA_STATUS.CL1 else F.DMA_STATUS.CL2
/-- Whether a class is parked, on a fault or on link. -/
def clsParked (s : State) (c : Nat) : Bool := decide (2 ≤ rget s (clField c))
/-- Whether a ring is in service. -/
def ringServes (s : State) (k : Nat) : Bool := decide (k < 32) && on s (F.DMA_TAIL.ENABLED k) && !(dmaRing s k).leaving && on s F.DMA_CTRL.EN
/-- Whether a frame of a fine class can be made for a ring (R305, R306, R312, R315). -/
def ringTakesFine (s : State) (k c : Nat) : Bool := ringServes s k && !on s (F.DMA_TAIL.STARVED k) && !clsParked s c

/-- Whether a fine copy can leave for a destination; `held` are the ports whose fine queue is full (R15, R231, R241). -/
def canLeave (s : State) (held : List Nat) (d : Dest) : Bool :=
  match d with
  | .nowhere => true
  | .ring k => ringTakesFine s k 1
  | .net ports v6 addr _ => match lowPort s ports with
    | none => false
    | some p => resolved s v6 addr && !held.contains p

/-! ### Frames as bytes (R214 to R217) -/

/-- `n` bytes of `v`, most significant first. -/
def beBytes : Nat → Nat → List Byte
  | 0, _ => []
  | n + 1, v => BitVec.ofNat 8 (v / 2 ^ (8 * n)) :: beBytes n v

def wordBytes (ws : List Nat) : List Byte := ws.flatMap (beBytes 8)

/-- The trailer of a frame with counter `ctr` (R217). -/
def trailer (key : Wide) (sess typ copy dir rid ctr : Nat) (body : List Byte) : List Byte :=
  let signed := body ++ beBytes 8 ctr
  let iv := put 88 8 sess + put 84 4 typ + put 83 1 copy + put 82 1 dir + put 64 16 rid + put 0 64 ctr
  beBytes 8 ctr ++ beBytes 16 (Config.gmac key iv signed).toNat

/-- The key of a session. -/
def sessKey (s : State) (c : Cfg) : Wide := mget wideZero s.duc.keys (cKey c)

/-- A frame's bytes with the trailer where the session asks for one; its counter advances. -/
def sealFrame (c : Cfg) (k typ rid : Nat) (body : List Byte) (s : State) : List Byte × State :=
  if !cAuth c then (body, s) else
  let n := mget zeroAt (copyOf s c.n k).ctr typ
  (body ++ trailer (sessKey s c) c.n typ k 1 rid n body, setCopy c.n k (fun x => { x with ctr := mput zeroAt typ (n + 1) x.ctr }) s)

/-- The fine header (R216). -/
def fineHeader (c : Cfg) (k rid : Nat) (late : Bool) (f : OutFrame) : List Byte :=
  beBytes 1 (16 + f.typ) ++ beBytes 1 c.n
    ++ beBytes 2 (put 15 1 (decide (rid ≠ 0)).toNat + put 14 1 k + put 13 1 (cAuth c).toNat + put 12 1 late.toNat)
    ++ beBytes 4 f.seq ++ beBytes 4 f.first ++ beBytes 2 f.span ++ beBytes 2 rid

/-- A datagram leaves on a port; TXB counts it as a MAC frame (R234, R247). -/
def sendDatagram (c : Cfg) (port : Nat) (v6 : Bool) (addr udp : Nat) (bytes : List Byte) (s : State) : State :=
  s |> emit (.datagram port v6 addr udp bytes) |> inc (F.ETH_TXF.FRAMES port)
    |> incBy (F.ETH_TXB.BYTES port) (bytes.length + 46 + (if v6 then 20 else 0) + (if cVlan c then 4 else 0))

/-- A fine frame of a live copy or of a replay leaves for its destination. -/
def sendFine (c : Cfg) (k rid : Nat) (late : Bool) (d : Dest) (f : OutFrame) (s : State) : State :=
  let b := sealFrame c k f.typ rid (fineHeader c k rid late f ++ wordBytes f.words) s
  let s := setCopy c.n k (fun x => { x with frames := satAdd 32 x.frames 1 }) b.2
  match d with
  | .nowhere => s
  | .ring r => setRingD r (fun x => { x with wait := x.wait ++ [⟨if rid = 0 then 1 else 2, c.n, rid, late, f, b.1⟩] }) s
  | .net ports v6 addr udp => match lowPort s ports with
    | none => s
    | some p => sendDatagram c p v6 addr udp b.1 s

/-! ### Placing items (R221 to R224) -/

/-- The payload bytes that items may take in a frame of a session. -/
def roomOf (c : Cfg) : Nat := cMaxlen c - 16 - (if cAuth c then 24 else 0)

/-- The bytes in use in the open frame. -/
def usedOf (st : Strm) : Nat := 8 * st.words.length + (match st.block with | none => 0 | some b => 8 * (blockWords b).length)

def strmEmpty (st : Strm) : Bool := st.words.isEmpty && st.block.isNone

/-- The TYPE of a session's fine frames (R215). -/
def fineType (c : Cfg) : Nat := if cFormat c = 0 then 3 else if cFormat c = 1 then 4 else 5

/-- An open block goes into the frame. -/
def endBlock (st : Strm) : Strm :=
  match st.block with
  | none => st
  | some b => { st with words := st.words ++ blockWords b, block := none }

/-- The hub closes the open frame and numbers it (R216, R224). -/
def closeStrm (c : Cfg) (st : Strm) : Strm :=
  let st := endBlock st
  if st.words.isEmpty then st else
  let first := if st.has then st.first else st.fw
  { st with words := [], taps := [], has := false, seq := (st.seq + 1) % 2 ^ 32,
            out := st.out ++ [⟨fineType c, first, if st.has then min 65535 (st.last - st.first) else 0, st.seq, st.words⟩] }

/-- Room is made for an item of a stroke: a CONFIG word that is due at or before the stroke closes the open frame and begins the next. -/
def readyFor (c : Cfg) (k : Nat) (st : Strm) : Strm :=
  match st.config with
  | none => if strmEmpty st then { st with fw := k } else st
  | some (g, z) =>
    if z ≤ k then { closeStrm c st with words := [configWord g z], fw := k, config := none }
    else if strmEmpty st then { st with fw := k } else st

/-- The open frame is closed where `n` bytes no longer fit. -/
def fitOr (c : Cfg) (k n : Nat) (st : Strm) : Strm :=
  let st := readyFor c k st
  if roomOf c < usedOf st + n ∧ !strmEmpty st then readyFor c k (closeStrm c st) else st

/-- Words that stay together. -/
def putWords (c : Cfg) (k : Nat) (ws : List Nat) (st : Strm) : Strm :=
  let st := fitOr c k (8 * ws.length) (endBlock st)
  { st with words := st.words ++ ws }

/-- A sample of stroke `k` stands in the open frame. -/
def noteSample (k : Nat) (st : Strm) : Strm :=
  if st.has then { st with last := k } else { st with has := true, first := k, last := k }

/-- GAP words, counted. -/
def putGap (c : Cfg) (k reason tap first count : Nat) (st : Strm) : Strm :=
  let ws := gapWords reason tap first count
  let st := ws.foldl (fun st w => putWords c k [w] st) st
  { st with gapWords := st.gapWords + ws.length, gapStrokes := st.gapStrokes + count }

/-- The anchor due before a stamp of a tap, and the stream that has noted it (R151). -/
def takeAnchor (s : State) (r : Rec) (replay : Bool) (chan tap full : Nat) (st : Strm) : List Nat × Strm :=
  let key := tapKey chan tap
  let a := mget noAnchor st.anch key
  if anchorDue s a full r.steps then
    (makeAnchor r a chan tap full replay, { st with anch := mput noAnchor key (full + 1, r.steps) st.anch })
  else ([], st)

/-- The rubric words of a stroke, with their anchor where one is due (R202, R221). -/
def putRubrics (s : State) (c : Cfg) (r : Rec) (replay : Bool) (rub : List Nat) (st : Strm) : Strm :=
  if rub.isEmpty then st else
  let a := takeAnchor s r replay 1023 14 (r.strike / 65536) st
  let st := if a.1.isEmpty then a.2 else putWords c r.stroke a.1 a.2
  rub.foldl (fun st w => putWords c r.stroke [w] st) st

/-- A tagged sample word behind its anchor and STAMP word (R221). -/
def putTagged (s : State) (c : Cfg) (r : Rec) (replay : Bool) (w : TagWord) (st : Strm) : Strm :=
  let full := stampFull w
  let a := takeAnchor s r replay w.chan w.tap full st
  let mark := full % 2 ^ 32 + 1
  let stamp := stampWord w.tap w.seq full
  let has (st : Strm) : Bool := mget zeroAt st.taps w.tap == mark && a.1.isEmpty
  let item (st : Strm) : List Nat := if has st then [sampleWord w] else [stamp, sampleWord w]
  let st := readyFor c r.stroke a.2
  let st := fitOr c r.stroke (8 * (a.1.length + (item st).length)) st
  let st := if a.1.isEmpty then st else putWords c r.stroke a.1 st
  let st := fitOr c r.stroke (8 * (item st).length) st
  noteSample r.stroke { st with words := st.words ++ item st, taps := mput zeroAt w.tap mark st.taps }

/-- Whether a run of values is the next index of the open block (R222, R223). -/
def extends' (s : State) (b x : Block) : Bool :=
  b.first == x.first && b.tap == x.tap && b.count == x.count && b.stride == x.stride && decide (b.vals.length < 255)
    && (b.seq + b.vals.length) % 256 == x.seq % 256 && blockStamp b b.vals.length (mLive s) == x.full % 2 ^ 32

/-- A run opens a block of its own; where an empty frame cannot hold it, it is cut and goes on with FIRST advanced (R223). -/
def openBlock (c : Cfg) (k : Nat) : Nat → Block → Strm → Strm
  | 0, _, st => st
  | fuel + 1, x, st =>
    let st := fitOr c k (blockBytes x) (endBlock st)
    let fit := 2 * ((roomOf c - usedOf st - 16) / 8)
    if x.count ≤ fit ∨ fit = 0 then noteSample k { st with block := some x }
    else
      let vs := x.vals.flatten
      openBlock c k fuel { x with first := x.first + fit, count := x.count - fit, vals := [vs.drop fit] }
        (noteSample k { st with block := some { x with count := fit, vals := [vs.take fit] } })

/-- A run of values of one tap goes into a packed frame; `chan` is the channel at its first position. -/
def putRun (s : State) (c : Cfg) (r : Rec) (replay : Bool) (chan : Nat) (x : Block) (st : Strm) : Strm :=
  let st := readyFor c r.stroke st
  let a := takeAnchor s r replay chan x.tap x.full st
  let st := if a.1.isEmpty then a.2 else putWords c r.stroke a.1 a.2
  match st.block with
  | some b =>
    let b' := { b with vals := b.vals ++ x.vals }
    if extends' s b x ∧ 8 * st.words.length + blockBytes b' + (8 * (blockWords b).length - blockBytes b) ≤ roomOf c then
      noteSample r.stroke { st with block := some b' }
    else openBlock c r.stroke x.count x st
  | none => openBlock c r.stroke x.count x st

/-- The channels of a fine session in list order. -/
def fineList (c : Cfg) : List Nat := (List.range 592).filter (bitSet c.sel)

/-- The tap bit of a word in TAPS: tap 15 is bit 7. -/
def tapBit (tap : Nat) : Nat := if tap = 15 then 7 else tap

/-- Whether a session selects a word. -/
def takes (c : Cfg) (w : TagWord) : Bool := bitSet c.sel w.chan && bitSet (cTaps c) (tapBit w.tap)

/-- The items of one stroke: its rubrics, then tap by tap its values (R221). -/
def addStroke (s : State) (c : Cfg) (r : Rec) (replay : Bool) (rub : List Nat) (ws : List TagWord) (st : Strm) : Strm :=
  let st := if cRub c then putRubrics s c r replay rub st else st
  if !cFine c then st else
  [0, 1, 2, 3, 4, 5, 6, 15].foldl (fun st j =>
    let tw := ws.filter (fun w => w.tap == j && takes c w)
    if tw.isEmpty then st
    else if cFormat c = 0 then tw.foldl (fun st w => putTagged s c r replay w st) st
    else
      let list := fineList c
      (runsOf s (fun ch => list.idxOf ch) tw).foldl (fun st x => putRun s c r replay (nth 0 list x.first) x st) st) st

/-! ### Delivery -/

/-- The frames closed so far leave, and the GAP words are counted (R245). -/
def deliver (c : Cfg) (k rid : Nat) (late : Bool) (d : Dest) (st : Strm) (s : State) : Strm × State :=
  let s := st.out.foldl (fun s f => sendFine c k rid late d f s) s
  let s := s |> incBy F.DUC_GAP.GAP_WORDS st.gapWords |> incBy F.DUC_GAP.GAP_STROKES st.gapStrokes |> whenB (decide (0 < st.gapWords)) (raise pDUC 3)
  ({ st with out := [], gapWords := 0, gapStrokes := 0 }, s)

/-- DUC_LAG follows the copies of a session. -/
def showLag (n : Nat) (s : State) : State :=
  (if (copyOf s n 0).behind.isSome || (copyOf s n 1).behind.isSome then setBitOf else clrBitOf) (F.DUC_LAG.LAG (n / 64)) (n % 64) s

/-- A copy falls behind from a stroke on: its open frame goes, and its anchors are made anew (R241). -/
def fallBehind (n k from' : Nat) (d : Dest) (s : State) : State :=
  let ports := match d with | .net p _ _ _ => p | _ => 0
  s |> setCopy n k (fun x => { x with behind := some from', strm := { x.strm with words := [], block := none, taps := [], has := false, anch := [], out := [] } })
    |> showLag n |> raise pDUC 6
    |> forAll (((List.range 4).filter (bitSet ports)).take 1) (fun p => inc (F.ETH_TXHOLD.COPY_WAITS p))

/-- The first stroke that a stream has not sent. -/
def unsentFrom (st : Strm) (k : Nat) : Nat :=
  match st.out with
  | f :: _ => min f.first k
  | [] => if strmEmpty st then k else min st.fw k

/-- A copy's port and next hop are asked for. -/
def askDest (s : State) (d : Dest) : State :=
  match d with
  | .net ports v6 addr _ => match lowPort s ports with
    | none => s
    | some p => askHop p v6 addr s
  | _ => s

/-- A fine copy sends what is ready, or falls behind from the first stroke not sent. -/
def sendOrLag (c : Cfg) (k now : Nat) (held : List Nat) (st : Strm) (s : State) : State :=
  let d := destOf s c k
  let s := askDest s d
  if canLeave s held d then
    let x := deliver c k 0 false d st s
    setCopy c.n k (fun y => { y with strm := x.1 }) x.2
  else fallBehind c.n k (unsentFrom st now) d (setCopy c.n k (fun y => { y with strm := { st with out := [] } }) s)

/-- The closure of a stroke reaches a session's copy (R199, R221, R224, R233). -/
def closeCopy (r : Rec) (held : List Nat) (n k : Nat) (s : State) : State :=
  let c := cfgAt s n r.stroke
  let x := copyOf s n k
  if !cEN c || (destOf s c k == .nowhere && k == 1) || x.behind.isSome || (!cFine c && !cRub c) then s else
  let st := addStroke s c r false r.rub r.samples x.strm
  let ends := !cEN (cfgNow s n) || (match st.config with | none => false | some (_, z) => decide (z ≤ r.stroke + 1))
  let st := if ends || !cFine c then closeStrm c st else st
  sendOrLag c k r.stroke held st s

/-- Every session takes a closed stroke. -/
def closeSessions (r : Rec) (held : List Nat) (s : State) : State :=
  if !on s F.DUC_CTRL.EN then s else
  s |> forAll (enabledIn (sessTab s r.stroke)) (fun n s => s |> closeCopy r held n 0 |> closeCopy r held n 1)
    |> forAll held (fun p => inc (F.ETH_TXHOLD.HELD_STROKES p))

/-- The strokes below this one are closed. -/
def closedBelow (s : State) : Nat :=
  match s.trg.closing with
  | r :: _ => r.stroke
  | [] => if s.struck then strokeNow s else 0

/-- MAXWAIT_EXPIRY of a copy (R224). -/
def maxwaitExpiry (n k : Nat) (s : State) : State :=
  let x := copyOf s n k
  if strmEmpty x.strm || x.behind.isSome then s else
  let c := cfgAt s n (closedBelow s)
  sendOrLag c k (strokeNow s) [] (closeStrm c x.strm) s

/-- ANCHOR_PERIOD: an anchor becomes due for a tap in a stream (R151). -/
def anchorPeriod (n k chan tap : Nat) (s : State) : State :=
  setCopy n k (fun x => { x with strm := { x.strm with anch := mput noAnchor (tapKey chan tap) (noAnchor 0) x.strm.anch } }) s

/-! ### Serving from the Inkwell (R239, R241) -/

/-- Why the Inkwell does not have a stroke: 1 where a ring could not accept it, else 2. -/
def gapReason (s : State) (n : Nat) : Nat :=
  if (List.range 8).any (fun k => (ringOf s k).gaps.any (fun g => decide (g.1 ≤ n ∧ n ≤ g.2))) then 1 else 2

/-- The taps of a session that no ring records. -/
def unrecorded (s : State) (c : Cfg) : List Nat :=
  if !cFine c then [] else
  (List.range 8).map (fun b => if b = 7 then 15 else b) |>.filter (fun j =>
    bitSet (cTaps c) (tapBit j) && !(fineList c).any (fun ch => inkRecords s ch j))

/-- What a stroke still has for a session, and the taps of which it misses a value. -/
def heldWords (s : State) (c : Cfg) (r : Rec) : List TagWord × List Nat :=
  let sel := r.samples.filter (fun w => takes c w && inkRecords s w.chan w.tap)
  let have' := sel.filter (fun w => inkHolds s r.stroke w.chan w.tap)
  (have', [0, 1, 2, 3, 4, 5, 6, 15].filter (fun j => sel.any (fun w => w.tap == j && !inkHolds s r.stroke w.chan j)))

/-- The strokes `a` to `b` of the log in order, with GAP words where it has none. -/
def serveLog (s : State) (c : Cfg) (replay : Bool) (b : Nat) : Nat → Table (Option Rec) → Strm → Strm
  | a, [], st => if a ≤ b then putGap c a (gapReason s a) 0xD a (b + 1 - a) st else st
  | a, (k, x) :: rest, st =>
    if k < a then serveLog s c replay b a rest st
    else if b < k then (if a ≤ b then putGap c a (gapReason s a) 0xD a (b + 1 - a) st else st)
    else
      let st := if a < k then putGap c a (gapReason s a) 0xD a (k - a) st else st
      match x with
      | none => serveLog s c replay b (k + 1) rest (putGap c k (gapReason s k) 0xD k 1 st)
      | some r =>
        let h := heldWords s c r
        let st := h.2.foldl (fun st j => putGap c k (gapReason s k) j k 1 st) st
        serveLog s c replay b (k + 1) rest (addStroke s c r replay r.rub h.1 st)

/-- What a stream sends for the strokes `a` to `b` out of the Inkwell. -/
def serve (s : State) (c : Cfg) (replay : Bool) (a b : Nat) (st : Strm) : Strm :=
  if b < a then st else
  let st := (unrecorded s c).foldl (fun st j => putGap c a 3 j a (b + 1 - a) st) st
  serveLog s c replay b a s.ink.log st

/-- COPY_CATCHUP: a copy that is behind is served late until it is level (R241). -/
def copyCatchup (n k : Nat) (s : State) : State :=
  let x := copyOf s n k
  match x.behind with
  | none => s
  | some a =>
    let c := cfgNow s n
    if !cEN c then s |> setCopy n k (fun x => { x with behind := none }) |> showLag n else
    let d := destOf s c k
    let s := askDest s d
    if !canLeave s [] d then s else
    let st := closeStrm c (serve s c false a (closedBelow s - 1) x.strm)
    let y := deliver c k 0 true d st s
    y.2 |> setCopy n k (fun z => { z with strm := y.1, behind := none }) |> showLag n

end Sys2Proof.Machine
end

