-- ==== Sys2Proof/Machine/Coarse.lean ====
section
/-!
DEFINITION. Coarse round, stroke, map and rubric frames, and the uplink sums (R225 to R235).
-/

namespace Sys2Proof.Machine

/-! ### Values and lists (R225) -/

/-- The channel list of a coarse session: R75's order, then the shed channels. -/
def coarseList (s : State) (c : Cfg) : List Nat :=
  let order := fastOrder s
  (order ++ (List.range 512).filter (fun ch => bitSet s.nibs.shed (ch / 16))).filter (bitSet c.sel)

/-- The round in which a channel is converted, 0 for a shed one (R226). -/
def roundOf (s : State) (ch : Nat) : Nat :=
  if bitSet s.nibs.shed (ch / 16) then 0 else (fastOrder s).idxOf ch / max 1 (nIn s) + 1

/-- A coarse value: v rounded half to even and limited, 0x8000 for SKIP and OPEN (R225). -/
def coarseCode (shift : Nat) (x : Option Samp) : Nat :=
  match x with
  | none => 0x8000
  | some x => if bitSet x.fl flSKIP || bitSet x.fl flOPEN then 0x8000
    else ofInt 16 (clampInt (-32767) 32767 (shiftHalfEven shift x.v))

/-- Whether a coarse value carries any flag. -/
def coarseFlag (x : Option Samp) : Bool :=
  match x with
  | none => true
  | some x => x.fl != 0

def coarseAt (s : State) (ch : Nat) : Option Samp := mget (fun _ => none) s.duc.coarse ch

/-- The stamp of a coarse frame: the strike of the stroke. -/
def coarseStamp (s : State) : Nat := (divHalfEven (strikeTime s : Int) 65536).toNat

/-- The header of a coarse frame up to byte 11 (R226). -/
def coarseHeader (s : State) (c : Cfg) (k typ seq round count first : Nat) : List Byte :=
  beBytes 1 (16 + typ) ++ beBytes 1 c.n ++ beBytes 2 seq ++ beBytes 4 (coarseStamp s) ++ beBytes 1 (strokeNow s)
    ++ beBytes 1 (put 4 4 round + put 3 1 k + put 2 1 (cAuth c).toNat + put 0 2 (sessSt s c.n).mapGen)
    ++ beBytes 2 (if typ = 1 then put 10 6 count + put 0 10 first else put 0 10 count)

def codes (s : State) (c : Cfg) (chs : List Nat) : List Byte := chs.flatMap (fun ch => beBytes 2 (coarseCode (cShift c) (coarseAt s ch)))

/-- A round frame of the channels at list positions from `first` on. -/
def roundFrame (s : State) (c : Cfg) (k round first : Nat) (chs : List Nat) : List Byte :=
  coarseHeader s c k 1 (copyOf s c.n k).seqC round chs.length first
    ++ beBytes 4 (bitsOf (indicesWhere chs.length (fun i => coarseFlag (coarseAt s (nth 0 chs i))))) ++ codes s c chs

/-- A stroke frame of the whole list. -/
def strokeFrame (s : State) (c : Cfg) (k : Nat) (chs : List Nat) : List Byte :=
  let flagged := indicesWhere chs.length (fun i => coarseFlag (coarseAt s (nth 0 chs i)))
  coarseHeader s c k 2 (copyOf s c.n k).seqC 0 chs.length 0 ++ beBytes 4 flagged.length ++ codes s c chs
    ++ (List.range (ceilDiv chs.length 32)).flatMap (fun w => beBytes 4 (bitsOf ((flagged.filter (fun i => i / 32 == w)).map (· % 32))))

/-! ### Sending coarse frames (R227, R231, R305) -/

/-- A coarse copy that cannot leave is dropped and counted; its SEQ advances (R231). -/
def dropCoarse (c : Cfg) (k ports : Nat) (s : State) : State :=
  s |> setCopy c.n k (fun x => { x with drops := satAdd 16 x.drops 1 }) |> raise pETH 8
    |> forAll (((List.range 4).filter (bitSet ports)).take 1) (inc ∘ F.ETH_TXDROP.COARSE_DROP)

/-- A coarse frame goes to the port given, or into the copy's ring; `typ` is 1 or 2. -/
def sendCoarse (c : Cfg) (k typ : Nat) (d : Dest) (port : Option Nat) (body : List Byte) (s : State) : State :=
  let s := setCopy c.n k (fun x => { x with seqC := (x.seqC + 1) % 65536 }) s
  match d with
  | .nowhere => s
  | .ring r =>
    let lost (f : Fld) (s : State) : State :=
      s |> setCopy c.n k (fun x => { x with drops := satAdd 16 x.drops 1 }) |> inc f |> raise pDMA 5
    if !ringServes s r || on s (F.DMA_TAIL.STARVED r) then lost F.DMA_COUNT0.C0_DROPPED s
    else if clsParked s 0 then lost F.DMA_COUNT0.C0_OVERWRITTEN s
    else
      let b := sealFrame c k typ 0 body s
      b.2 |> setCopy c.n k (fun x => { x with frames := satAdd 32 x.frames 1 })
        |> setRingD r (fun x => { x with wait := x.wait ++ [⟨0, c.n, 0, false, ⟨typ, strokeNow s, 0, 0, []⟩, b.1⟩] })
  | .net ports v6 addr udp =>
    match port with
    | none => dropCoarse c k ports s
    | some p =>
      if !resolved s v6 addr then s |> askHop p v6 addr |> dropCoarse c k (2 ^ p) else
      let b := sealFrame c k typ 0 body s
      b.2 |> setCopy c.n k (fun x => { x with frames := satAdd 32 x.frames 1 }) |> sendDatagram c p v6 addr udp b.1
        |> whenB (typ == 1) (inc (F.ETH_COARSE.ROUND_FRAMES p))

/-- The ports of a mask that are up and carry round frames, or run at 10GBASE-R. -/
def dealPorts (s : State) (mask : Nat) (slow : Bool) : List Nat :=
  (List.range 4).filter (fun p => bitSet mask p && portUp s p && (rget s (F.ETH_PCFG.SPEED p) == 1) == slow)

/-- The port mask of a network destination. -/
def destPorts : Dest → Nat
  | .net p _ _ _ => p
  | _ => 0

/-- A list cut into pieces of 32. -/
def cut32 (xs : List Nat) : List (List Nat) := (List.range (ceilDiv xs.length 32)).map (fun i => (xs.drop (32 * i)).take 32)

/-- A map frame of a session's copy (R228). -/
def sendMap (c : Cfg) (k : Nat) (list : List Nat) (s : State) : State :=
  let d := destOf s c k
  let g := (sessSt s c.n).mapGen
  let pad := (4 - list.length % 4) % 4
  let quads := list ++ List.replicate pad 0
  let ws := (List.range (quads.length / 4)).map (fun i => (List.range 4).foldl (fun a j => a * 65536 + nth 0 quads (4 * i + j)) 0)
  let seq := (copyOf s c.n k).strm.seq
  let f : OutFrame := ⟨6, strokeNow s % 2 ^ 32, 0, seq, (put 56 8 g + put 32 16 list.length + put 0 32 (strokeNow s)) :: ws⟩
  let s := setCopy c.n k (fun x => { x with strm := { x.strm with seq := (seq + 1) % 2 ^ 32 } }) s
  if d = .nowhere then s
  else if canLeave s [] d then sendFine c k 0 false d f s
  else dropCoarse c k (destPorts d) s

/-- Both copies of a session's map frame. -/
def sendMaps (c : Cfg) (list : List Nat) (s : State) : State :=
  s |> setSess c.n (fun x => { x with mapList := some list }) |> sendMap c 0 list |> whenB (cDest2 c) (sendMap c 1 list)

/-- Before the first coarse frame of a list the hub states it; a changed list takes the next MAP_GEN (R228). -/
def stateMap (c : Cfg) (list : List Nat) (s : State) : State :=
  match (sessSt s c.n).mapList with
  | none => sendMaps c list s
  | some l => if l = list then s else s |> setSess c.n (fun x => { x with mapGen := (x.mapGen + 1) % 256 }) |> sendMaps c list

/-- The sessions that a table enables in coarse format. -/
def coarseSessions (s : State) : List Cfg :=
  if on s F.DUC_CTRL.EN then ((enabledIn s.duc.sess).map (cfgNow s)).filter cCoarse else []

/-- The round frames of a session's copy in round `r`, 0 for the shed channels (R227). -/
def sendRound (c : Cfg) (list : List Nat) (r k : Nat) (s : State) : State :=
  let d := destOf s c k
  if d = .nowhere then s else
  let at' := list.filter (fun ch => roundOf s ch == r)
  let base := list.idxOf (nth 0 at' 0)
  let ports := dealPorts s (destPorts d) false
  let slow := dealPorts s (destPorts d) true
  if ports.isEmpty && !slow.isEmpty then s else
  let fs := cut32 at'
  forAll (List.range fs.length) (fun i s =>
    sendCoarse c k 1 d (if ports.isEmpty then none else some (nth 0 ports (i % ports.length)))
      (roundFrame s c k r (base + 32 * i) (nth [] fs i)) s) s

/-- ROUND_FRAME_LAUNCH: a round's values have reached the assembler (R227). -/
def launchRound (r : Nat) (s : State) : State :=
  forAll ((coarseSessions s).filter (fun c => !cCmode c)) (fun c s =>
    let list := coarseList s c
    if list.all (fun ch => roundOf s ch != r) then s else
    s |> stateMap c list |> sendRound c list r 0 |> whenB (cDest2 c) (sendRound c list r 1)) s

/-- A first conversion of round slot `k` (from 0) has given channel `ch` its coarse value; the last one of the round launches its frames,
and the last round those of the shed channels. -/
def coarseArrive (k ch : Nat) (x : Samp) (s : State) : State :=
  let t := slotTable s
  let n := mget zeroAt s.duc.rounds k + 1
  let s := setDuc (fun d => { d with coarse := mput (fun _ => none) ch (some x) d.coarse, rounds := mput zeroAt k n d.rounds }) s
  if n = roundCount t k then s |> launchRound (k + 1) |> whenB (k + 1 == t.rounds) (launchRound 0) else s

/-- STROKE_FRAME_LAUNCH for one copy: CMODE 1, or a port at 10GBASE-R (R227, R229). -/
def sendStroke (c : Cfg) (list : List Nat) (k : Nat) (s : State) : State :=
  let d := destOf s c k
  if d = .nowhere then s
  else if cCmode c then sendCoarse c k 2 d (lowPort s (destPorts d)) (strokeFrame s c k list) s
  else match dealPorts s (destPorts d) true with
    | [] => s
    | p :: _ => s |> inc (F.ETH_TXDROP.ROUND_AS_STROKE p) |> raise pETH 8 |> sendCoarse c k 2 d (some p) (strokeFrame s c k list)

/-- STROKE_FRAME_LAUNCH at DCLK cycle 32 + 32R (R229). -/
def strokeFrames (s : State) : State :=
  forAll (coarseSessions s) (fun c s =>
    let list := coarseList s c
    if list.isEmpty then s else
    let s := whenB (cCmode c) (stateMap c list) s
    s |> sendStroke c list 0 |> whenB (cDest2 c) (sendStroke c list 1)) s

/-- MAP_FRAME_PERIOD of a session (R228). -/
def mapPeriod (n : Nat) (s : State) : State :=
  let c := cfgNow s n
  if on s F.DUC_CTRL.EN && cEN c && cCoarse c then sendMaps c (coarseList s c) s else s

/-! ### Uplink sums (R234) -/

/-- Bytes of a frame on the wire beside its payload: 66, IPv6 20, VLAN tag 4; with the 16-byte header, and the trailer 24. -/
def overhead (c : Cfg) : Nat := 82 + (if cIpv6 c then 20 else 0) + (if cVlan c then 4 else 0) + (if cAuth c then 24 else 0)

/-- A rate in events per 1,000 M seconds × 1,024,000,000: a tap of a channel has 1/D_j of the stroke rate; slow and diagnostic channels
count as 0 (log entry 30). Sums are kept as a fraction of the stroke rate. -/
def tapRates (shadow : Bool) (s : State) (c : Cfg) (j : Nat) : List (Nat × Nat) :=
  let chans := (List.range 512).filter (bitSet c.sel)
  chans.filterMap (fun ch => (if j = 15 then some 1 else tapRatio shadow s ch j).map (fun d => (ch, d)))

/-- The distinct ratios in a list of channels with their ratios, and how many channels have each. -/
def ratioGroups (xs : List (Nat × Nat)) : List (Nat × Nat) :=
  xs.foldl (fun a x =>
    match a.find? (fun y => y.1 == x.2) with
    | none => a ++ [(x.2, 1)]
    | some _ => a.map (fun y => if y.1 = x.2 then (y.1, y.2 + 1) else y)) []

/-- The groups of a fine session: ratio and channels, tap by tap. -/
def fineGroups (s : State) (c : Cfg) : List (Nat × Nat) :=
  ([0, 1, 2, 3, 4, 5, 6, 15].filter (fun j => bitSet (cTaps c) (tapBit j))).flatMap (fun j => ratioGroups (tapRates false s c j))

/-- Bytes per stroke on the wire of a fine session as a fraction, anchors apart: frames are filled to MAXLEN or closed by MAXWAIT
(log entry 30). -/
def fineBytes (s : State) (c : Cfg) : Nat × Nat :=
  let gs := fineGroups s c
  let room := max 1 (roomOf c)
  let item (g : Nat × Nat) : Nat := if cFormat c = 0 then 8 * (g.2 + 1) else 16 + 8 * ceilDiv g.2 2
  match gs, cFormat c with
  | [], _ => (0, 1)
  | [(d, n)], 1 =>
    let full := max 1 ((room - 16) / (4 * n))
    let waits := cMaxwait c * 1024 / (1000 * mLive s * d) + 1
    let k := min 255 (min full waits)
    let parts := ceilDiv (16 + 4 * n * k) (room + 8)
    (overhead c * max 1 parts + 16 * max 1 parts + 4 * n * k, d * k)
  | gs, _ =>
    let body := gs.foldl (fun a g => addFrac a (item g) g.1) (0, 1)
    let idx := gs.foldl (fun a g => addFrac a 1 g.1) (0, 1)
    -- frames per stroke: by size, and by MAXWAIT where items are frequent enough
    let wait := max 1 (cMaxwait c * 1024 / (1000 * mLive s))
    let bySize := (body.1, body.2 * room)
    let byWait := if idx.1 * wait < idx.2 then idx else (1, wait)
    let frames := if bySize.1 * byWait.2 < byWait.1 * bySize.2 then byWait else bySize
    let a := addFrac body (overhead c * frames.1) frames.2
    a

/-- Anchors of a fine session in bytes per anchor period: three words per tap and channel, or per block. -/
def anchorBytes (s : State) (c : Cfg) : Nat := (fineGroups s c).foldl (fun a g => a + 24 * (if cFormat c = 0 then g.2 else 1)) 0

/-- Bytes per stroke of a coarse session with round frames, or in stroke frames. -/
def coarseBytes (s : State) (c : Cfg) : Nat :=
  let list := coarseList s c
  if cCmode c then overhead c + 2 * list.length + 4 * ceilDiv list.length 32
  else (List.range 17).foldl (fun a r =>
    let n := (list.filter (fun ch => roundOf s ch == r)).length
    a + overhead c * ceilDiv n 32 + 2 * n) 0

/-- A copy's rate in bytes per second, rounded up. -/
def copyRate (s : State) (c : Cfg) : Nat :=
  let m := mLive s
  if !cFine c then (if cCoarse c then ceilDiv (coarseBytes s c * 1024000) m else 0) else
  let b := fineBytes s c
  let p := max 1 (rget s F.TSU_ANCHOR.PERIOD_MS)
  ceilDiv (b.1 * 1024000 * p + anchorBytes s c * 1000 * m * b.2) (m * b.2 * p)

/-- What a session's copy puts on a port: its whole rate, or an equal share of round frames. -/
def copyLoad (c : Cfg) (rate ports p : Nat) : Nat :=
  if !bitSet ports p then 0 else if cCoarse c && !cCmode c then ceilDiv rate (max 1 (popCount 4 ports)) else rate

/-- The line rate of a port in bits per second. -/
def lineRate (s : State) (p : Nat) : Nat := if rget s (F.ETH_PCFG.SPEED p) = 1 then 10000000000 else 25000000000

/-- A port's load in ppm under a session table, rounded up; a live table goes by the bindings. -/
def portPpm (t : Table Wide) (live : Bool) (s : State) (p : Nat) : Nat :=
  let bytes := (enabledIn t).foldl (fun a n =>
    let c := cfgOf t n
    let rate := copyRate s c
    let p1 := if cDma c then 0 else if live then destPorts (destOf s c 0) else cPorts c
    a + copyLoad c rate p1 p + (if cDest2 c then copyLoad c rate (cPorts2 c) p else 0)) 0
  ceilDiv (bytes * 8 * 1000000) (lineRate s p)

/-! ### The commit of the DUC page (R232, R233) -/

/-- Why a session of the shadow table fails R232, and the port: 0 for none. -/
def sessionFault (s : State) (t : Table Wide) (c : Cfg) : Nat × Nat :=
  let used := (if cDma c then 0 else cPorts c) ||| (if cDest2 c then cPorts2 c else 0)
  let ports := (List.range 4).filter (bitSet used)
  let round := cCoarse c && !cCmode c
  let others (p : Nat) : Bool := (enabledIn t).any (fun m =>
    let d := cfgOf t m
    !(cCoarse d && !cCmode d) && bitSet ((if cDma d then 0 else cPorts d) ||| (if cDest2 d then cPorts2 d else 0)) p)
  let bridged (p : Nat) : Bool := on s F.ETH_CTRL.BRIDGE_EN && (p == 2 || p == 3)
  if cFormat c = 3 then (1, 0)
  else if (!cDma c && cPorts c == 0) || (cDest2 c && cPorts2 c == 0) then (2, 0)
  else if cFine c && cTaps c == 0 then (3, 0)
  else match ports.find? (fun p => decide (rget s F.ETH_CTRL.LIMIT_PCT * 10000 < portPpm t false s p)) with
  | some p => (4, p)
  | none => match ports.find? (fun p => round && !on s (F.ETH_PCFG.PREEMPT_EN p) && (others p || bridged p)) with
    | some p => (5, p)
    | none => match ports.find? (fun p => round && rget s (F.ETH_PCFG.SPEED p) == 1) with
      | some p => (6, p)
      | none => (0, 0)

/-- The first session of the shadow table that fails, with its cause and port. -/
def ducWithhold (s : State) : Option (Nat × Nat × Nat) :=
  let t := s.duc.sessSh
  ((enabledIn t).map (fun n => (n, sessionFault s t (cfgOf t n)))).findSome? (fun x => if x.2.1 = 0 then none else some (x.1, x.2.1, x.2.2))

/-- A withheld DUC commit on record (R232). -/
def ducWithheld (n : Nat) (x : Nat × Nat × Nat) (s : State) : State :=
  s |> rset F.DUC_REFUSE.SESSION x.1 |> rset F.DUC_REFUSE.CAUSE x.2.1 |> rset F.DUC_REFUSE.PORT x.2.2 |> rset F.DUC_REFUSE.STROKE_LO n |> raise pDUC 5

end Sys2Proof.Machine
end

