-- ==== Sys2Proof/Machine/Duc.lean ====
section
/-!
DEFINITION. Ductus sessions at work: the DUC commit, binding, control requests, replays and the CMDQ commands (R233, R236 to R243,
R253, R254).
-/

namespace Sys2Proof.Machine

/-! ### Replays (R239, R240) -/

/-- DUC_REPLAY_STATE follows the sessions' replays. -/
def showReplays (s : State) : State :=
  let all := s.duc.st.flatMap (fun e => e.2.replays)
  let act := (all.filter (·.active)).length
  s |> rset F.DUC_REPLAY_STATE.ACTIVE act |> rset F.DUC_REPLAY_STATE.QUEUED (all.length - act)

/-- Where a replay goes: to its requester, or into the session's ring. -/
def replayDest (c : Cfg) (x : Replay) : Dest :=
  match x.peer with
  | none => .ring (cRing c)
  | some p => .net (2 ^ p.eth) p.ipv6 p.addr p.udp

/-- Whether a replay's frames can leave. -/
def replayLeaves (s : State) (d : Dest) : Bool :=
  match d with
  | .ring k => ringTakesFine s k 2
  | d => canLeave s [] d

/-- The stream of a replay up to its last item (R239): REPLAY_BEGIN, the items, REPLAY_END. A replay that met strokes it could not give ends
clipped. -/
def replayStrm (s : State) (c : Cfg) (x : Replay) (outcome : Option Nat) : Strm × Nat :=
  let st : Strm := putWords c x.from' [replayBegin x.id x.from'] {}
  match outcome with
  | some o => (closeStrm c (putWords c x.till [replayEnd o x.id x.till] st), o)
  | none =>
    let st := serve s c true x.from' x.till st
    let o := if st.gapWords = 0 then 0 else 1
    (closeStrm c (putWords c x.till [replayEnd o x.id x.till] st), o)

/-- A replay ends: it leaves the session, its frames are sent, and it is counted. -/
def endReplay (c : Cfg) (x : Replay) (outcome : Option Nat) (s : State) : State :=
  let r := replayStrm s c x outcome
  let s := setSess c.n (fun e => { e with replays := e.replays.filter (fun y => y.id != x.id) }) s
  let s := (deliver c 0 x.id false (replayDest c x) r.1 s).2
  s |> whenB (r.2 == 0 || r.2 == 1) (setCopy c.n 0 (fun y => { y with replays := satAdd 16 y.replays 1 }))
    |> whenB (r.2 == 1) (inc F.DUC_COUNT_REPLAY.CLIPPED) |> whenB (r.2 == 2) (inc F.DUC_COUNT_REPLAY.CANCELLED)
    |> whenB (r.2 == 1 || r.2 == 2) (raise pDUC 2) |> showReplays

/-- REPLAY_START: the first queued replay of session `n` starts when a place is free and no lower session waits (R240). -/
def replayStart (n : Nat) (s : State) : State :=
  let act := (s.duc.st.flatMap (fun e => e.2.replays)).filter (·.active) |>.length
  let ready (x : Sess) : Bool := !x.replays.isEmpty && x.replays.all (fun y => !y.active)
  if !ready (sessSt s n) || decide (rget s F.DUC_LIMITS.REPLAY_ACTIVE ≤ act) || s.duc.st.any (fun e => decide (e.1 < n) && ready e.2) then s
  else s |> setSess n (fun x => { x with replays := modNth (fun y => { y with active := true }) x.replays 0 }) |> raise pDUC 1 |> showReplays

/-- REPLAY_COMPLETE: the active replay of session `n` sends its items and its REPLAY_END (R239). -/
def replayComplete (n : Nat) (s : State) : State :=
  match (sessSt s n).replays.find? (·.active) with
  | none => s
  | some x =>
    let c := cfgNow s n
    let s := askDest s (replayDest c x)
    if replayLeaves s (replayDest c x) then endReplay c x none s else s

/-- The newest stroke written, once there is one. -/
def newestWritten (s : State) : Option Nat := (s.ink.log.getLast?).map (·.1)

/-- The rings that record something of a session; rubrics stand in every ring. -/
def sessRings (s : State) (c : Cfg) : List Nat :=
  (List.range 8).filter (fun k => ringOn s k &&
    (if cFine c then cRub c || (fineList c).any (fun ch => (List.range 7).any (fun j => bitSet (cTaps c) j && ringTakes s k ch j)) else cRub c))

/-- The oldest stroke held for a session. -/
def oldestHeld (s : State) (c : Cfg) : Option Nat :=
  ((sessRings s c).filterMap (fun k => ((ringOf s k).segs.head?).map (·.first))).min?

/-- A REPLAY of a session: RESULT and the response's arguments (R236, R237, R239, R240). -/
def askReplay (c : Cfg) (peer : Option Peer) (a b : Nat) (s : State) : Nat × Nat × Nat × State :=
  let refuse (code : Nat) : Nat × Nat × Nat × State := (code, 0, 0, inc F.DUC_COUNT_REPLAY.REFUSED s)
  match newestWritten s with
  | none => refuse 0x07
  | some top =>
    if b < a ∨ top < a then refuse 0x07
    else match oldestHeld s c with
    | none => refuse 0x08
    | some low =>
      let e := sessSt s c.n
      if 4 ≤ e.replays.length then refuse 0x05 else
      let from' := max a low
      let till := min b top
      let code := if cCoarse c then 0x13 else if a < low then (if top < b then 0x12 else 0x10) else if top < b then 0x11 else 0
      (code, put 48 16 e.nextId + put 0 48 from', put 0 48 till,
        s |> setSess c.n (fun e => { e with replays := e.replays ++ [⟨e.nextId, from', till, peer, false⟩],
                                            nextId := if e.nextId = 65535 then 1 else e.nextId + 1 })
          |> inc F.DUC_COUNT_REPLAY.ACCEPTED |> showReplays)

/-- A CANCEL by the one who asked for the replays (R240). -/
def askCancel (c : Cfg) (peer : Option Peer) (id : Nat) (s : State) : Nat × Nat × Nat × State :=
  let mine := (sessSt s c.n).replays.filter (fun x => x.peer == peer && (id == 0xFFFF || x.id == id))
  if mine.isEmpty ∧ id ≠ 0xFFFF then (0x0A, 0, 0, s) else
  (0, mine.length, 0, forAll mine (fun x s =>
    if x.active then endReplay c x (some 2) s
    else s |> setSess c.n (fun e => { e with replays := e.replays.filter (fun y => y.id != x.id) })
      |> inc F.DUC_COUNT_REPLAY.CANCELLED |> raise pDUC 2 |> showReplays) s)

/-- A STATUS of a session. -/
def askStatus (c : Cfg) (s : State) : Nat × Nat × Nat × State :=
  (0, (oldestHeld s c).getD 0, (newestWritten s).getD 0, s)

/-! ### The DUC commit (R233) -/

/-- DUC_ON and DUC_BOUND follow the tables. -/
def showOn (n : Nat) (s : State) : State :=
  (if cEN (cfgNow s n) then setBitOf else clrBitOf) (F.DUC_ON.ON (n / 64)) (n % 64) s
def showBound (n : Nat) (s : State) : State :=
  (if (match (sessSt s n).bound with | some (some _) => true | _ => false) then setBitOf else clrBitOf) (F.DUC_BOUND.BOUND (n / 64)) (n % 64) s

/-- A session's configuration changed on stroke `n0`. -/
def sessChanged (before : State) (n0 n : Nat) (s : State) : State :=
  let was := cfgNow before n
  let now := cfgNow s n
  let newKey := cKey was != cKey now || sessKey before was != sessKey s now
  let s := setSess n (fun e => { e with gen := (e.gen + 1) % 256, lastC := if newKey then none else e.lastC }) s
  let s := forAll [0, 1] (fun k => setCopy n k (fun x =>
    { x with strm := { x.strm with config := some ((sessSt s n).gen, n0), anch := if cEN was then x.strm.anch else [] },
             ctr := if newKey then [] else x.ctr })) s
  let s := if cEN now then s else
    let s := forAll (sessSt s n).replays (fun x => endReplay was x (some 3)) s
    s |> setCopy n 0 (fun x => { x with behind := none }) |> setCopy n 1 (fun x => { x with behind := none }) |> showLag n
  s |> whenB (cEN now && !cEN was) (setSess n (fun e => { e with mapList := none })) |> showOn n

/-- The DUC page's part of a commit on stroke `n0`. -/
def ducCommit (n0 : Nat) (before : State) (s : State) : State :=
  let s := setDuc (fun d => { d with old := some (d.sess, n0), sess := d.sessSh, keys := d.keysSh }) s
  let changed := (List.range 256).filter (fun n =>
    (List.range 8).any (fun w => sessWord before.duc.sess n w != sessWord s.duc.sess n w)
      || sessKey before (cfgNow before n) != sessKey s (cfgNow s n))
  forAll changed (sessChanged before n0) s

/-! ### Binding (R238) -/

/-- SESSION_BIND_APPLY: a binding or unbinding takes effect on its stroke, with a CONFIG word. -/
def bindApply (n : Nat) (s : State) : State :=
  match (sessSt s n).bind with
  | none => s
  | some (p, z) =>
    if !s.struck ∨ strokeNow s < z then s else
    s |> setSess n (fun e => { e with bound := some p, bind := none, boundAt := z, mapList := none })
      |> setCopy n 0 (fun x => { x with strm := { x.strm with anch := [] } })
      |> forAll [0, 1] (fun k s => setCopy n k (fun x => { x with strm := { x.strm with config := some ((sessSt s n).gen, z) } }) s)
      |> showBound n |> raise pDUC 0

/-- LEASE_EXPIRY: the bound subscriber's lease ends, and the session is unbound on the first stroke that meets R38. -/
def leaseExpiry (n cyc : Nat) (s : State) : State :=
  match (sessSt s n).bound with
  | some (some _) => setSess n (fun e => { e with bind := some (none, firstMeeting s cyc) }) s
  | _ => s

/-! ### Control requests (R236, R237, R243) -/

def ducVlog (code sess : Nat) (s : State) : State := vlog pDUC 4 50 F.DUC_VLOG.ENTRY 2 code 0 sess s

/-- The peer that sends a request. -/
def reqPeer (q : DucReq) : Peer := ⟨q.ipv6, q.addr, q.udp, q.eth⟩

/-- The bytes of a request up to its trailer. -/
def reqBytes (q : DucReq) (op : Nat) : List Byte :=
  beBytes 1 0x18 ++ beBytes 1 q.session ++ beBytes 1 op ++ beBytes 1 0 ++ beBytes 4 q.tag ++ beBytes 8 q.arg0 ++ beBytes 8 q.arg1

/-- A response to a request: RESULT and the arguments (R236), on the port of the request. -/
def respond (q : DucReq) (op result a0 a1 : Nat) (s : State) : State :=
  let c := cfgNow s q.session
  let body := beBytes 1 0x19 ++ beBytes 1 q.session ++ beBytes 1 op ++ beBytes 1 result ++ beBytes 4 q.tag ++ beBytes 8 a0 ++ beBytes 8 a1
  let b := if cEN c then sealFrame c 0 9 0 body s else (body, s)
  b.2 |> whenB (decide (0 < result ∧ result < 0x10)) (inc F.DUC_COUNT_CTRL.NAKS) |> sendDatagram c q.eth q.ipv6 q.addr q.udp b.1

/-- What the hub remembers of a sender. -/
def srcOf (s : State) (addr : Nat) : DucSrc := (s.duc.srcs.find? (fun x => x.addr == addr)).getD ⟨addr, 0, 0, 0, 0⟩
def setSrc (x : DucSrc) (s : State) : State := setDuc (fun d => { d with srcs := x :: d.srcs.filter (fun y => y.addr != x.addr) }) s

/-- Whether a request's trailer proves it (R217). -/
def authentic (s : State) (c : Cfg) (q : DucReq) (op : Nat) : Bool :=
  if !cAuth c then q.trailer.isNone else
  match q.trailer with
  | none => false
  | some (n, tag) =>
    let key := sessKey s c
    let body := reqBytes q op
    let iv := put 88 8 c.n + put 84 4 8 + put 0 64 n
    (match (sessSt s c.n).lastC with | none => true | some l => decide (l < n)) && (Config.gmac key iv (body ++ beBytes 8 n)).toNat == tag % 2 ^ 128

/-- The gate that every control request passes before its operation: Ductus on, the sender's rate and lock-out, form, session and
authentication (R237, R243); `act` answers RESULT and the arguments. -/
def ducGate (q : DucReq) (op : Nat) (formed : Bool) (act : Cfg → State → Nat × Nat × Nat × State) (s : State) : State :=
  if !on s F.DUC_CTRL.EN then s else
  let s := inc (F.ETH_RXOWN.DUCTUS q.eth) s
  let sec := rget s F.MON_UPTIME.UPTIME_S
  let x := srcOf s q.addr
  let x := if x.sec = sec then { x with reqs := x.reqs + 1 } else { x with sec := sec, reqs := 1, fails := 0 }
  let s := setSrc x s
  if strokeNow s < x.shut then inc F.DUC_COUNT_CTRL.RATE_DROPPED s
  else if rget s F.DUC_CTRL.CTRL_PPS < x.reqs then s |> inc F.DUC_COUNT_CTRL.RATE_DROPPED |> ducVlog 0x04 q.session
  else
    let s := inc F.DUC_COUNT_CTRL.REQUESTS s
    let c := cfgNow s q.session
    if !formed then s |> ducVlog 0x01 q.session |> respond q op 0x04 0 0
    else if !cEN c then s |> ducVlog 0x02 q.session |> respond q op 0x01 0 0
    else if !authentic s c q op then
      let f := x.fails + 1
      let shut := rget s F.DUC_LIMITS.AUTH_FAIL_LIM ≤ f
      s |> inc F.DUC_COUNT_CTRL.AUTH_FAIL |> ducVlog 0x03 q.session
        |> setSrc { x with fails := f, shut := if shut then strokeNow s + strokesOfUs 1000000 s else x.shut }
        |> whenB (decide (rget s F.DUC_LIMITS.AUTH_FAIL_LIM ≤ f)) (raise pDUC 7) |> respond q op 0x03 0 0
    else
      let s := match q.trailer with
        | some (n, _) => whenB (cAuth c) (setSess q.session (fun e => { e with lastC := some n })) s
        | none => s
      let r := act c s
      respond q op r.1 r.2.1 r.2.2.1 r.2.2.2

/-- Who a session is bound to, a binding on its way included. -/
def boundTo (e : Sess) : Option (Peer × Nat) :=
  match e.bind with
  | some (some p, z) => some (p, z)
  | some (none, _) => none
  | none => match e.bound with
    | some (some p) => some (p, e.boundAt)
    | _ => none

/-- SUBSCRIBE (R238). -/
def ducSubscribe (q : DucReq) (cyc : Nat) (s : State) : State :=
  ducGate q 1 true (fun c s =>
    let e := sessSt s c.n
    if !cOpenNet c then (0x02, 0, 0, s) else
    match boundTo e with
    | some (p, z) => if p = reqPeer q then (0, z, e.gen, s) else (0x06, 0, 0, s)
    | none =>
      let z := firstMeeting s cyc
      (0, z, e.gen, setSess c.n (fun e => { e with bind := some (some (reqPeer q), z) }) s)) s

/-- UNSUBSCRIBE (R238). -/
def ducUnsubscribe (q : DucReq) (cyc : Nat) (s : State) : State :=
  ducGate q 2 true (fun c s =>
    let z := firstMeeting s cyc
    match boundTo (sessSt s c.n) with
    | some (p, _) => if p = reqPeer q then (0, z, 0, setSess c.n (fun e => { e with bind := some (none, z) }) s) else (0x06, 0, 0, s)
    | none => (0, z, 0, s)) s

/-- KEEPALIVE (R236, R238). -/
def ducKeepalive (q : DucReq) (s : State) : State :=
  ducGate q 3 true (fun c s =>
    match boundTo (sessSt s c.n) with
    | some (p, _) => if p = reqPeer q then (0, rget s F.DUC_CTRL.LEASE_S, 0, s) else (0x06, 0, 0, s)
    | none => (0, 0, 0, s)) s

/-- Whether a sender is a destination of a session or its bound subscriber (R237). -/
def mayReplay (s : State) (c : Cfg) (q : DucReq) : Bool :=
  let one := match (sessSt s c.n).bound with
    | none => !cDma c && cIpv6 c == q.ipv6 && c.dest1 == q.addr
    | some none => false
    | some (some p) => p.ipv6 == q.ipv6 && p.addr == q.addr
  one || (cDest2 c && cIpv6 c == q.ipv6 && c.dest2 == q.addr)

/-- REPLAY over the network (R239). -/
def ducReplay (q : DucReq) (s : State) : State :=
  ducGate q 4 true (fun c s =>
    if mayReplay s c q then askReplay c (some (reqPeer q)) q.arg0 q.arg1 s
    else (0x02, 0, 0, s |> inc F.DUC_COUNT_REPLAY.REFUSED |> ducVlog 0x05 c.n)) s

/-- CANCEL over the network (R240). -/
def ducCancel (q : DucReq) (s : State) : State :=
  ducGate q 5 true (fun c s =>
    if mayReplay s c q then askCancel c (some (reqPeer q)) q.arg0 s else (0x02, 0, 0, ducVlog 0x05 c.n s)) s

/-- STATUS over the network. -/
def ducStatus (q : DucReq) (s : State) : State := ducGate q 6 true askStatus s

/-- DUCTUS_MALFORMED: a request that R236 does not lay out, or one that the gate stops (R243). -/
def ducMalformed (q : DucReq) (op : Nat) (s : State) : State := ducGate q op false (fun _ s => (0, 0, 0, s)) s

/-! ### CMDQ (R253, R254) -/

/-- The response item of a CMDQ command (R253). -/
def rspItem (op sess result tag a0 a1 : Nat) : List Nat := [put 56 8 2 + put 48 8 op + put 40 8 sess + put 32 8 result + put 0 32 tag, a0 % 2 ^ 64, a1 % 2 ^ 64]

/-- The executor takes the head item of CMDQ when it is a command that `p` accepts and its response fits, and answers it. -/
def cmdAnswer (p : Nat → Nat → List Nat → Bool) (act : List Nat → State → Nat × Nat × Nat × State) (s : State) : State :=
  let it := headItem (queue s qCMD).words
  if it.isEmpty || !qFits s qRSP 3 then s else
  let w := nth 0 it 0
  if !p (slice 48 8 w) (slice 56 8 w) it then s else
  let r := act it (cmdTake s)
  pushItem qRSP (rspItem (slice 48 8 w) (slice 40 8 w) r.1 (slice 0 32 w) r.2.1 r.2.2.1) r.2.2.2

/-- Whether an item is a well-formed command of an OP. -/
def cmdForm (op : Nat) (o len : Nat) (it : List Nat) : Bool := o == op && len == 2 && it.length == 3

def cmdNop (s : State) : State := cmdAnswer (cmdForm 0) (fun _ s => (0, 0, 0, s)) s

/-- REPLAY and CANCEL on CMDQ: for sessions with DMA = 1 only. -/
def cmdOn (act : Cfg → Nat → Nat → State → Nat × Nat × Nat × State) (it : List Nat) (s : State) : Nat × Nat × Nat × State :=
  let c := cfgNow s (slice 40 8 (nth 0 it 0))
  if !cEN c then (0x01, 0, 0, s) else act c (nth 0 it 1) (nth 0 it 2) s

def cmdReplay (s : State) : State :=
  cmdAnswer (cmdForm 4) (cmdOn (fun c a b s =>
    if cDma c then askReplay c none a b s else (0x02, 0, 0, inc F.DUC_COUNT_REPLAY.REFUSED s))) s
def cmdCancel (s : State) : State :=
  cmdAnswer (cmdForm 5) (cmdOn (fun c a _ s => if cDma c then askCancel c none a s else (0x02, 0, 0, s))) s
def cmdStatus (s : State) : State := cmdAnswer (cmdForm 6) (cmdOn (fun c _ _ s => askStatus c s)) s

/-- CMDQ_INVALID: another OP, LEN or length, or a blot. -/
def cmdInvalid (blot : Bool) (s : State) : State :=
  cmdAnswer (fun o len it => blot || !(len == 2 && it.length == 3 && (o == 0 || o == 4 || o == 5 || o == 6))) (fun _ s => (0x04, 0, 0, s)) s

end Sys2Proof.Machine
end

