-- ==== Sys2Proof/Machine/Eth.lean ====
section
/-!
DEFINITION. Ethernet: link states, FALLBACK, next hops, violations, the bridge and the commit of the ETH page
(R15, R153, R231, R235, R243 to R247).
-/

namespace Sys2Proof.Machine

def ethVlog (code port mac : Nat) (s : State) : State := vlog pETH 10 24 F.ETH_VLOG.ENTRY 0 code port mac s

/-- A port enters or leaves FALLBACK (R235, R244). -/
def setFallback (p : Nat) (v : Bool) (s : State) : State :=
  s |> rset (F.ETH_PSTAT.FALLBACK p) v.toNat |> rset (F.ETH_PSTAT.PREEMPT_ACTIVE p) (!v && on s (F.ETH_PCFG.PREEMPT_EN p)).toNat
    |> whenB (on s (F.ETH_PSTAT.FALLBACK p) != v) (raise pETH (4 + p))

/-- A port's link takes a state, 0 down, 1 training, 2 up (R244, R247). -/
def setLink (p v : Nat) (s : State) : State :=
  let was := rget s (F.ETH_PSTAT.LINK p)
  let s := rset (F.ETH_PSTAT.LINK p) v s
  if v = 2 ∧ was ≠ 2 then s |> inc (F.ETH_LINKS.UPS p) |> raise pETH p
  else if v ≠ 2 ∧ was = 2 then
    s |> inc (F.ETH_LINKS.DOWNS p) |> rset (F.ETH_LINKS.LAST_DOWN_LO p) (strokeNow s) |> rset (F.ETH_PSTAT.PREEMPT_ACTIVE p) 0 |> raise pETH p
  else whenB (was != v) (raise pETH p) s

/-- A frame has been received on port `p` (R247). -/
def ethIn (p : Nat) (x : EthRx) (s : State) : State :=
  s |> inc (F.ETH_RXF.FRAMES p) |> incBy (F.ETH_RXB.BYTES p) x.len |> whenB x.tagged (inc (F.ETH_RXVLAN.TAGGED p))

/-- ETH_LINK_CHANGE; `fec` is FEC_LOCK. A port that is off stays down. -/
def linkChange (p v : Nat) (fec : Bool) (s : State) : State :=
  if !on s (F.ETH_PCFG.EN p) then s else s |> setLink p (min v 2) |> rset (F.ETH_PSTAT.FEC_LOCK p) fec.toNat

/-- PCS_LOCK_LOSS: block lock lost, or a high bit error rate; the port is retrained (R243). -/
def pcsLoss (p : Nat) (hiBer : Bool) (errs : Nat) (s : State) : State :=
  s |> inc (if hiBer then F.ETH_PCS.HI_BER p else F.ETH_PCS.LOCK_LOSS p) |> incBy (F.ETH_PCS.ERR_BLOCKS p) errs |> ethVlog 0x14 p 0 |> setLink p 1

/-- PREEMPT_VERIFY_FAIL: verification fails or lapses (R235, R243). -/
def verifyFail (p : Nat) (s : State) : State :=
  if !on s (F.ETH_PCFG.PREEMPT_EN p) then s else s |> inc (F.ETH_PREEMPT.VERIFY_FAIL p) |> ethVlog 0x13 p 0 |> setFallback p true

/-- PREEMPT_VERIFY_OK. -/
def verifyOk (p : Nat) (s : State) : State := if !on s (F.ETH_PCFG.PREEMPT_EN p) then s else setFallback p false s

/-- ETH_RX_VIOLATION: a frame on port `p` from a source MAC address; `sess` is byte 1 of its payload for a datagram (R243). -/
def rxViolation (p : Nat) (bad : EthBad) (mac sess : Nat) (s : State) : State :=
  match bad with
  | .fcs => s |> inc (F.ETH_RXERR.FCS p) |> ethVlog 0x10 p mac
  | .runt => s |> inc (F.ETH_RXERR.RUNT p) |> ethVlog 0x10 p mac
  | .oversize => s |> inc (F.ETH_RXERR.OVERSIZE p) |> ethVlog 0x10 p mac
  | .pause => s |> inc (F.ETH_RXERR.PAUSE p) |> ethVlog 0x11 p mac
  | .csum => s |> inc (F.ETH_IPERR.CSUM p) |> ethVlog 0x12 p mac
  | .fragment => s |> inc (F.ETH_IPERR.FRAG p) |> ethVlog 0x12 p mac
  | .options => s |> inc (F.ETH_IPERR.OPTIONS p) |> ethVlog 0x12 p mac
  | .udpPort => s |> inc (F.ETH_RXDROP.UNKNOWN_PORT p) |> ducVlog 0x06 sess
  | .smd => s |> inc (F.ETH_PREEMPT.SMD_ERR p) |> ethVlog 0x13 p mac |> whenB (on s (F.ETH_PCFG.PREEMPT_EN p)) (setFallback p true)
  | .multiTag => inc (F.ETH_RXVLAN.MULTI_TAG_DROP p) s
  | .queueFull => inc (F.ETH_RXDROP.QUEUE_FULL p) s

/-! ### Next hops (R231, R246) -/

/-- The hub's own address of a family, where that family is on. -/
def ownAddr (s : State) (ipv6 : Bool) : Option Nat :=
  if ipv6 then (if on s F.ETH_IP6_CFG.EN then some (rget s F.ETH_IP6_HI.ADDR * 2 ^ 64 + rget s F.ETH_IP6_LO.ADDR) else none)
  else some (rget s F.ETH_IP4.ADDR)

/-- ARP_RECEIVE: an address conflict, a request for the hub, or an answer that resolves a next hop. -/
def arpReceive (p : Nat) (m : ArpMsg) (s : State) : State :=
  let own := ownAddr s m.ipv6
  if own = some m.sender then
    s |> inc (if m.ipv6 then F.ETH_ND.CONFLICT p else F.ETH_ARP.CONFLICT p) |> ethVlog 0x15 p m.mac
  else if m.answer then
    if s.eth.asked.contains (m.ipv6, m.sender) then
      { s with eth := { s.eth with hops := s.eth.hops ++ [(m.ipv6, m.sender)], asked := s.eth.asked.filter (fun x => x != (m.ipv6, m.sender)) } }
    else s
  else
    let s := inc (if m.ipv6 then F.ETH_ND.NS_RX p else F.ETH_ARP.REQ_RX p) s
    if own = some m.target then
      s |> inc (if m.ipv6 then F.ETH_ND.NA_TX p else F.ETH_ARP.REPLY_TX p) |> emit (.arp p 1 m.ipv6 m.sender)
    else s

/-- ARP_RETRY: a next hop that has not answered is asked for again. -/
def arpRetry (p : Nat) (ipv6 : Bool) (addr : Nat) (s : State) : State :=
  if s.eth.asked.contains (ipv6, addr) then
    s |> inc (if ipv6 then F.ETH_ND.RESOLVE_FAIL p else F.ETH_ARP.RESOLVE_FAIL p) |> raise pETH 9 |> emit (.arp p 0 ipv6 addr)
  else s

/-- ARP_AGE_EXPIRY: a resolved next hop must be resolved again. -/
def arpAge (ipv6 : Bool) (addr : Nat) (s : State) : State :=
  { s with eth := { s.eth with hops := s.eth.hops.filter (fun x => x != (ipv6, addr)) } }

/-! ### The bridge (R15, R153, R235) -/

/-- BRIDGE_FORWARD: a frame received on E2 or E3; `fits` says that its queue has room, `window` that a window of the stroke fits it. -/
def bridgeForward (p : Nat) (ptp : Option PtpBridged) (fits window : Bool) (s : State) : State :=
  if p ≠ 2 ∧ p ≠ 3 then s else
  let out := 5 - p
  if !on s F.ETH_CTRL.BRIDGE_EN || !portUp s p || !portUp s out || !fits then inc (F.ETH_BRIDGE.DROPPED p) s
  else if on s (F.ETH_PSTAT.FALLBACK out) && !window then s |> inc (F.ETH_BRIDGE.DROPPED p) |> inc (F.ETH_FALLBACK.BRIDGE_DROP out)
  else
    let r : State × Option Int := match ptp with
      | none => (s, none)
      | some m => let x := tcForward m.event m.timed m.corr m.residence s; (x.1, some x.2)
    r.1 |> inc (F.ETH_BRIDGE.FORWARDED p) |> emit (.bridged out r.2)

/-! ### The commit of the ETH page (R246, R247) -/

/-- The hub announces its own addresses on a port. -/
def announceOwn (p : Nat) (s : State) : State :=
  s |> emit (.arp p 2 false (rget s F.ETH_IP4.ADDR))
    |> whenB (on s F.ETH_IP6_CFG.EN) (emit (.arp p 2 true (rget s F.ETH_IP6_HI.ADDR * 2 ^ 64 + rget s F.ETH_IP6_LO.ADDR)))

/-- The ETH page's part of a commit: a port switched off goes down, a change of SPEED or FEC retrains it, a change of PREEMPT_EN ends
what was in force, and a new MAC address is announced on every port that is up. -/
def ethCommit (before : State) (s : State) : State :=
  let ch (f : Fld) : Bool := rget before f != rget s f
  let s := forAll (List.range 4) (fun p s =>
    if !on s (F.ETH_PCFG.EN p) then (if rget s (F.ETH_PSTAT.LINK p) = 0 then s else setLink p 0 s)
    else if ch (F.ETH_PCFG.SPEED p) || ch (F.ETH_PCFG.FEC p) || ch (F.ETH_PCFG.EN p) then setLink p 1 s
    else if ch (F.ETH_PCFG.PREEMPT_EN p) then
      s |> rset (F.ETH_PSTAT.PREEMPT_ACTIVE p) 0 |> whenB (on s (F.ETH_PSTAT.FALLBACK p)) (setFallback p false)
    else s) s
  whenB (ch F.ETH_MAC.BASE) (forAll ((List.range 4).filter (portUp s)) announceOwn) s

end Sys2Proof.Machine
end

