-- ==== Sys2Proof/Machine/Atu.lean ====
section
/-!
DEFINITION. The address translation unit: the cache, the page walk, invalidation and faults on record (R308 to R312, R320).
-/

namespace Sys2Proof.Machine

/-! ### The cache (R309) -/

/-- 4 KB pages of a leaf by its size: 4 KB, 2 MB, 1 GB. -/
def leafPages (size : Nat) : Nat := 512 ^ size

/-- ATU_OCC follows the cache. -/
def showOcc (s : State) : State :=
  let n (z : Nat) : Nat := (s.dma.tlb.filter (fun e => e.size == z)).length
  s |> rset F.ATU_OCC.N4K (n 0) |> rset F.ATU_OCC.N2M (n 1) |> rset F.ATU_OCC.N1G (n 2)

/-- Whether a leaf maps a page. -/
def tlbMaps (page : Nat) (e : Tlb) : Bool := decide (e.iova ≤ page ∧ page < e.iova + leafPages e.size)

/-- Whether a leaf grants what an access needs: 0 nothing, 1 W, 2 RD. -/
def tlbGrants (need : Nat) (e : Tlb) : Bool := if need = 1 then e.w else if need = 2 then e.rd else true

/-- A leaf goes into the cache; with 1,024 in it the least recently used makes room (R309). -/
def tlbInsert (e : Tlb) (s : State) : State :=
  let keep := s.dma.tlb.filter (fun x => x.iova != e.iova || x.size != e.size)
  let keep := if 1024 ≤ keep.length then keep.dropLast else keep
  let slot := ((List.range 1024).find? (fun i => keep.all (fun x => x.slot != i))).getD 0
  s |> setDma (fun d => { d with tlb := { e with slot := slot } :: keep }) |> showOcc

/-- A translation without a walk: the bus address and the bytes up to the end of its page, and the cache with the hit. -/
def tlbFind (iova need : Nat) (s : State) : Option (Nat × Nat × State) :=
  if !on s F.ATU_CTRL.EN then some (iova, 2 ^ 64, s) else
  if 2 ^ 48 ≤ iova then none else
  match s.dma.tlb.find? (fun e => tlbMaps (iova / 4096) e && tlbGrants need e) with
  | none => none
  | some e =>
    let d := iova - e.iova * 4096
    some (e.bus * 4096 + d, leafPages e.size * 4096 - d,
      s |> setDma (fun x => { x with tlb := { e with hits := satAdd 32 e.hits 1 } :: x.tlb.filter (fun y => y.slot != e.slot) }) |> inc F.ATU_STATS.HITS)

/-! ### The walk (R308) -/

/-- The address of the entry that a walk reads. -/
def walkAddr (w : Walk) : Nat := w.table + 8 * slice (12 + 9 * w.level) 9 w.iova

/-- A walk begins at the root; an IOVA beyond 48 bits fails without a read. -/
def startWalk (site cls ring iova need : Nat) (s : State) : State :=
  let w : Walk := { site := site, cls := cls, ring := ring, iova := iova, need := need, level := 3, table := rget s F.ATU_ROOT.ROOT * 4096 }
  if s.dma.walks.any (fun x => x.site == site && x.cls == cls && x.ring == ring) then s
  else if 2 ^ 48 ≤ iova then setDma (fun d => { d with walks := d.walks ++ [{ w with cause := 5 }] }) s
  else s |> setDma (fun d => { d with walks := d.walks ++ [w] }) |> inc F.ATU_STATS.MISSES |> inc F.ATU_WALK.WALKS |> emit (.hostRead (walkAddr w) 8)

/-- What is wrong with an entry read at a level, 0 for nothing (R308, R311). -/
def entryFault (w : Walk) (e : Nat) : Nat :=
  let leaf := bitSet e 1
  if !bitSet e 0 then 1
  else if slice 4 8 e ≠ 0 then 4
  else if leaf && (w.level == 3 || slice 12 (9 * w.level) e != 0) then 3
  else if !leaf && w.level == 0 then 3
  else if leaf && ((w.need == 1 && !bitSet e 2) || (w.need == 2 && !bitSet e 3)) then 2
  else 0

/-- The first walk that still reads. -/
def liveWalk (s : State) : Option Walk := s.dma.walks.find? (fun w => w.cause == 0)

/-- The walk of a site, class and ring takes another form, or goes. -/
def setWalk (w : Walk) (v : Option Walk) (s : State) : State :=
  setDma (fun d => { d with walks := d.walks.flatMap (fun x => if x.site = w.site ∧ x.cls = w.cls ∧ x.ring = w.ring then v.toList else [x]) }) s

/-- A page-table read completes with entry `e`, `ns` after its walk began; answers the walk that has found its leaf, if it has. -/
def walkRead (w : Walk) (e ns : Nat) (s : State) : State × Option Walk :=
  let s := incBy F.DMA_RDBYTES.BYTES 8 s
  if w.stale then
    let w' := { w with stale := false, level := 3, table := rget s F.ATU_ROOT.ROOT * 4096 }
    (s |> setWalk w (some w') |> emit (.hostRead (walkAddr w') 8), none)
  else
    let bad := entryFault w e
    if bad ≠ 0 then (setWalk w (some { w with cause := bad, entry := e }) s, none)
    else if bitSet e 1 then
      let pages := leafPages w.level
      let t : Tlb := { slot := 0, size := w.level, w := bitSet e 2, rd := bitSet e 3, iova := w.iova / 4096 / pages * pages, bus := slice 12 40 e }
      (s |> setWalk w none |> tlbInsert t |> rset F.ATU_WALK.MAX_NS (max ns (rget s F.ATU_WALK.MAX_NS)), some w)
    else
      let w' := { w with level := w.level - 1, table := slice 12 40 e * 4096 }
      (s |> setWalk w (some w') |> emit (.hostRead (walkAddr w') 8), none)

/-! ### Invalidation (R310) -/

/-- Whether a scope covers pages `a` to `b`. -/
def invCovers (x : Nat × Nat × Nat) (a b : Nat) : Bool := x.1 == 0 || decide (x.2.1 ≤ b ∧ a < x.2.1 + x.2.2)

/-- An invalidation begins: its entries go, and the walks that overlap it will be discarded. -/
def invBegin (x : Nat × Nat × Nat) (s : State) : State :=
  s |> setDma (fun d => { d with
        inv := some x,
        tlb := d.tlb.filter (fun e => !invCovers x e.iova (e.iova + leafPages e.size - 1)),
        walks := d.walks.map (fun w => if w.cause = 0 ∧ invCovers x (w.iova / 4096) (w.iova / 4096) then { w with stale := true } else w) })
    |> rset F.ATU_INV.DONE 0 |> inc F.ATU_INVCNT.INVALIDATIONS |> showOcc

/-- A write of GO to ATU_INV. -/
def atuInvalidate (scope : Nat) (s : State) : State :=
  let x := (scope % 4, rget s F.ATU_INV_BASE.BASE, rget s F.ATU_INV_LEN.PAGES)
  match s.dma.inv, s.dma.held with
  | none, _ => invBegin x s
  | some _, none => s |> setDma (fun d => { d with held := some x }) |> rset F.ATU_INV.HELD 1
  | some _, some _ => s |> setDma (fun d => { d with held := some (0, 0, 0) }) |> inc F.ATU_INVCNT.MERGED

/-- ATU_INVALIDATE_DONE: the walks in progress have ended. -/
def atuInvDone (s : State) : State :=
  if s.dma.inv.isNone || s.dma.walks.any (·.stale) then s else
  let s := s |> setDma (fun d => { d with inv := none }) |> rset F.ATU_INV.DONE 1 |> raise pATU 1
  match s.dma.held with
  | none => s
  | some x => s |> setDma (fun d => { d with held := none }) |> rset F.ATU_INV.HELD 0 |> invBegin x

/-- ATU_TLB: word `w` of entry `i`, and its invalidation. -/
def tlbWord (s : State) (i w : Nat) : Nat :=
  match s.dma.tlb.findIdx? (fun e => e.slot == i) with
  | none => 0
  | some k =>
    match s.dma.tlb[k]? with
    | none => 0
    | some e =>
      if w = 0 then 1 + put 1 2 e.size + put 3 1 e.w.toNat + put 4 1 e.rd.toNat + put 12 36 e.iova + put 76 40 e.bus
      else put 0 32 e.hits + put 32 16 k
def tlbDrop (i : Nat) (s : State) : State := s |> setDma (fun d => { d with tlb := d.tlb.filter (fun e => e.slot != i) }) |> showOcc

/-- ATU_ENABLE_CHANGE: the whole cache goes (R320). -/
def atuEnable (v : Nat) (s : State) : State :=
  if rget s F.ATU_CTRL.EN = v % 2 then s else s |> rset F.ATU_CTRL.EN v |> setDma (fun d => { d with tlb := [] }) |> showOcc

/-! ### Probe (R320) -/

/-- The result of a probe: bus address, size and cause. -/
def probeResult (addr size cause : Nat) (s : State) : State :=
  s |> rset F.ATU_PROBE_RES.ADDR (addr / 4096) |> rset F.ATU_PROBE_RES.SIZE size |> rset F.ATU_PROBE_RES.CAUSE cause |> rset F.ATU_PROBE_RES.DONE 1
    |> setDma (fun d => { d with probe := none })

/-- The probe answers from the cache, if it can. -/
def probeTry (iova : Nat) (s : State) : Option State :=
  match tlbFind iova 0 s with
  | none => none
  | some (a, _, t) =>
    let size := if on s F.ATU_CTRL.EN then (match t.dma.tlb with | e :: _ => e.size | [] => 0) else 0
    some (probeResult a size 0 t)

/-- ATU_PROBE with GO. -/
def atuProbe (v : Nat) (s : State) : State :=
  let s := rset F.ATU_PROBE.IOVA v s
  if !bitSet v 0 then s else
  let iova := v - 1
  let s := s |> rset F.ATU_PROBE_RES.DONE 0 |> setDma (fun d => { d with probe := some iova })
  match probeTry iova s with
  | some t => t
  | none => if 2 ^ 48 ≤ iova then probeResult 0 0 5 s else startWalk 5 0 0 iova 0 s

/-! ### Faults on record (R311, R320) -/

/-- The counter of a cause. -/
def causeField (cause : Nat) : Fld :=
  if cause = 1 then F.ATU_FAULTS.INVALID else if cause = 2 then F.ATU_FAULTS.PERM else if cause ≤ 5 then F.ATU_FAULTS.FORMAT else F.ATU_FAULTS.READ_ERR

/-- A fault goes into ATU_FLOG. -/
def flogPush (iova cause site cls ring : Nat) (s : State) : State :=
  s |> forAll ((List.range 15).reverse) (fun i s =>
      s |> rset (F.ATU_FLOG.IOVA_HI (i + 1)) (rget s (F.ATU_FLOG.IOVA_HI i)) |> rset (F.ATU_FLOG.CAUSE (i + 1)) (rget s (F.ATU_FLOG.CAUSE i))
        |> rset (F.ATU_FLOG.SITE (i + 1)) (rget s (F.ATU_FLOG.SITE i)) |> rset (F.ATU_FLOG.CLASS (i + 1)) (rget s (F.ATU_FLOG.CLASS i))
        |> rset (F.ATU_FLOG.RING (i + 1)) (rget s (F.ATU_FLOG.RING i)))
    |> rset (F.ATU_FLOG.IOVA_HI 0) (slice 12 48 iova) |> rset (F.ATU_FLOG.CAUSE 0) cause |> rset (F.ATU_FLOG.SITE 0) site
    |> rset (F.ATU_FLOG.CLASS 0) cls |> rset (F.ATU_FLOG.RING 0) ring

end Sys2Proof.Machine
end

