-- ==== Sys2Proof/Machine/Dma.lean ====
section
/-!
DEFINITION. The DMA engine: rings, descriptors, records, faults and parks, and the loss of the link (R300 to R307, R311 to R316,
R318, R319).
-/

namespace Sys2Proof.Machine

/-! ### The ring table (R301, R306) -/

def ringWord (s : State) (k w : Nat) : Nat := (mget wideZero s.dma.tab (2 * k + w)).toNat
def setRingWord (k w v : Nat) (s : State) : State := setDma (fun d => { d with tab := mput wideZero (2 * k + w) (BitVec.ofNat 128 v) d.tab }) s
def descBase (s : State) (k : Nat) : Nat := slice 0 64 (ringWord s k 0)
def ringSize (s : State) (k : Nat) : Nat := 2 ^ slice 64 5 (ringWord s k 0)
def ringEn (s : State) (k : Nat) : Bool := bitSet (ringWord s k 0) 72
def ringWb (s : State) (k : Nat) : Bool := bitSet (ringWord s k 0) 73
def ringIrqAll (s : State) (k : Nat) : Bool := bitSet (ringWord s k 0) 74
def closeUs (s : State) (k : Nat) : Nat := slice 96 16 (ringWord s k 0)
def wbAddr (s : State) (k : Nat) : Nat := slice 0 64 (ringWord s k 1)
def coalUs (s : State) (k : Nat) : Nat := slice 64 16 (ringWord s k 1)
def coalDesc (s : State) (k : Nat) : Nat := slice 80 16 (ringWord s k 1)

/-- A ring entry's word as it is stored (R301). -/
def ringStore (w v : Nat) : Nat :=
  if w = 0 then slice 5 59 v * 32 + put 64 5 (clampSpan (some (4, 19)) (slice 64 5 v)) + put 72 3 (slice 72 3 v) + put 96 16 (slice 96 16 v)
  else slice 3 61 v * 8 + put 64 32 (slice 64 32 v)

/-- The descriptors that a ring could still use: those read and open, and those given and not read (R305). -/
def usable (s : State) (k : Nat) : Nat :=
  let x := dmaRing s k
  (x.descs.filter (fun d => !d.isClosed)).length + (if x.stall then 0 else (rget s (F.DMA_TAIL.TAIL k) + ringSize s k - x.next) % ringSize s k)

/-- STARVED follows the descriptors of a ring in service. -/
def showStarved (k : Nat) (s : State) : State :=
  let v := ringServes s k && usable s k == 0
  s |> rset (F.DMA_TAIL.STARVED k) v.toNat |> whenB (v && !on s (F.DMA_TAIL.STARVED k)) (raise pDMA 4)

/-- The engine reads the next descriptor given to a ring, words 0 and 1 only (R302). -/
def descFetch (k : Nat) (s : State) : State :=
  let x := dmaRing s k
  if !ringServes s k || x.stall || rget s (F.DMA_TAIL.TAIL k) == x.next || on s F.DMA_STATUS.LINK_PARK then s else
  let a := descBase s k + 32 * x.next
  let s := setRingD k (fun x => { x with reading := true }) s
  match tlbFind a 2 s with
  | some (b, _, t) => emit (.hostRead b 16) t
  | none => startWalk 2 1 k a 2 s

/-- A write to DMA_TAILk (R302). -/
def tailWrite (k tail : Nat) (s : State) : State :=
  if ringSize s k ≤ tail then inc (F.DMA_RSTAT.BAD_TAIL k) s
  else
    let s := s |> rset (F.DMA_TAIL.TAIL k) tail |> setRingD k (fun x => { x with stall := false }) |> showStarved k
    if (dmaRing s k).reading then s else descFetch k s

/-- DESCRIPTOR_READ_DONE: buffer, length and IRQ bit. -/
def descRead (k buf len : Nat) (irq : Bool) (s : State) : State :=
  let x := dmaRing s k
  if !x.reading || s.dma.walks.any (fun w => w.site == 2 && w.ring == k) then s else
  s |> setRingD k (fun x => { x with reading := false, next := (x.next + 1) % ringSize s k,
                                     descs := x.descs ++ [{ idx := x.next, buf := slice 3 61 buf * 8, len := slice 0 24 len, irq := irq }] })
    |> incBy F.DMA_RDBYTES.BYTES 16 |> showStarved k |> descFetch k

/-! ### Records (R303, R304, R307) -/

/-- A record's bytes: its header, the frame, and zeros to a multiple of 8. -/
def recordBytes (r : DRec) : List Byte :=
  let n := r.bytes.length
  beBytes 8 (put 48 16 n + put 46 2 r.cls) ++ r.bytes ++ List.replicate ((8 - n % 8) % 8) 0

def xferOf (s : State) (c : Nat) : Option Xfer := mget (fun _ => none) s.dma.xfer c
def setXfer (c : Nat) (x : Option Xfer) (s : State) : State := setDma (fun d => { d with xfer := mput (fun _ => none) c x d.xfer }) s

/-- A descriptor of a ring by its index. -/
def descOf (s : State) (k i : Nat) : Option Desc := (dmaRing s k).descs.find? (fun d => d.idx == i)
def modDesc (k i : Nat) (f : Desc → Desc) (s : State) : State :=
  setRingD k (fun x => { x with descs := x.descs.map (fun d => if d.idx = i then f d else d) }) s

/-- A class's transfer goes on, page by page, until its record is whole or a page must be walked for; `fuel` bounds the pages. -/
def runXfer (c : Nat) : Nat → State → State
  | 0, s => s
  | fuel + 1, s =>
    match xferOf s c with
    | none => s
    | some x =>
      let bytes := recordBytes x.rec'
      if bytes.length ≤ x.done then
        s |> setXfer c none |> inc (F.DMA_RSTAT.FRAMES x.ring) |> rset (clField c) 0
          |> whenB (closeUs s x.ring == 0) (modDesc x.ring x.desc (fun d => { d with isClosed := true }))
      else match descOf s x.ring x.desc with
      | none => s |> setXfer c none |> rset (clField c) 0
      | some d =>
        let a := d.buf + x.ofs + x.done
        match tlbFind a 1 s with
        | none => startWalk 0 c x.ring a 1 s
        | some (b, room, t) =>
          let part := (bytes.drop x.done).take room
          runXfer c fuel (t |> emit (.hostWrite b part) |> incBy F.DMA_WRBYTES.BYTES part.length |> setXfer c (some { x with done := x.done + part.length }))

/-- The pages that a record can lie in, and one step to end it. -/
abbrev xferFuel : Nat := 8

/-- The open descriptor that takes `n` bytes: those too full before it are closed, an empty one too small with STATUS 4 (R303). -/
def openFor (k n : Nat) : Nat → State → Option Desc × State
  | 0, s => (none, s)
  | fuel + 1, s =>
    match (dmaRing s k).descs.find? (fun d => !d.isClosed) with
    | none => (none, s)
    | some d =>
      if d.used + n ≤ d.len then (some d, s)
      else if d.used = 0 then
        openFor k n fuel (s |> modDesc k d.idx (fun d => { d with isClosed := true, status := 4 }) |> inc (F.DMA_RSTAT.TOO_SMALL k))
      else openFor k n fuel (modDesc k d.idx (fun d => { d with isClosed := true }) s)

/-- The frame that a ring writes next: the highest class that is neither parked nor busy, oldest first. -/
def nextRec (s : State) (k : Nat) : Option DRec :=
  [0, 1, 2].findSome? (fun c => if clsParked s c || (xferOf s c).isSome then none else (dmaRing s k).wait.find? (fun r => r.cls == c))

/-- RECORD_PLACE: a frame is reserved in the ring's open buffer and written; `pre` counts the pre-emptions on its way (R303, R305, R307). -/
def recordPlace (k pre : Nat) (s : State) : State :=
  if !ringServes s k then s else
  match nextRec s k with
  | none => s
  | some r =>
    let n := (recordBytes r).length
    let o := openFor k n (dmaRing s k).descs.length s
    let s := showStarved k o.2
    match o.1 with
    | none =>
      if r.cls = 0 ∧ usable s k = 0 then
        s |> setRingD k (fun x => { x with wait := x.wait.erase r }) |> inc F.DMA_COUNT0.C0_DROPPED |> raise pDMA 5
      else s
    | some d =>
      s |> setRingD k (fun x => { x with wait := x.wait.erase r })
        |> modDesc k d.idx (fun d => { d with used := d.used + n, recs := d.recs ++ [r] })
        |> setXfer r.cls (some { ring := k, desc := d.idx, ofs := d.used, rec' := r, done := 0, pre := decide (0 < pre) })
        |> incBy F.DMA_COUNT1.PREEMPTIONS pre |> rset (clField r.cls) 1 |> runXfer r.cls xferFuel |> showStarved k

/-- CLOSE_US_EXPIRY (R303). -/
def closeUsExpiry (k : Nat) (s : State) : State :=
  match (dmaRing s k).descs.find? (fun d => !d.isClosed) with
  | none => s
  | some d => if d.used = 0 ∨ closeUs s k = 0 then s else s |> modDesc k d.idx (fun d => { d with isClosed := true }) |> showStarved k

/-! ### Completion (R304, R318) -/

/-- `n` bytes of `v`, least significant first. -/
def leBytes (n v : Nat) : List Byte := (beBytes n v).reverse

/-- Words 2 and 3 of a finished descriptor (R302). -/
def statusWords (s : State) (d : Desc) : List Byte :=
  let late := d.recs.any (·.late)
  let rep := d.recs.any (fun r => r.rid != 0)
  leBytes 8 (put 0 24 d.used + put 24 16 d.recs.length + put 40 4 d.status + put 44 1 late.toNat + put 45 1 rep.toNat + 2 ^ 63)
    ++ leBytes 8 (put 0 32 (strokeNow s) + put 32 32 (strikeTime s / 65536))

/-- DMA SRC[0] of a ring. -/
def coalRaise (k : Nat) (s : State) : State := s |> setRingD k (fun x => { x with coal := 0 }) |> raise pDMA 0

/-- A completion that asks for an event joins the ring's coalescing (R318). -/
def coalesce (k : Nat) (s : State) : State :=
  let n := (dmaRing s k).coal + 1
  if coalDesc s k ≤ n ∨ coalUs s k = 0 then coalRaise k s
  else setRingD k (fun x => { x with coal := n, coalFrom := if n = 1 then strokeNow s else x.coalFrom }) s

/-- At a strike the rings whose COAL_US has passed raise their event. -/
def coalStrike (s : State) : State :=
  forAll (List.range 32) (fun k s =>
    let x := dmaRing s k
    if 0 < x.coal ∧ coalUs s k * 1024 ≤ (strokeNow s - x.coalFrom) * 1000 * mLive s then coalRaise k s else s) s

/-- The head write-back of a ring, if it is asked for. -/
def writeBack (head bus : Nat) (s : State) : State := emit (.hostWrite bus (leBytes 8 (put 0 19 head + put 32 32 (strokeNow s)))) s

/-- A ring whose last completion is visible has left service (R306). -/
def ringLeft (k : Nat) (s : State) : State :=
  let x := dmaRing s k
  if x.leaving && x.descs.isEmpty then s |> setRingD k (fun x => { x with leaving := false }) |> rset (F.DMA_TAIL.ENABLED k) 0 else s

/-- DESCRIPTOR_COMPLETE: the head descriptor of ring `k` is closed and its records are written (R304). -/
def descComplete (k : Nat) (s : State) : State :=
  match (dmaRing s k).descs with
  | [] => s
  | d :: _ =>
    let busy := [0, 1, 2].any (fun c => match xferOf s c with | some x => x.ring == k && x.desc == d.idx | none => false)
    if !d.isClosed || busy || on s F.DMA_STATUS.LINK_PARK then s else
    let a := descBase s k + 32 * d.idx + 16
    match if d.blind then some (0, 0, s) else tlbFind a 1 s with
    | none => startWalk 3 1 k a 1 s
    | some (b, _, s) =>
      match if ringWb s k then (tlbFind (wbAddr s k) 1 s).map (fun x => (some x.1, x.2.2)) else some (none, s) with
      | none => startWalk 3 1 k (wbAddr s k) 1 s
      | some (wb, s) =>
        let head := (d.idx + 1) % ringSize s k
        let s := if d.blind then s else emit (.hostWrite b (statusWords s d)) s
        let s := match wb with
          | none => s
          | some w => writeBack head w s
        s |> setRingD k (fun x => { x with descs := x.descs.tail }) |> rset (F.DMA_TAIL.HEAD k) head
          |> incBy F.DMA_WRBYTES.BYTES ((if d.blind then 0 else 16) + (if wb.isSome then 8 else 0)) |> setBitOf F.DMA_DONE.DONE k
          |> whenB (d.irq || ringIrqAll s k) (coalesce k) |> showStarved k |> ringLeft k

/-! ### Taking a ring out of service (R306, R313) -/

/-- The open descriptors of a ring that hold records are closed with a status; those without are given back unread. -/
def closeOpen (k status : Nat) (s : State) : State :=
  setRingD k (fun x => { x with
    reading := false,
    descs := (x.descs.filter (fun d => d.isClosed || !d.recs.isEmpty)).map (fun d => if d.isClosed then d else { d with isClosed := true, status := status }) }) s

/-- Class 0 frames that wait for a ring are dropped. -/
def dropClass0 (k : Nat) (s : State) : State :=
  let n := ((dmaRing s k).wait.filter (fun r => r.cls == 0)).length
  if n = 0 then s else
  s |> setRingD k (fun x => { x with wait := x.wait.filter (fun r => r.cls != 0) }) |> incBy F.DMA_COUNT0.C0_DROPPED n |> raise pDMA 5

def parkOf (s : State) (c : Nat) : Option Park := mget (fun _ => none) s.dma.parks c
def parkId (c : Nat) : Fld := if c = 0 then F.DMA_PARK.ID0 else if c = 1 then F.DMA_PARK.ID1 else F.DMA_PARK.ID2
def setPark (c : Nat) (p : Option Park) (s : State) : State :=
  let id := match p with | none => 0 | some p => p.id
  s |> setDma (fun d => { d with parks := mput (fun _ => none) c p d.parks })
    |> (if c = 3 then (if parkOf s 2 = none then rset F.DMA_PARK.ID2 id else fun s => s) else rset (parkId c) id)

/-- The replays that go to a ring end without a REPLAY_END (R312). -/
def cancelRingReplays (k : Nat) (s : State) : State :=
  let s := setRingD k (fun x => { x with wait := x.wait.filter (fun r => r.cls != 2) }) s
  forAll (List.range 256) (fun n s =>
    if cDma (cfgNow s n) ∧ cRing (cfgNow s n) = k then
      let gone := (sessSt s n).replays.filter (fun x => x.active && x.peer.isNone)
      s |> setSess n (fun e => { e with replays := e.replays.filter (fun x => !(x.active && x.peer.isNone)) })
        |> incBy F.DUC_COUNT_REPLAY.CANCELLED gone.length |> whenB (!gone.isEmpty) (raise pDUC 2)
    else s) s |> showReplays

/-- OP 2 for a class parked in a ring: the parked record goes, the ring is disabled and FAULTED, its open descriptors are closed with
STATUS 3 (R313). -/
def dropRing (c k : Nat) (s : State) : State :=
  let s := match xferOf s c with
    | none => s
    | some x => s |> modDesc k x.desc (fun d => { d with used := x.ofs, recs := d.recs.erase x.rec' }) |> setXfer c none
  let s := s |> setRingD k (fun x => { x with descs := x.descs.map (fun d => if d.isClosed ∨ d.recs.isEmpty then d else { d with isClosed := true, status := 3 }), leaving := true })
    |> closeOpen k 3 |> setRingWord k 0 (clrBit (ringWord s k 0) 72) |> rset (F.DMA_TAIL.FAULTED k) 1 |> rset (F.DMA_TAIL.STARVED k) 0
    |> dropClass0 k
  s |> whenB (c == 2) (cancelRingReplays k) |> ringLeft k

/-- A class is no longer parked on a fault. -/
def unpark (c : Nat) (s : State) : State :=
  s |> setPark c none |> raise pDMA 2 |> (if c = 3 then rset F.DMA_IMG_CTRL.STATE 1 else rset (clField c) (if (xferOf s c).isSome then 1 else 0))

/-- Writing EN = 0 to an enabled ring (R306). -/
def ringDisable (k : Nat) (s : State) : State :=
  if !ringEn s k then s else
  let s := forAll [0, 1, 2] (fun c s =>
    match parkOf s c with
    | some p => if p.ring = k ∧ p.site < 2 then s |> dropRing c k |> unpark c else s
    | none => s) s
  let busy (s : State) (d : Desc) : Bool := [0, 1, 2].any (fun c => match xferOf s c with | some x => x.ring == k && x.desc == d.idx | none => false)
  let s := setRingWord k 0 (clrBit (ringWord s k 0) 72) s
  let s := setRingD k (fun x => { x with leaving := true, descs := x.descs.map (fun d => if !d.isClosed && busy s d then { d with isClosed := true } else d) }) s
  s |> whenB (!on s F.DMA_STATUS.LINK_PARK) (closeOpen k 5) |> dropClass0 k |> rset (F.DMA_TAIL.STARVED k) 0 |> ringLeft k

/-- EN set in a ring's entry: HEAD is 0 (R301). -/
def ringEnable (k : Nat) (s : State) : State :=
  s |> setRingD k (fun x => { wait := x.wait }) |> rset (F.DMA_TAIL.HEAD k) 0 |> rset (F.DMA_TAIL.FAULTED k) 0 |> rset (F.DMA_TAIL.ENABLED k) 1
    |> showStarved k |> descFetch k

/-- A write to the DMA_RING window: none where R301 or R306 refuses it. -/
def ringEntryWrite (k w v : Nat) (s : State) : Option State :=
  let old := ringWord s k w
  let new := ringStore w v
  if (dmaRing s k).leaving then (if w = 0 ∧ !bitSet new 72 ∧ clrBit new 72 = clrBit old 72 then some s else none)
  else if ringEn s k then
    if w = 0 ∧ clrBit new 72 = clrBit old 72 then (if bitSet new 72 then some s else some (ringDisable k s)) else none
  else
    let s := setRingWord k w new s
    some (if w = 0 ∧ bitSet new 72 then ringEnable k s else s)

/-! ### Faults and parks (R311 to R314) -/

/-- The next FAULT_ID, wrapping past 0. -/
def nextFault (s : State) : Nat := if s.dma.faultId = 65535 then 1 else s.dma.faultId + 1

/-- A fault record (R311). -/
def faultRecord (s : State) (site cause cls ring lvl id iova entry ofs len sess : Nat) (pre : Bool) : List Nat :=
  [put 56 8 5 + put 48 8 2 + put 44 4 site + put 40 4 cause + put 38 2 cls + put 37 1 pre.toNat + put 34 2 lvl + put 24 5 ring + put 0 16 id,
   iova % 2 ^ 64, entry % 2 ^ 64, put 0 32 ofs + put 32 16 len + put 48 8 sess, strokeNow s,
   put 0 32 (strikeTime s / 65536 % 1000000000) + put 32 16 (strikeTime s / 65536 / 1000000000)]

/-- A fault of a site, class and ring: its record goes to FLTQ, and the class, the ring or the fetch parks (R311, R312). `own` is the site
whose work it stops, `site` the one that the record names. -/
def faultAt (own site cause cls ring lvl iova entry : Nat) (s : State) : State :=
  let id := nextFault s
  let x := xferOf s cls
  let ofs := if own = 0 then (match x with | some x => x.done | none => 0) else if own = 4 then s.dma.imgGot else 0
  let len := if own = 0 then (match x with | some x => (recordBytes x.rec').length | none => 0) else 0
  let sess := if own = 0 then (match x with | some x => x.rec'.sess | none => 0) else 0
  let pre := own == 0 && (match x with | some x => x.pre | none => false)
  let r := faultRecord s site cause cls ring lvl id iova entry ofs len sess pre
  let s := s |> pushItem qFLT r |> setDma (fun d => { d with faultId := id }) |> inc F.DMA_COUNT1.FAULTS |> inc (causeField cause)
    |> flogPush iova cause site cls ring
  if own = 2 then
    s |> setRingD ring (fun x => { x with reading := false, stall := true }) |> raise pATU 0 |> showStarved ring
  else if own = 3 then
    let desc := (descBase s ring ≤ iova ∧ iova < descBase s ring + 32 * ringSize s ring)
    s |> inc (F.DMA_RSTAT.WB_FAULTS ring) |> raise pATU 0
      |> (if desc ∧ iova ≠ wbAddr s ring then setRingD ring (fun x => { x with descs := modNth (fun d => { d with blind := true }) x.descs 0 })
          else setRingWord ring 0 (clrBit (ringWord s ring 0) 73))
  else if own = 4 then s |> setPark 3 (some ⟨id, 4, ring⟩) |> rset F.DMA_IMG_CTRL.STATE 2 |> raise pDMA 1
  else s |> setPark cls (some ⟨id, own, ring⟩) |> rset (clField cls) 2 |> raise pDMA 1

/-- DMA_FAULT: a walk that found no leaf, or a read that failed (`cause` 6 to 9; `site` 1 a page walk, 2 a descriptor, 4 the image). FLTQ's
producer waits for room (R249, R311). -/
def dmaFault (site cause ring : Nat) (s : State) : State :=
  if !qFits s qFLT 6 then s else
  match s.dma.walks.find? (fun w => w.cause != 0) with
  | some w =>
    if w.site = 5 then s |> setWalk w none |> probeResult 0 0 w.cause
    else s |> setWalk w none |> faultAt w.site w.site w.cause w.cls w.ring w.level w.iova w.entry
  | none =>
    if cause < 6 ∨ 9 < cause then s
    else if site = 1 then match liveWalk s with
      | none => s
      | some w =>
        if w.site = 5 then s |> setWalk w none |> probeResult 0 0 cause
        else s |> setWalk w none |> faultAt w.site (if w.site = 0 then 1 else w.site) cause w.cls w.ring w.level w.iova 0
    else if site = 2 then
      let x := dmaRing s ring
      if x.reading then faultAt 2 2 cause 1 ring 0 (descBase s ring + 32 * x.next) 0 s else s
    else if site = 4 ∧ rget s F.DMA_IMG_CTRL.STATE = 1 then faultAt 4 4 cause 2 0 0 (rget s F.DMA_IMG_ADDR.ADDR + s.dma.imgGot) 0 s
    else s

/-- The image fetch reads on, page by page (R316). -/
def runFetch : Nat → State → State
  | 0, s => s
  | fuel + 1, s =>
    let len := rget s F.DMA_IMG_CTRL.LEN
    if rget s F.DMA_IMG_CTRL.STATE ≠ 1 ∨ len ≤ s.dma.imgGot ∨ on s F.DMA_STATUS.LINK_PARK then s else
    let a := rget s F.DMA_IMG_ADDR.ADDR + s.dma.imgGot
    match tlbFind a 2 s with
    | none => startWalk 4 2 0 a 2 s
    | some (b, room, t) =>
      let n := min room (len - s.dma.imgGot)
      runFetch fuel (t |> emit (.hostRead b n) |> setDma (fun d => { d with imgGot := d.imgGot + n }))
abbrev fetchFuel : Nat := 4100

/-- What a walk's leaf sets going again. -/
def walkDone (w : Walk) (s : State) : State :=
  match w.site with
  | 0 => if clsParked s w.cls then s else runXfer w.cls xferFuel s
  | 2 => descFetch w.ring s
  | 4 => runFetch fetchFuel s
  | 5 => match s.dma.probe with
    | none => s
    | some p => (probeTry p s).getD s
  | _ => s

/-- PAGE_WALK_READ: the entry read, and the nanoseconds since its walk began (R309). -/
def pageWalkRead (entry ns : Nat) (s : State) : State :=
  match liveWalk s with
  | none => s
  | some w =>
    let r := walkRead w (entry % 2 ^ 64) ns s
    match r.2 with
    | none => r.1
    | some w => walkDone w r.1

/-- Which park a DMA_RESUME of a class and FAULT_ID ends: 3 for the image fetch (R313). -/
def resumeOf (cls id : Nat) (s : State) : Option Nat :=
  ([cls, 3].filter (fun c => c != 3 || cls == 2)).find? (fun c => match parkOf s c with | some p => p.id == id | none => false)

/-- The fetch ends with ERR = 1 (R316). -/
def fetchAbort (s : State) : State :=
  s |> rset F.DMA_IMG_CTRL.STATE 0 |> rset F.DMA_IMG_CTRL.ERR 1 |> setPark 3 none
    |> setDma (fun d => { d with walks := d.walks.filter (fun w => w.site != 4) }) |> raise pDMA 7

/-- OP 1: translate again at the parked byte and go on. -/
def parkRetry (c : Nat) (s : State) : State := s |> unpark c |> (if c = 3 then runFetch fetchFuel else runXfer c xferFuel)

/-- OP 2: drop. -/
def parkDrop (c : Nat) (s : State) : State :=
  match parkOf s c with
  | none => s
  | some p => if c = 3 then s |> raise pDMA 2 |> fetchAbort else s |> dropRing c p.ring |> unpark c

/-- DMA_RESUME with GO (R313). -/
def dmaResume (op cls id : Nat) (s : State) : State :=
  match resumeOf cls id s with
  | none => inc F.DMA_LINK.STALE_RESUME s
  | some c => if op = 1 then parkRetry c s else if op = 2 then parkDrop c s else s

/-- PARK_TIMEOUT of a class (R314). -/
def parkTimeout (c : Nat) (s : State) : State :=
  if rget s F.DMA_CTRL.PARK_MAX_MS = 0 ∨ 2 < c ∨ (parkOf s c).isNone then s else s |> parkDrop c |> inc F.DMA_COUNT1.AUTO_DROPS |> raise pDMA 3

/-! ### Loss of the link (R315) -/

/-- Every class parks on link. -/
def linkPark (s : State) : State :=
  if on s F.DMA_STATUS.LINK_PARK then s else
  s |> forAll [0, 1, 2, 3] (fun c => setPark c none) |> forAll [0, 1, 2] (fun c => rset (clField c) 3)
    |> rset F.DMA_STATUS.LINK_PARK 1 |> inc F.DMA_LINK.PARKS |> setDma (fun d => { d with walks := [] })
    |> forAll (List.range 32) (fun k => setRingD k (fun x => { x with reading := false }))

/-- A record of an interrupted descriptor as it is written again: a class 1 frame late, with a counter of its own (R217, R315). -/
def remake (r : DRec) (s : State) : DRec × State :=
  if r.cls ≠ 1 then (r, s) else
  let c := cfgNow s r.sess
  let b := sealFrame c 0 r.frame.typ 0 (fineHeader c 0 0 true r.frame ++ wordBytes r.frame.words) s
  ({ r with late := true, bytes := b.1 }, b.2)

/-- The records of a list made again, in order. -/
def remakeAll : List DRec → State → List DRec × State
  | [], s => ([], s)
  | r :: rest, s =>
    let a := remake r s
    let b := remakeAll rest a.2
    (a.1 :: b.1, b.2)

/-- The descriptors of a ring that were open at the park are closed with STATUS 2, and their records of classes 1 and 2 come first again. -/
def interruptRing (k : Nat) (s : State) : State :=
  let x := dmaRing s k
  let hit (d : Desc) : Bool := (!d.isClosed && !d.recs.isEmpty)
    || [0, 1, 2].any (fun c => match xferOf s c with | some y => y.ring == k && y.desc == d.idx | none => false)
  let open' := x.descs.filter hit
  let lost := (open'.flatMap (·.recs)).filter (fun r => r.cls == 0)
  let again := remakeAll ((open'.flatMap (·.recs)).filter (fun r => r.cls != 0)) s
  let status := if x.leaving then 5 else 2
  again.2 |> setRingD k (fun x => { x with
        descs := x.descs.map (fun d => if hit d then { d with isClosed := true, status := status, used := 0, recs := [] } else d),
        wait := again.1 ++ x.wait })
    |> incBy F.DMA_LINK.INTERRUPTED (if x.leaving then 0 else open'.length) |> whenB (!open'.isEmpty && !x.leaving) (raise pDMA 6)
    |> incBy F.DMA_COUNT0.C0_OVERWRITTEN lost.length |> whenB (!lost.isEmpty) (raise pDMA 5)
    |> whenB x.leaving (closeOpen k 5) |> ringLeft k |> showStarved k

/-- The head write-back of a ring is sent again. -/
def wbAgain (k : Nat) (s : State) : State :=
  if !(ringEn s k && ringWb s k) then s else
  match tlbFind (wbAddr s k) 1 s with
  | none => s
  | some (b, _, t) => writeBack (rget t (F.DMA_TAIL.HEAD k)) b t

/-- DMA_CTRL.RESUME with the link up and Bus Master Enable set (R315). -/
def linkResume (s : State) : State :=
  if !on s F.DMA_STATUS.LINK_PARK || !on s F.PCIE_LINK.DL_UP || !on s F.PCIE_LINK.BME then s else
  s |> forAll (List.range 32) interruptRing |> forAll [0, 1, 2] (fun c s => s |> setXfer c none |> rset (clField c) 0)
    |> rset F.DMA_STATUS.LINK_PARK 0 |> forAll (List.range 32) (fun k s => s |> wbAgain k |> descFetch k) |> runFetch fetchFuel

/-! ### The image fetch (R316) -/

/-- DMA_IMG_CTRL.GO. -/
def fetchGo (len : Nat) (s : State) : State :=
  if rget s F.DMA_IMG_CTRL.STATE = 1 ∨ rget s F.DMA_IMG_CTRL.STATE = 2 then s else
  s |> rset F.DMA_IMG_CTRL.LEN len |> rset F.DMA_IMG_CTRL.STATE 1 |> rset F.DMA_IMG_CTRL.ERR 0 |> setDma (fun d => { d with imgGot := 0 })
    |> runFetch fetchFuel

/-- ABORT. -/
def fetchAbortReq (s : State) : State := if rget s F.DMA_IMG_CTRL.STATE = 1 ∨ rget s F.DMA_IMG_CTRL.STATE = 2 then fetchAbort s else s

end Sys2Proof.Machine
end

