-- ==== Sys2Proof/Machine/Eva.lean ====
section
/-!
DEFINITION. The event aggregator: composition of the 128 sources, messages, IRQ_N, EVQ items and slot triggers (R382 to R388).
-/

namespace Sys2Proof.Machine

/-- The page bits of one EV source (R383). -/
def evBits (n : Nat) : List (Nat × Nat) :=
  let one (p b : Nat) : List (Nat × Nat) := [(p, b)]
  let bits (p : Nat) (bs : List Nat) : List (Nat × Nat) := bs.map (fun b => (p, b))
  let hdrs (ps : List Nat) : List (Nat × Nat) := ps.map (fun p => (p, hdrBit))
  match n with
  | 0 => one pSYS 0 | 1 => one pSYS 1 | 2 => bits pSYS [2, 4] | 3 => one pSYS 3 | 4 => one pSYS 5
  | 5 => one pPEN 0 | 6 => bits pPEN [1, 2] | 7 => one pPEN 3 | 8 => one pPEN 4 | 9 => one pPEN 5 | 10 => bits pPEN [6, 7]
  | 11 => bits pSCRR [0, 1, 2, 3, 4] | 12 => bits pSCRR [8, 9, 10, 11, 12, 13, 14, 15]
  | 13 => bits pSCRV [0, 1, 2, 3, 4] | 14 => bits pSCRV [8, 9, 10, 11, 12, 13, 14, 15]
  | 15 => one pEVA 0 ++ hdrs [pSYS, pPEN, pSCRR, pSCRV, pEVA]
  | 16 => one pTSU 0 | 17 => one pTSU 1 | 18 => one pTSU 2 | 19 => one pTSU 3 | 20 => one pTSU 4 | 21 => one pTSU 5
  | 22 => one pPTP 0 | 23 => one pPTP 1 | 24 => one pPTP 2 | 25 => one pPTP 3 | 26 => one pPTP 4 | 27 => one pPTP 5
  | 28 => bits pTOUT [0, 1, 2, 3] | 29 => bits pTOUT [4, 5, 6, 7] | 30 => bits pTOUT [8, 9, 10, 11, 12, 13, 14, 15]
  | 31 => hdrs [pTSU, pPTP, pTOUT]
  | 32 => one pILK 0 | 33 => one pILK 1 | 34 => one pILK 2 | 35 => one pILK 3 | 36 => one pILK 4 | 37 => one pILK 5
  | 38 => one pILK 6 | 39 => one pILK 7
  | 40 => one pBCAST 0 | 41 => one pBCAST 1 | 42 => one pBCAST 2 | 43 => hdrs [pILK, pBCAST]
  | 48 => one pFEGRP 0 | 49 => one pFEGRP 1 | 50 => one pFECH0 0 | 51 => one pFECH0 1 | 52 => one pFECH1 0 | 53 => one pFECH1 1
  | 54 => one pSLOW 0 | 55 => one pSLOW 1 | 56 => one pEXC 0 | 57 => one pEXC 1
  | 58 => hdrs [pFEGRP, pFECH0, pFECH1, pSLOW, pEXC]
  | 64 => one pNIB 0 | 65 => one pNIB 1 | 66 => one pNIB 2 | 67 => one pNIB 3 | 68 => one pNIB 4 | 69 => bits pNIB [5, 6]
  | 70 => bits pTRIM [0, 1] | 71 => one pTRIM 2 | 72 => bits pTRIM [3, 7] | 73 => bits pTRIM [4, 6] | 74 => one pTRIM 5
  | 75 => bits pFLT [0, 1] | 76 => bits pFLT [2, 3] | 77 => bits pFLT [4, 5, 6] | 78 => one pFLT 7 ++ bits pFAST [0, 1]
  | 79 => hdrs [pNIB, pTRIM, pFLT, pFAST]
  | 80 => one pTRG 0 | 81 => one pTRG 1 | 82 => one pTRG 2 | 83 => one pTRG 3
  | 84 => bits pCAP [0, 1] | 85 => one pCAP 2 | 86 => one pCAP 3 | 87 => one pCAP 4
  | 88 => one pDUC 0 | 89 => bits pDUC [1, 2] | 90 => one pDUC 3 | 91 => one pDUC 4 | 92 => one pDUC 5 | 93 => one pDUC 6
  | 94 => one pDUC 7 | 95 => hdrs [pTRG, pCAP, pDUC]
  | 96 => bits pETH [0, 1, 2, 3] | 97 => bits pETH [4, 5, 6, 7] | 98 => one pETH 8 | 99 => one pETH 9 | 100 => one pETH 10
  | 101 => one pQUE 0 | 102 => one pQUE 1 | 103 => one pQUE 2 | 104 => one pQUE 3 | 105 => one pQUE 4 | 106 => one pQUE 5
  | 107 => one pQUE 6 | 108 => one pQUE 7 | 109 => one pQUE 8 | 110 => bits pQUE [9, 10] | 111 => hdrs [pETH, pQUE]
  | 112 => bits pINKW [0, 3] | 113 => one pINKW 1 | 114 => one pINKW 2 | 115 => bits pINKW [4, 11]
  | 116 => bits pINKW [5, 6, 8, 10] | 117 => bits pINKW [7, 9]
  | 118 => one pDMA 0 | 119 => bits pDMA [1, 2, 3] | 120 => bits pDMA [4, 5, 6, 7]
  | 121 => bits pATU [0, 1] ++ bits pPCIE [0, 1, 2, 3]
  | 122 => bits pLDU [0, 1] | 123 => bits pLDU [2, 3, 4, 7, 8] | 124 => bits pLDU [5, 6]
  | 125 => bits pTEST [0, 1, 2, 3, 4, 5, 6, 7] | 126 => bits pMON [0, 1, 2, 3, 4]
  | 127 => hdrs [pINKW, pDMA, pATU, pPCIE, pLDU, pTEST, pMON]
  | _ => []

/-- A source that is never raised, whose EVA bits read 0 and ignore writes (R383). -/
def evReserved (n : Nat) : Bool := (evBits n).isEmpty

/-- The raw state of a source (R382), or its force (R388). -/
def evRaw (s : State) (n : Nat) : Bool :=
  !evReserved n && (s.eva.forced.contains n
    || (evBits n).any (fun x => bitSet (rget s (F.EVT_PEND.PEND x.1)) x.2 && !bitSet (rget s (F.EVT_MASK.MASK x.1)) x.2))

def evPend (s : State) (n : Nat) : Bool := bitSet (rget s (F.EVA_PEND.PEND (n / 64))) (n % 64)
def evEn (s : State) (n : Nat) : Bool := bitSet (rget s (F.EVA_EN.EN (n / 64))) (n % 64)
def evVec (s : State) (n : Nat) : Nat := rget s (F.EVA_VEC.VECTOR (n / 8) (n % 8))

/-- IRQ_N is driven low (R384). -/
def irqLow (s : State) : Bool :=
  on s F.EVA_CTRL.IRQ_EN && (List.range 128).any (fun n => evPend s n && on s (F.EVA_VEC.IRQ (n / 8) (n % 8)))

/-- IRQ_N follows EVA_PEND and the IRQ bits. -/
def irqUpdate (s : State) : State :=
  let now := irqLow s
  let was := on s F.EVA_IRQ.LEVEL
  if now = was then s
  else s |> rset F.EVA_IRQ.LEVEL now.toNat |> whenB now (inc F.EVA_IRQ.ASSERTS) |> emit (.irqLevel now)

/-- Whether a vector's message cannot go now: masked, link down, or Bus Master Enable clear (R385). -/
def vecBlocked (s : State) (v : Nat) : Bool :=
  s.pcie.funcMask || bitSet s.pcie.vecMask v || !on s F.PCIE_LINK.DL_UP || !on s F.PCIE_LINK.BME

/-- A vector's message goes, or is held (R385). -/
def vecSend (v : Nat) (s : State) : State :=
  if vecBlocked s v then s |> setBitOf F.EVA_VPEND.HELD v |> raise pEVA 0
  else
    let s := s |> inc F.EVA_MSGS.SENT |> emit (.msix v)
    if rget s F.EVA_CTRL.VEC_GAP_US = 0 ∨ s.eva.inGap.contains v then s
    else { s with eva := { s.eva with inGap := s.eva.inGap ++ [v] } }

/-- A rise on a vector: a message, or one more folded into the message at the end of the gap (R385). -/
def vecRise (v : Nat) (s : State) : State :=
  if s.eva.inGap.contains v ∧ rget s F.EVA_CTRL.VEC_GAP_US ≠ 0 then
    { inc F.EVA_MSGS.COALESCED s with
      eva := { s.eva with folded := if s.eva.folded.contains v then s.eva.folded else s.eva.folded ++ [v] } }
  else vecSend v s

/-- EVA_VPEND.VPEND: vectors with a pending enabled source. -/
def vpendUpdate (s : State) : State :=
  rset F.EVA_VPEND.VPEND (bitsOf ((((List.range 128).filter (fun n => evPend s n && evEn s n))).map (evVec s))) s

/-- The stamp of the latest strike as the streams carry it: TAI ns mod 2³², and the low seconds. -/
def stampNs (s : State) : Nat := strikeTime s / 65536 % 2 ^ 32
def stampSec (s : State) : Nat := strikeTime s / (65536 * 1000000000)

/-- The EVQ item of one page bit (R255, R386). -/
def evqItem (s : State) (n p b : Nat) (detail : Option Nat) : List Nat :=
  [(strokeNow s % 2 ^ 32) * 2 ^ 32 + b * 2 ^ 16 + (p % 256) * 2 ^ 8 + n, (stampSec s % 65536) * 2 ^ 32 + stampNs s]
    ++ detail.toList

/-- The raw state of a source rises with the page bits `fresh` that have just shown, or with its force: no other bit held it at 1 (R382, R384). -/
def rawEdge (s : State) (n : Nat) (fresh : List (Nat × Nat)) : Bool :=
  (!fresh.isEmpty || s.eva.forced.contains n)
    && !(evBits n).any (fun x =>
      bitSet (rget s (F.EVT_PEND.PEND x.1)) x.2 && !bitSet (rget s (F.EVT_MASK.MASK x.1)) x.2 && !fresh.contains x)

/-- EVA serves a source: its page bits' rises give EVQ items in ascending page and bit, a rise of its EVA_PEND bit gives the message and
the level, and the rising edge of its raw state the slot triggers (R384 to R387). -/
def evaServe (n : Nat) (s : State) : State :=
  let bits := evBits n
  let sorted := bits.flatMap (fun x => s.eva.rises.filter (fun r => r.1 == x.1 && r.2.1 == x.2))
  let fresh := sorted.map (fun r => (r.1, r.2.1)) ++ s.eva.shown.filter bits.contains
  let raw := evRaw s n
  let edge := raw && rawEdge s n fresh
  let was := evPend s n
  let s := { s with eva := { s.eva with rises := s.eva.rises.filter (fun r => !bits.contains (r.1, r.2.1))
                                        shown := s.eva.shown.filter (fun x => !bits.contains x) } }
  let s := if on s F.EVA_CTRL.EVQ_EN && bitSet (rget s (F.EVA_EVQ.EVQ (n / 64))) (n % 64) then
      forAll sorted (fun r s => s |> pushItem qEV (evqItem s n r.1 r.2.1 r.2.2) |> inc F.EVA_ITEMS.ITEMS) s
    else s
  let s := if raw && !was then
      s |> setBitOf (F.EVA_PEND.PEND (n / 64)) (n % 64) |> rset F.EVA_LAST.EV n |> rset F.EVA_LAST.STROKE_LO (strokeNow s)
        |> whenB (on s F.EVA_CTRL.MSIX_EN && evEn s n) (vecRise (evVec s n))
    else s
  let s := whenB edge (scribeEvent n) s
  { s with eva := { s.eva with forced := s.eva.forced.filter (· != n) } } |> irqUpdate |> vpendUpdate

/-- The end of a vector's gap: the folded rises send one message (R385). -/
def gapEnd (v : Nat) (s : State) : State :=
  let f := s.eva.folded.contains v
  { s with eva := { s.eva with inGap := s.eva.inGap.filter (· != v), folded := s.eva.folded.filter (· != v) } } |> whenB f (vecSend v)

/-- Writing 1 to EVA_PEND bits clears each unless its raw state is still 1 (R384, R387). -/
def evaPendClear (j m : Nat) (s : State) : State :=
  let keep := bitsOf ((indicesWhere 64 (fun i => bitSet m i && evRaw s (64 * j + i))))
  s |> rset (F.EVA_PEND.PEND j) (clrBits (rget s (F.EVA_PEND.PEND j)) (clrBits m keep)) |> irqUpdate |> vpendUpdate

/-- A scribe that waits for one of the sources by WAITE has seen it at 1 (R353). -/
def waiterSees (ns : List Nat) (h : Nat) (s : State) : State :=
  match (half s h).wait with
  | .event x => if ns.contains x then setHalf h (fun a => { a with wait := .raised }) s else s
  | _ => s

/-- Writing 1 to EVA_FORCE bits sets their raw state for one cycle (R388): a WAITE sees it, and each is then served. -/
def evaForce (j m : Nat) (s : State) : State :=
  let ns := (indicesWhere 64 (bitSet m)).map (fun i => 64 * j + i) |>.filter (fun n => !evReserved n)
  { s with eva := { s.eva with forced := s.eva.forced ++ ns } } |> forAll [0, 1] (waiterSees ns) |> forAll ns evaServe

/-- Every held vector sends one message once nothing holds it, in ascending order (R385). -/
def releaseHeld (s : State) : State :=
  forAll (List.range 32) (fun v s =>
    if bitSet (rget s F.EVA_VPEND.HELD) v && !vecBlocked s v then s |> clrBitOf F.EVA_VPEND.HELD v |> vecSend v else s) s

/-- A write that changes VECTOR_n, or sets EN bit n, while bit n is pending counts as a rise for the vector now named (R385). -/
def evaRemap (before : State) (s : State) : State :=
  forAll ((List.range 128).filter (fun n => evPend s n && evEn s n && on s F.EVA_CTRL.MSIX_EN
      && (evVec s n != evVec before n || !evEn before n))) (fun n s => vecRise (evVec s n) s) s
    |> irqUpdate |> vpendUpdate

/-- exp(a / b) in units of 2⁻⁶⁴, by its series: `fuel` terms from term `k` on, `t` the term at hand. -/
def expSeries (a b : Nat) : Nat → Nat → Nat → Nat
  | 0, _, _ => 0
  | fuel + 1, k, t => t + expSeries a b fuel (k + 1) (t * a / (b * (k + 1)))

/-- AF of R395 in Q4.12, rounded to nearest, at a temperature in 0.25 °C: the exponent 8,123.5 (1/368.15 − 1/T) is the fraction
812,350 (25 q − 9,500) / (36,815 (25 q + 27,315)). -/
def arrhenius (q : Int) : Nat :=
  let a := (812350 * (25 * q - 9500)).natAbs
  let b := (36815 * (25 * q + 27315)).toNat
  let e := expSeries a b 100 0 (2 ^ 64)
  min 0xFFFF (if q < 380 then (4096 * 2 ^ 64 * 2 + e) / (2 * e) else (4096 * e * 2 + 2 ^ 64) / 2 ^ 65)

/-- A second passes on MON: the life and the uptime (R395, R399). With it the seconds of a holdover and the messages of PTP count on (R141, R161). -/
def monSecond (s : State) : State :=
  let a := arrhenius (rgetI s F.MON_TJ.TJ)
  let acc := s.mon.eqFrac + a
  { s with mon := { s.mon with eqFrac := acc % 4096 }, ptp := { s.ptp with pps := 0, limiting := false } }
    |> whenB (rget s F.TSU_STATUS.STATE == 3) (inc F.TSU_HOLD_INFO.SINCE_S)
    |> rset F.MON_LIFE.AF_NOW a |> incBy F.MON_LIFE.EQ_S (acc / 4096) |> inc F.MON_UPTIME.UPTIME_S

end Sys2Proof.Machine
end

