-- ==== Sys2Proof/Machine/Pcie.lean ====
section
/-!
DEFINITION. The PCI Express link: its ups, downs and resets, Bus Master Enable, MSI-X masks, violations and the BAR2 window (R285,
R298 to R300, R315, R317, R321, R385).
-/

namespace Sys2Proof.Machine

def setPcie (f : Pcie → Pcie) (s : State) : State := { s with pcie := f s.pcie }

/-- An entry of PCIE_VLOG, with the low bits of the requester's identity (R389, R390). -/
def pcieVlog (code rid : Nat) (s : State) : State := vlog pPCIE 2 16 F.PCIE_VLOG.ENTRY 4 code 0 rid s

/-- Bus Master Enable takes a value, as PCIE_LINK and DMA_STATUS show it. -/
def setBme (v : Bool) (s : State) : State := s |> rset F.PCIE_LINK.BME v.toNat |> rset F.DMA_STATUS.BME v.toNat

/-- The data link goes down (R315, R321). -/
def pcieLinkDown (s : State) : State :=
  if !on s F.PCIE_LINK.DL_UP then s else
  s |> rset F.PCIE_LINK.DL_UP 0 |> inc F.PCIE_LCNT.DOWNS |> rset F.PCIE_DOWN.STROKE (strokeNow s) |> raise pPCIE 0 |> linkPark

/-- The data link comes up at a rate (Gen 1 to 4) and a width; held messages go (R318, R321, R385). -/
def pcieLinkUp (speed width : Nat) (s : State) : State :=
  if on s F.PCIE_LINK.DL_UP then s else
  let changed := rget s F.PCIE_LINK.SPEED != speed || rget s F.PCIE_LINK.WIDTH != width
  s |> rset F.PCIE_LINK.DL_UP 1 |> rset F.PCIE_UP.STROKE (strokeNow s) |> raise pPCIE 0
    |> whenB (rget s F.PCIE_LINK.SPEED != speed) (inc F.PCIE_LCNT.SPEED_CHG) |> whenB changed (raise pPCIE 1)
    |> rset F.PCIE_LINK.SPEED speed |> rset F.PCIE_LINK.WIDTH width |> releaseHeld

/-- Configuration space returns to its reset values: Bus Master Enable, MSI-X Enable and Function Mask 0, every vector masked, the
default payload and read request sizes; the DMA engine parks (R300, R315). -/
def configReset (s : State) : State :=
  s |> setBme false |> rset F.PCIE_LINK.MSIX_EN 0 |> rset F.PCIE_SIZES.MPS 128 |> rset F.PCIE_SIZES.MRRS 512
    |> setPcie (fun p => { p with funcMask := false, vecMask := 0xFFFFFFFF }) |> linkPark

def hotReset (s : State) : State := s |> inc F.PCIE_RESETS.HOT |> raise pPCIE 3 |> configReset
def functionReset (s : State) : State := s |> inc F.PCIE_RESETS.FLR |> raise pPCIE 3 |> configReset
def conventionalReset (s : State) : State := configReset s

/-- The function enters D3hot (R315). -/
def d3Entry (s : State) : State := s |> inc F.PCIE_RESETS.D3 |> linkPark

/-- Whether a transfer of a class is under way. -/
def dmaBusy (s : State) : Bool := [0, 1, 2].any (fun c => (mget (fun _ => none) s.dma.xfer c).isSome) || rget s F.DMA_IMG_CTRL.STATE == 1

/-- Bus Master Enable is cleared; during a transfer that is violation 0x0B (R315, R317). -/
def bmeClear (rid : Nat) (s : State) : State :=
  if !on s F.PCIE_LINK.BME then s else s |> whenB (dmaBusy s) (pcieVlog 0x0B rid) |> setBme false |> linkPark

/-- Bus Master Enable is set: held messages go (R385). -/
def bmeSet (s : State) : State := s |> setBme true |> releaseHeld

/-- A vector is unmasked, or, with no vector named, the function: every message held and no longer blocked goes (R385). -/
def msixUnmask (vec : Option Nat) (s : State) : State :=
  match vec with
  | none => s |> setPcie (fun p => { p with funcMask := false }) |> rset F.PCIE_LINK.MSIX_EN 1 |> releaseHeld
  | some v => s |> setPcie (fun p => { p with vecMask := if v < 32 then clrBit p.vecMask v else p.vecMask }) |> releaseHeld

/-- One AER message is due: it is sent, unless another went less than 1 ms ago; then it is counted and violation 0x08 is entered
(R317). -/
def aerMessage (rid : Nat) (s : State) : State :=
  match s.pcie.aerMs with
  | none => s |> inc F.PCIE_AER.SENT |> setPcie (fun p => { p with aerMs := some (strokeNow s) })
  | some t =>
    if strokeNow s < t + strokesOfUs 1000 s then s |> inc F.PCIE_AER.LIMITED |> pcieVlog 0x08 rid
    else s |> inc F.PCIE_AER.SENT |> setPcie (fun p => { p with aerMs := some (strokeNow s) })

/-- The link passes through Recovery: above RECOV_LIM in one second it falls back one rate, with FALLBACK_EN (R317). -/
def pcieRecovery (rid : Nat) (s : State) : State :=
  let sec := rget s F.MON_UPTIME.UPTIME_S
  let n := if s.pcie.recovSec = sec then s.pcie.recov + 1 else 1
  let s := s |> inc F.PCIE_LCNT.RECOVERIES |> setPcie (fun p => { p with recovSec := sec, recov := n })
  if n ≠ rget s F.PCIE_CTRL.RECOV_LIM + 1 then s else
  let s := pcieVlog 0x09 rid s
  let g := rget s F.PCIE_LINK.SPEED
  if on s F.PCIE_CTRL.FALLBACK_EN && decide (1 < g) then
    s |> rset F.PCIE_LINK.SPEED (g - 1) |> inc F.PCIE_LCNT.FALLBACKS |> inc F.PCIE_LCNT.SPEED_CHG |> raise pPCIE 1
  else s

/-- A violation and its answer (R317). -/
def tlpViolation (bad : TlpBad) (rid : Nat) (s : State) : State :=
  match bad with
  | .malformed => s |> inc F.PCIE_ERR.MALFORMED |> pcieVlog 0x01 rid |> aerMessage rid
  | .ecrc => if on s F.PCIE_CTRL.ECRC_CHK then s |> inc F.PCIE_ERR.ECRC |> pcieVlog 0x01 rid |> aerMessage rid else s
  | .bar0Read => s |> inc F.PCIE_ERR.UR_SENT |> pcieVlog 0x02 rid |> emit (.completion none)
  | .bar0Write => s |> inc F.PCIE_ERR.UR_SENT |> pcieVlog 0x02 rid
  | .poisoned => s |> inc F.PCIE_ERR.POISONED |> pcieVlog 0x03 rid
  | .unexpected => s |> inc F.PCIE_CPL.UNEXPECTED |> pcieVlog 0x07 rid
  | .receiver => s |> pcieVlog 0x0A rid |> pcieRecovery rid

/-- A hub read ends without its data (R311, R317): it is counted, logged and becomes a fault of its site (1 page walk, 2 descriptor, 4
image). -/
def completionBad (bad : CplBad) (site ring rid : Nat) (s : State) : State :=
  match bad with
  | .timeout => s |> inc F.PCIE_CPL.TIMEOUT |> pcieVlog 0x06 rid |> dmaFault site 9 ring
  | .ur => s |> inc F.PCIE_CPL.CPL_UR |> pcieVlog 0x06 rid |> dmaFault site 6 ring
  | .ca => s |> inc F.PCIE_CPL.CPL_CA |> pcieVlog 0x06 rid |> dmaFault site 7 ring
  | .poisoned => s |> inc F.PCIE_ERR.POISONED |> dmaFault site 8 ring

/-! ### BAR2 (R285, R299) -/

/-- The channel whose stored data the window shows, in views 1 and 2. -/
def winView (s : State) : Option Nat :=
  if rget s F.INKW_WIN.VIEW = 1 then some 0 else if rget s F.INKW_WIN.VIEW = 2 then some 1 else none

/-- The channel address of an offset in the window. -/
def winAddr (s : State) (ofs : Nat) : Nat := rget s F.INKW_WIN.BASE * 2 ^ 26 + ofs % 2 ^ 26

/-- A byte that the window has not written. -/
def noByte (_ : Nat) : Option Byte := none

/-- Bytes of a channel from an address on, low address first: what the window wrote there, else a free value each (the spec gives the
rings' layout in DRAM only by its items). -/
def winBytes (c a : Nat) : Nat → State → Nat × State
  | 0, s => (0, s)
  | n + 1, s =>
    let here : Nat × State := match mget noByte (ddr s c).mem a with
      | some b => (b.toNat, s)
      | none => (freeVal 8 s, freeNext s)
    let rest := winBytes c (a + 1) n here.2
    (here.1 + 256 * rest.1, rest.2)

/-- A BAR2 read of up to 512 bytes; `bad`: the bursts are uncorrectable on every channel that could serve it, `ce`: the channel on which a
burst was corrected (R299). -/
def bar2Read (ofs len : Nat) (bad : Bool) (ce : Option Nat) (s : State) : State :=
  let s := inc F.PCIE_BAR2.READS s
  let s := match ce with
    | some c => if c < 2 then inc (F.INKW_CE.READ_CE c) s else s
    | none => s
  let a := winAddr s ofs
  if bad then s |> inc F.PCIE_BAR2.POISONED |> emit (.completion none)
  else if rget s F.INKW_STATE.CAPACITY_MB * 2 ^ 20 ≤ a then emit (.completion (some 0)) s
  else
    let c := (winView s).getD (if chIn s 0 then 0 else 1)
    let r := winBytes c a (min len 512) (ddrTouch c s)
    emit (.completion (some r.1)) r.2

/-- The bytes of a word, low address first. -/
def putMem (a : Nat) (v : Nat) : Nat → Table (Option Byte) → Table (Option Byte)
  | 0, m => m
  | n + 1, m => putMem (a + 1) (v / 256) n (mput noByte a (some (BitVec.ofNat 8 v)) m)

/-- A BAR2 write: only with DIAG_WR, and into a frozen channel's view; any other is dropped and logged (R285, R317). -/
def bar2Write (ofs len v rid : Nat) (s : State) : State :=
  match winView s with
  | some c =>
    if on s F.INKW_WIN.DIAG_WR && frozenCh s == some c then
      setDdr c (fun x => { x with mem := putMem (winAddr s ofs) v (min len 512) x.mem }) s
    else pcieVlog 0x04 rid s
  | none => pcieVlog 0x04 rid s

end Sys2Proof.Machine
end

