-- ==== Sys2Proof/Machine/Image.lean ====
section
/-!
DEFINITION. The image store: its states, its writers, the seal, the image fetch and the Ethernet boot client (R366, R372, R373, R375).
-/

namespace Sys2Proof.Machine

def setBoot (f : Boot → Boot) (s : State) : State := { s with boot := f s.boot }

/-- Bytes of the image store (R371). -/
abbrev storeBytes : Nat := 16769024

/-- SYS_IMG_STATUS.STATE: 0 EMPTY, 1 OPEN, 2 SEALED, 3 NET, 4 FETCH (R372). -/
def imgState (s : State) : Nat := rget s F.SYS_IMG_STATUS.STATE
def setImgState (v : Nat) (s : State) : State := rset F.SYS_IMG_STATUS.STATE v s

/-- A byte of the store (log entry 2). -/
def imgByte (s : State) (a : Nat) : Byte := mget byteZero s.boot.store a

/-- `n` bytes from `a` on, as one number, the first on top (R369). -/
def imgNum (s : State) (a : Nat) : Nat → Nat
  | 0 => 0
  | n + 1 => imgNum s a n * 256 + (imgByte s (a + n)).toNat

/-- `n` bytes from `a` on. -/
def imgBytes (s : State) (a n : Nat) : List Byte := (List.range n).map (fun i => imgByte s (a + i))

/-- Bytes go into a table from `a` on. -/
def putBytesAt (a : Nat) : List Byte → Table Byte → Table Byte
  | [], m => m
  | b :: rest, m => putBytesAt (a + 1) rest (mput byteZero a b m)

/-- Bytes go into the store; HIGH keeps the highest byte written, plus 1. -/
def storeImage (a : Nat) (bs : List Byte) (s : State) : State :=
  let bs := bs.take (storeBytes - a)
  if bs.isEmpty then s
  else s |> setBoot (fun b => { b with store := putBytesAt a bs b.store })
    |> rset F.SYS_IMG_STATUS.HIGH (max (rget s F.SYS_IMG_STATUS.HIGH) (a + bs.length))

/-- A write by BAR4 or SYS_IMGW: EMPTY is taken for that source, OPEN accepts it (R372). -/
def imageWrite (a : Nat) (bs : List Byte) (s : State) : Option State :=
  if imgState s = 0 then some (s |> setImgState 1 |> storeImage a bs)
  else if imgState s = 1 then some (storeImage a bs s)
  else none

/-- A BAR4 write to the image window: bytes accepted are counted, and a refusal is violation 0x05 (R299, R317, R372). -/
def bar4Write (a rid : Nat) (bs : List Byte) (s : State) : State :=
  match imageWrite a bs s with
  | some t => incBy F.PCIE_BAR4.BYTES bs.length t
  | none => s |> inc F.PCIE_BAR4.REFUSED |> pcieVlog 0x05 rid

/-- A 128-bit word as bytes, its low byte first. -/
def wideBytes (v : Nat) : List Byte := (List.range 16).map (fun i => BitVec.ofNat 8 (v / 256 ^ i))

/-- A boot ROM's STATUS (R367). -/
def bootStatus (s : State) (h : Nat) : Nat := rget s (sf h F.SCRR_BOOT.STATUS)
def setBootStatus (h v : Nat) (s : State) : State := rset (sf h F.SCRR_BOOT.STATUS) v s

/-- A half enters WAIT; after a watchdog or a hand-over it takes a store that stands sealed (R373). -/
def enterWait (h : Nat) (s : State) : State :=
  if !(half s h).newSeal && imgState s == 2 then setBootStatus h 0x0500 s else setBootStatus h 0x0300 s

/-- A seal: every half in WAIT goes to VERIFY, and one still on its way there will (R372, R373). -/
def sealStore (s : State) : State :=
  s |> setImgState 2 |> raise pSYS 2
    |> forAll [0, 1] (fun h s =>
      if halfState s h ≠ 1 then s
      else if bootStatus s h = 0x0300 ∨ 0x8000 < bootStatus s h then s |> setHalf h (fun x => { x with newSeal := false }) |> setBootStatus h 0x0500
      else if bootStatus s h < 0x0300 then setHalf h (fun x => { x with newSeal := false }) s
      else s)

/-- SYS_IMG_CTRL.SEAL. -/
def imageSeal (s : State) : State := if imgState s ≤ 2 then sealStore s else s

/-- Whether a half is in VERIFY, APPLY or LOAD. -/
def bootBusy (s : State) : Bool := [0, 1].any (fun h => halfState s h == 1 && decide (0x0500 ≤ bootStatus s h ∧ bootStatus s h ≤ 0x0700))

def openRefused (s : State) : State := s |> inc F.SYS_COUNT.OPEN_REFUSED |> raise pSYS 4

/-- SYS_IMG_CTRL.OPEN (R372). -/
def imageOpen (s : State) : State :=
  match imgState s with
  | 0 => setImgState 1 s
  | 1 => s
  | 2 => if bootBusy s then openRefused s else setImgState 1 s
  | _ => openRefused s

/-! ### The image fetch (R316, R372) -/

/-- DMA_IMG_CTRL.GO: refused with ERR where the store does not accept it. -/
def imageFetchGo (len : Nat) (s : State) : State :=
  if rget s F.DMA_IMG_CTRL.STATE = 1 ∨ rget s F.DMA_IMG_CTRL.STATE = 2 then s
  else if 1 < imgState s then rset F.DMA_IMG_CTRL.ERR 1 s
  else s |> setImgState 4 |> fetchGo len

/-- A fetch that has ended with ERR = 1 leaves the store OPEN. -/
def fetchLeft (s : State) : State :=
  if imgState s = 4 ∧ rget s F.DMA_IMG_CTRL.STATE ≠ 1 ∧ rget s F.DMA_IMG_CTRL.STATE ≠ 2 then setImgState 1 s else s

/-- IMAGE_FETCH_DONE: every byte has been asked for and has come; the store is sealed. -/
def imageFetchDone (bs : List Byte) (s : State) : State :=
  let len := rget s F.DMA_IMG_CTRL.LEN
  if rget s F.DMA_IMG_CTRL.STATE ≠ 1 ∨ s.dma.imgGot < len ∨ imgState s ≠ 4 then s
  else s |> storeImage 0 (bs.take len) |> incBy F.DMA_RDBYTES.BYTES len |> rset F.DMA_IMG_CTRL.STATE 3 |> raise pDMA 7 |> sealStore

/-- A fetch parked for LOAD_MS is ended as by OP 2. -/
def imageParkTimeout (s : State) : State := if (mget (fun _ => none) s.dma.parks 3).isSome then s |> parkDrop 3 |> fetchLeft else s

/-! ### The Ethernet boot client (R375) -/

/-- SYS_EBOOT.STATE: 0 off, 1 link search, 2 soliciting, 3 loading, 4 done. -/
def ebootState (s : State) : Nat := rget s F.SYS_EBOOT.STATE

/-- A second of link search ends: with a port locked the client solicits, else it tries the other rate. -/
def ebootTry (ports : Nat) (s : State) : State :=
  if ebootState s ≠ 1 then s
  else if ports % 4 ≠ 0 then
    { s with boot := { s.boot with locked := ports % 4, xid := freeVal 32 s } } |> freeNext |> rset F.SYS_EBOOT.STATE 2
  else setBoot (fun b => { b with fast := !b.fast }) s

/-- SOLICIT goes out on each locked port. -/
def ebootSolicit (s : State) : State :=
  if ebootState s ≠ 2 then s
  else forAll (indicesWhere 2 (bitSet s.boot.locked)) (fun p => emit (.eboot 1 [p, s.boot.xid])) s

/-- READs go out, at most 32 outstanding, of 1,024 bytes or what is left. -/
def ebootReads : Nat → State → State
  | 0, s => s
  | fuel + 1, s =>
    let b := s.boot
    if 32 ≤ b.reads.length ∨ b.len ≤ b.next then s
    else
      let n := min 1024 (b.len - b.next)
      ebootReads fuel (s |> emit (.eboot 3 [b.next, n]) |> setBoot (fun b => { b with next := b.next + n, reads := b.reads ++ [⟨b.next, n⟩] }))

/-- A boot message from another source, or with another XID, is dropped and counted (R375, R389). -/
def ebootStranger (f : BootFrom) (s : State) : State := ethVlog 0x16 f.eth f.addr s

/-- OFFER: the first valid one puts the store in NET and fixes the server and the port. -/
def ebootOffer (f : BootFrom) (xid len : Nat) (s : State) : State :=
  if ebootState s = 0 ∨ ebootState s = 4 then s
  else if xid ≠ s.boot.xid ∨ ebootState s ≠ 2 then ebootStranger f s
  else if imgState s ≠ 0 ∨ len = 0 ∨ storeBytes < len then s
  else s |> setImgState 3 |> rset F.SYS_EBOOT.STATE 3 |> rset F.SYS_EBOOT.PORT f.eth
    |> setBoot (fun b => { b with server := some f, len, next := 0, reads := [], resends := 0 }) |> ebootReads 32

/-- DATA: written to the store; when every byte is held the client seals. -/
def ebootData (f : BootFrom) (xid ofs : Nat) (bs : List Byte) (s : State) : State :=
  if ebootState s = 0 ∨ ebootState s = 4 then s
  else if s.boot.server ≠ some f ∨ xid ≠ s.boot.xid ∨ imgState s ≠ 3 then ebootStranger f s
  else if !s.boot.reads.contains ⟨ofs, bs.length⟩ then s
  else
    let s := s |> storeImage ofs bs |> setBoot (fun b => { b with reads := b.reads.filter (· != ⟨ofs, bs.length⟩), resends := 0 }) |> ebootReads 32
    if s.boot.reads.isEmpty && decide (s.boot.len ≤ s.boot.next) then sealStore s else s

/-- The client returns the store to EMPTY and solicits again. -/
def ebootAgain (s : State) : State :=
  { s with boot := { s.boot with server := none, reads := [], resends := 0, len := 0, next := 0, xid := freeVal 32 s } } |> freeNext
    |> setImgState 0 |> rset F.SYS_EBOOT.STATE 2

/-- A READ without its DATA after 10 ms is sent again; after 16 consecutive resends the client starts over. -/
def ebootTimeout (ofs : Nat) (s : State) : State :=
  if imgState s ≠ 3 then s else
  match s.boot.reads.find? (fun r => r.ofs == ofs) with
  | none => s
  | some r =>
    if 16 ≤ s.boot.resends then ebootAgain s
    else s |> inc F.SYS_COUNT.EBOOT_RESENDS |> emit (.eboot 3 [r.ofs, r.len]) |> setBoot (fun b => { b with resends := b.resends + 1 })

end Sys2Proof.Machine
end

