-- ==== Sys2Proof/Machine/Ldu.lean ====
section
/-!
DEFINITION. The lamp drive unit: the lamp table and the drive values, slots, the page turn, temperatures and diagnosis (R322 to R341).
-/

namespace Sys2Proof.Machine

def setLdu (f : Ldu → Ldu) (s : State) : State := { s with ldu := f s.ldu }

/-! ### The lamp table (R327) -/

def lampWord (t : Table Wide) (e : Nat) : Nat := (mget wideZero t (2 * e)).toNat
def lMapped (w : Nat) : Bool := bitSet w 0
def lFlash (w : Nat) : Bool := bitSet w 1
def lString (w : Nat) : Nat := slice 2 4 w
def lLine (w : Nat) : Nat := slice 6 3 w
def lTin (w : Nat) : Nat := slice 9 3 w
def lTinEn (w : Nat) : Bool := bitSet w 12

/-- Matrix mode. -/
def matrixOn (s : State) : Bool := on s F.LDU_MATRIX.EN

/-- The mapped entries of a table, ascending. -/
def mappedIn (t : Table Wide) : List Nat := (List.range 256).filter (fun e => lMapped (lampWord t e))

/-- Whether two entries hold one position. -/
def samePlace (s : State) (t : Table Wide) (a b : Nat) : Bool :=
  lString (lampWord t a) == lString (lampWord t b) && (!matrixOn s || lLine (lampWord t a) == lLine (lampWord t b))

/-- Mapped entries whose position a lower one holds. -/
def clashes (s : State) (t : Table Wide) : List Nat :=
  (mappedIn t).filter (fun e => (mappedIn t).any (fun a => decide (a < e) && samePlace s t a e))

/-- The entry that a string drives in a line slot. -/
def entryAt (s : State) (t : Table Wide) (string line : Nat) : Option Nat :=
  (mappedIn t).find? (fun e => lString (lampWord t e) == string && (!matrixOn s || lLine (lampWord t e) == line))

/-- The entries mapped to a string that their position is not taken from. -/
def cellsOf (s : State) (string : Nat) : List Nat :=
  (mappedIn s.ldu.tab).filter (fun e => lString (lampWord s.ldu.tab e) == string && !(clashes s s.ldu.tab).contains e)

/-- An entry's bit of a bit map. -/
def mapBit (s : State) (f : Nat → Fld) (e : Nat) : Bool := bitSet (rget s (f (e / 64))) (e % 64)
def setMapBit (f : Nat → Fld) (e : Nat) (v : Bool) (s : State) : State := (if v then setBitOf else clrBitOf) (f (e / 64)) (e % 64) s

/-- The level of an entry on a page. -/
def levelOf (s : State) (page e : Nat) : Nat := slice (16 * (e % 4)) 16 (mget zeroAt s.ldu.pages (64 * page + e / 4))

/-! ### Temperatures (R329 to R331) -/

def tinT (s : State) (k : Nat) : Int := asInt 24 (rget s (if k % 2 = 0 then F.LDU_TNOW.T (k / 2) else F.LDU_TNOW.T1 (k / 2)))
def tinStaleF (k : Nat) : Fld := if k % 2 = 0 then F.LDU_TNOW.STALE (k / 2) else F.LDU_TNOW.STALE1 (k / 2)
def tinValidF (k : Nat) : Fld := if k % 2 = 0 then F.LDU_TNOW.VALID (k / 2) else F.LDU_TNOW.VALID1 (k / 2)
def tinTF (k : Nat) : Fld := if k % 2 = 0 then F.LDU_TNOW.T (k / 2) else F.LDU_TNOW.T1 (k / 2)
def tinStale (s : State) (k : Nat) : Bool := on s (tinStaleF k)

/-- The flash lamps of a TIN are inhibited or released (R330). -/
def inhibitBy (k : Nat) (s : State) : State :=
  forAll ((mappedIn s.ldu.tab).filter (fun e => let w := lampWord s.ldu.tab e; lFlash w && lTinEn w && lTin w == k)) (fun e s =>
    let w := lampWord s.ldu.tab e
    let top := asInt 8 (slice 64 8 w) * 256
    let hot := tinStale s k || decide (top ≤ tinT s k)
    if hot then (if mapBit s F.LDU_INHIB.INHIB e then s else s |> setMapBit F.LDU_INHIB.INHIB e true |> raise pLDU 6)
    else if tinT s k < top - slice 72 8 w * 256 then setMapBit F.LDU_INHIB.INHIB e false s
    else s) s

/-- A result of a slow channel reaches the temperature inputs (R329). -/
def tinResult (chan : Nat) (x : Samp) (s : State) : State :=
  forAll ((List.range 8).filter (fun k => on s (F.LDU_TIN.EN k) && rget s (F.LDU_TIN.CHAN k) == chan)) (fun k s =>
    if bitSet x.fl flOPEN || bitSet x.fl flSKIP || bitSet x.fl flOVR then
      (if tinStale s k then s else s |> rset (tinStaleF k) 1 |> raise pLDU 6) |> inhibitBy k
    else
      let t := asInt 24 (rget s (F.LDU_TIN.OFS_C k)) + shiftHalfEven 24 (asInt 32 (rget s (F.LDU_TIN.GAIN k)) * x.v)
      s |> rset (tinTF k) (ofInt 24 (clampSigned 24 t)) |> rset (tinValidF k) 1 |> rset (tinStaleF k) 0 |> inhibitBy k) s

/-- TIN_STALE_TIMEOUT: no result for TIN_STALE_S seconds (R329). -/
def tinTimeout (k : Nat) (s : State) : State :=
  if !on s (F.LDU_TIN.EN k) || tinStale s k then s else s |> rset (tinStaleF k) 1 |> raise pLDU 6 |> inhibitBy k

/-! ### The drive value (R328) -/

/-- f as a fraction of 2²⁴ parts. -/
def lampF (s : State) (e w : Nat) : Nat :=
  let one : Nat := 2 ^ 24
  if lFlash w then (if mapBit s F.LDU_INHIB.INHIB e then 0 else one)
  else if !lTinEn w then one
  else if tinStale s (lTin w) then rget s F.LDU_THERM.FAULT_PCT * one / 100
  else
    let hot := tinT s (lTin w) - asInt 8 (slice 32 8 w) * 256
    if hot ≤ 0 then one
    else max (slice 56 8 w * 65536) ((one : Int) - slice 40 16 w * hot).toNat

/-- k_t as a fraction of 256,000,000 parts, not below 0. -/
def lampKt (s : State) (e w : Nat) : Nat :=
  if !lTinEn w then 256000000 else
  let c := e % 4
  (256000000 + asInt 16 (rget s (F.LDU_COLOUR.TC_PPM c)) * (tinT s (lTin w) - asInt 8 (rget s (F.LDU_COLOUR.T_REF_C c)) * 256)).toNat

/-- d as a fraction of 65,535 × 32,768 × 256,000,000 × 2²⁴ parts (R328). -/
def driveDen : Nat := 65535 * 32768 * 256000000 * 2 ^ 24
def driveNum (s : State) (e w level : Nat) : Nat :=
  let p := level * slice 16 16 w * lampKt s e w * lampF s e w
  let dm := if slice 80 8 w = 0 then 256 else slice 80 8 w
  min p (min driveDen (driveDen / 256 * dm))

/-- A result that R328 leaves exact to one part: the exact value or a neighbour, by a free value; nothing where there is none. -/
def nearly (x top : Nat) (s : State) : Nat × State :=
  if x = 0 then (0, s) else (min top (x + freeVal 2 s % 3 - 1), freeNext s)

/-- The drive of an entry in a slot of `len` LCLK cycles (R326, R328). -/
def driveOf (e w level len : Nat) (s : State) : Drive × State :=
  let n := lString w
  let iset := rget s (F.LDU_SSET.ISET n)
  let d := driveNum s e w level
  if on s (F.LDU_SCFG.ANALOG n) then
    if 16 * d < driveDen then
      let t := nearly (divHalfEven ((16 * d * len : Nat) : Int) driveDen).toNat len s
      (⟨e, iset / 16, t.1⟩, t.2)
    else (⟨e, (divHalfEven ((d * iset : Nat) : Int) driveDen).toNat, len⟩, s)
  else
    let t := nearly (divHalfEven ((d * len : Nat) : Int) driveDen).toNat len s
    (⟨e, iset, t.1⟩, t.2)

/-- Whether a cell may be driven: its string on and not retired, the cell not off by fault unless it is being retried. -/
def cellDrives (s : State) (e string : Nat) : Bool :=
  on s (F.LDU_SCFG.EN string) && rget s (F.LDU_SSTAT.STATE string) != 3
    && (!mapBit s F.LDU_FAULTED.FAULTED e || (mget (fun _ => {}) s.ldu.cells e).retry)

/-- DERATED of an entry follows f (R328, R338). -/
def showDerated (e w : Nat) (s : State) : State :=
  let v := !lFlash w && decide (lampF s e w < 2 ^ 24)
  if mapBit s F.LDU_DERATED.DERATED e = v then s else s |> setMapBit F.LDU_DERATED.DERATED e v |> raise pLDU 5

/-- The length of a slot in LCLK cycles. -/
def slotLen (s : State) : Nat := if matrixOn s then rget s F.LDU_MATRIX.LINE_LCLK else rget s F.LDU_DIM.DIM_LCLK

/-- LDU_SLOT_COMPUTE of line slot `l`; `turn` for the first slot after the armed turn (R326). -/
def slotCompute (l : Nat) (turn : Bool) (s : State) : State :=
  if !on s F.LDU_CTRL.EN || (!turn && !s.ldu.runs) || (turn && s.ldu.armed.isNone) then s else
  let t := if turn then s.ldu.tabSh else s.ldu.tab
  let page := match s.ldu.armed with
    | some (_, p) => if turn then p else rget s F.LDU_PTURN_CTRL.LIVE
    | none => rget s F.LDU_PTURN_CTRL.LIVE
  let s := setLdu (fun x => { x with next := [], nextTurn := turn }) s
  forAll (List.range 16) (fun n s =>
    match entryAt s t n l with
    | none => s
    | some e =>
      let w := lampWord t e
      let s := showDerated e w s
      if !cellDrives s e n then s else
      let d := driveOf e w (levelOf s page e) (slotLen s) s
      setLdu (fun x => { x with next := mput (fun _ => none) n (some d.1) x.next }) d.2) s

/-! ### Slots (R325) -/

/-- A gate takes a level. -/
def setGate (n : Nat) (v : Bool) (s : State) : State :=
  if bitSet s.ldu.gates n = v then s
  else s |> setLdu (fun x => { x with gates := if v then setBit x.gates n else clrBit x.gates n }) |> emit (.gate n v)

/-- The line that is active changes: the old one goes inactive, then the new one active. -/
def setLine (l : Option Nat) (s : State) : State :=
  let level (n : Nat) (act : Bool) : Emit := .line n (act != on s (F.LDU_LINE.POL n))
  if s.ldu.line = l then s else
  let s := match s.ldu.line with
    | none => s
    | some n => emit (level n false) s
  let s := setLdu (fun x => { x with line := l }) s
  match l with
  | none => s
  | some n => emit (level n true) s

/-- Every gate low and every line inactive. -/
def allOff (s : State) : State := s |> forAll (List.range 16) (fun n => setGate n false) |> setLine none

def driveNow (s : State) (n : Nat) : Option Drive := mget (fun _ => none) s.ldu.now n

/-- LDU_SLOT_START of line slot `l`: the drives computed for it take over (R325). -/
def lduSlotStart (l : Nat) (s : State) : State :=
  if !s.ldu.runs || s.ldu.nextTurn then s else
  s |> forAll (List.range 16) (fun n => setGate n false)
    |> setLine (if matrixOn s && on s (F.LDU_LINE.EN (l % 8)) then some (l % 8) else none)
    |> setLdu (fun x => { x with now := x.next, next := [], ocp := 0 })
    |> forAll (List.range 16) (fun n s =>
        match driveNow s n with
        | none => s
        | some d =>
          if rget s (F.LDU_SSTAT.STATE n) = 3 then s else
          s |> rset (F.LDU_SSTAT.ON_LCLK n) d.time |> whenB (decide (0 < d.time)) (setGate n true))

/-- LDU_ON_TIME_END: a lamp's gate turns off (R328). -/
def onTimeEnd (n : Nat) (s : State) : State := setGate n false s

/-! ### Diagnosis (R334 to R337) -/

def cellOf (s : State) (e : Nat) : LampCell := mget (fun _ => {}) s.ldu.cells e
def setCell (e : Nat) (f : LampCell → LampCell) (s : State) : State := setLdu (fun x => { x with cells := mput (fun _ => {}) e (f (cellOf s e)) x.cells }) s

/-- SSTAT.STATE and CAUSE of a string that is not retired. -/
def showString (n : Nat) (s : State) : State :=
  if rget s (F.LDU_SSTAT.STATE n) = 3 then s else
  match (cellsOf s n).find? (mapBit s F.LDU_FAULTED.FAULTED) with
  | some e => s |> rset (F.LDU_SSTAT.STATE n) 2 |> rset (F.LDU_SSTAT.CAUSE n) (cellOf s e).cause
  | none => s |> rset (F.LDU_SSTAT.STATE n) (on s (F.LDU_SCFG.EN n)).toNat |> rset (F.LDU_SSTAT.CAUSE n) 0

/-- A string is retired for good (R335); `book` says that a ledger entry is written. -/
def retireString (n reason : Nat) (book : Bool) (s : State) : State :=
  if rget s (F.LDU_SSTAT.STATE n) = 3 then s else
  s |> rset (F.LDU_SSTAT.STATE n) 3 |> rset (F.LDU_SSTAT.CAUSE n) (if reason = 4 then 0 else reason)
    |> forAll (cellsOf s n) (fun e => setMapBit F.LDU_FAULTED.FAULTED e true) |> setGate n false
    |> whenB book (ledgerPut 4 n reason) |> wear F.MON_WEAR.STRINGS_RETIRED (rget s F.MON_WEAR.STRINGS_RETIRED + 1) |> whenB book (raise pLDU 7)

/-- A retry of a cell fails: the string is retired once its only cell, or all its cells with one cause, have failed RETIRE_N times. -/
def retryFailed (n e cause : Nat) (s : State) : State :=
  let s := setCell e (fun c => { c with retry := false, cause := cause, fails := c.fails + 1 }) s
  let lim := rget s F.LDU_DIAG.RETIRE_N
  let cells := cellsOf s n
  if cells.all (fun e => decide (lim ≤ (cellOf s e).fails) && (cellOf s e).cause == cause) then retireString n cause true s else s

/-- A cell becomes a fault: 1 open, 2 short, 3 overcurrent. -/
def cellFault (n e cause : Nat) (s : State) : State :=
  if (cellOf s e).retry then retryFailed n e cause s
  else if mapBit s F.LDU_FAULTED.FAULTED e then s
  else
    s |> setCell e (fun c => { c with cause := cause, fails := 0, opens := 0, shorts := 0 }) |> setMapBit F.LDU_FAULTED.FAULTED e true
      |> setMapBit (if cause = 1 then F.LDU_OPEN.OPEN else F.LDU_SHORT.SHORT) e true |> raise pLDU (if cause = 1 then 2 else 3) |> showString n

/-- A cell passes: its fault clears. -/
def cellPass (n e : Nat) (s : State) : State :=
  s |> setCell e (fun _ => {}) |> setMapBit F.LDU_FAULTED.FAULTED e false |> setMapBit F.LDU_OPEN.OPEN e false |> setMapBit F.LDU_SHORT.SHORT e false
    |> showString n

/-- An observation of a cell of string `n` driven at a current code: the sense code, VS in mV, and whether the current is in regulation
(R334). -/
def observeCell (n e cur i v : Nat) (reg : Bool) (s : State) : State :=
  let s := s |> rset (F.LDU_SSTAT.I_MEAS n) (min 4095 i) |> rset (F.LDU_SSTAT.V_MEAS n) (min 4095 v) |> setMapBit F.LDU_UNDIAG.UNDIAG e false
  let c := cellOf s e
  let lim := rget s F.LDU_DIAG.OPEN_CONSEC
  if 2 * i < cur ∧ rget s (F.LDU_SCFG.OPEN_V n) ≤ v then
    let s := s |> inc (F.LDU_SCNT.OPEN_OBS n) |> setCell e (fun c => { c with opens := c.opens + 1, shorts := 0 })
    if c.retry ∨ lim ≤ c.opens + 1 then cellFault n e 1 s else s
  else if reg ∧ v < rget s (F.LDU_SCFG.SHORT_V n) then
    let s := s |> inc (F.LDU_SCNT.SHORT_OBS n) |> setCell e (fun c => { c with shorts := c.shorts + 1, opens := 0 })
    if c.retry ∨ lim ≤ c.shorts + 1 then cellFault n e 2 s else s
  else if c.retry then cellPass n e s
  else setCell e (fun c => { c with opens := 0, shorts := 0 }) s

/-- LDU_OBSERVE: LCLK cycle 192 of an on-time of string `n`. -/
def lduObserve (n i v : Nat) (reg : Bool) (s : State) : State :=
  match driveNow s n with
  | none => s
  | some d => if d.time < 192 ∨ bitSet s.ldu.ocp n then s else observeCell n d.entry d.cur i v reg s

/-- OVERCURRENT: OCP in 8 consecutive switching cycles of string `n`. -/
def lduOvercurrent (n : Nat) (s : State) : State :=
  match driveNow s n with
  | none => s
  | some d =>
    if !bitSet s.ldu.gates n then s else
    s |> inc (F.LDU_SCNT.OCP n) |> setLdu (fun x => { x with ocp := setBit x.ocp n }) |> setGate n false |> cellFault n d.entry 3

/-- CELL_RETRY: RETRY_S after a fault the cell is driven again. -/
def cellRetry (e : Nat) (s : State) : State :=
  let n := lString (lampWord s.ldu.tab e)
  if !(cellsOf s n).contains e || !mapBit s F.LDU_FAULTED.FAULTED e || rget s (F.LDU_SSTAT.STATE n) == 3 || (cellOf s e).retry then s
  else s |> setCell e (fun c => { c with retry := true, opens := 0, shorts := 0 }) |> inc (F.LDU_SCNT.RETRIES n)

/-- STARVE_TIMEOUT: a lit cell without a judgeable on-time (R336). -/
def starveTimeout (e : Nat) (s : State) : State :=
  let n := lString (lampWord s.ldu.tab e)
  if !(cellsOf s n).contains e || levelOf s (rget s F.LDU_PTURN_CTRL.LIVE) e == 0 || mapBit s F.LDU_FAULTED.FAULTED e || mapBit s F.LDU_UNDIAG.UNDIAG e
  then s else s |> setMapBit F.LDU_UNDIAG.UNDIAG e true |> raise pLDU 4

/-- DIAG_PULSE: a diagnostic pulse and its observation (R337). -/
def diagPulse (e i v : Nat) (reg : Bool) (s : State) : State :=
  let w := lampWord s.ldu.tab e
  let n := lString w
  if !on s F.LDU_DIAG.DIAG_PULSE_EN || !matrixOn s || decide (rget s F.LDU_MATRIX.BLANK_LCLK < 256) || !mapBit s F.LDU_UNDIAG.UNDIAG e || lFlash w
    || !s.ldu.runs || !cellDrives s e n || !(cellsOf s n).contains e then s
  else s |> inc F.LDU_COUNT.PULSES |> setLine (some (lLine w)) |> setGate n true |> setGate n false |> setLine none
    |> observeCell n e (rget s (F.LDU_SSET.ISET n)) i v reg

/-- STRING_CLEAR: every fault of the string clears at once (R334). -/
def stringClear (n : Nat) (s : State) : State :=
  if rget s (F.LDU_SSTAT.STATE n) = 3 then s else s |> forAll (cellsOf s n) (cellPass n) |> showString n

/-- STRING_RETIRE_HOST (R335). -/
def stringRetireHost (n key : Nat) (s : State) : State := if key = 0x6A2F then retireString (n % 16) 4 true s else s

/-! ### The page turn (R332, R333) -/

/-- LDU_PTURN_CTRL.ARMED and the armed turn. -/
def setTurn (x : Option (Nat × Nat)) (s : State) : State := s |> setLdu (fun d => { d with armed := x }) |> rset F.LDU_PTURN_CTRL.ARMED x.isSome.toNat

/-- A flag of LDU_PTURN_CTRL, with SRC[1]. -/
def turnFlag (f : Fld) (s : State) : State := s |> rset f 1 |> raise pLDU 1

/-- The last 64 DCLK cycles before the strike of an armed turn are sealed. -/
def turnSealed (s : State) (cyc : Nat) : Bool :=
  match s.ldu.armed with
  | some (n, _) => n == nextStroke s && s.struck && decide (strokeLen s < cyc + 64)
  | none => false

/-- An arming for a stroke under R38; all ones disarm (R40). -/
def armTurn (page n cyc : Nat) (s : State) : State :=
  if n = allOnes then setTurn none s else
  match armOutcome s n cyc with
  | .on m => setTurn (some (m, page)) s
  | .late m => s |> setTurn (some (m, page)) |> turnFlag F.LDU_PTURN_CTRL.LATE
  | .stale => turnFlag F.LDU_PTURN_CTRL.STALE s

/-- An arming that no seal defers: local, or through the domain as CMD 3 (R42, R332); a frozen pen refuses it (R349). -/
def turnRequest (page : Nat) (dom : Bool) (n cyc : Nat) (s : State) : State :=
  if penHolder s = 3 ∧ n ≠ allOnes then inc F.PEN_COUNT.FROZEN_REFUSED s
  else if dom && n != allOnes then
    if !isRoot s then turnFlag F.LDU_PTURN_CTRL.NOTROOT s
    else if n < strokeNow s + bcastLead s then turnFlag F.LDU_PTURN_CTRL.SHORT s
    else s |> armTurn page n cyc |> sendBcast 3 0 page n
  else armTurn page n cyc s

/-- LDU_PTURN_ARM: PAGE and DOMAIN are stored, and the turn is armed for LDU_PTURN.STROKE. -/
def turnArm (page : Nat) (dom : Bool) (cyc : Nat) (s : State) : State :=
  let s := s |> rset F.LDU_PTURN_CTRL.PAGE page |> rset F.LDU_PTURN_CTRL.DOMAIN dom.toNat
  let n := rget s F.LDU_PTURN.STROKE
  if turnSealed s cyc then setLdu (fun x => { x with deferred := x.deferred ++ [(page % 4, dom, n)] }) s else turnRequest (page % 4) dom n cyc s

/-- A lamp-table write goes to the shadow, or waits for the turn (R332). -/
def lampWrite (i v cyc : Nat) (s : State) : State :=
  if turnSealed s cyc then setLdu (fun x => { x with held := x.held ++ [(i, v)] }) s
  else setLdu (fun x => { x with tabSh := mput wideZero i (BitVec.ofNat 128 v) x.tabSh }) s

/-- A page word is written, but for the live page and the page of an armed turn (R333). -/
def pageWrite (i v : Nat) (s : State) : Option State :=
  let p := i / 64
  if p == rget s F.LDU_PTURN_CTRL.LIVE || (match s.ldu.armed with | some (_, q) => q == p | none => false) then none
  else some (setLdu (fun x => { x with pages := mput zeroAt i (v % 2 ^ 64) x.pages }) s)

/-- PAGE_TURN at the strike of stroke `n` (R333). -/
def pageTurn (n : Nat) (s : State) : State :=
  match s.ldu.armed with
  | none => s
  | some (m, page) =>
    if m ≠ n then s else
    let s := (turnKeys pLDU).foldl (fun t f => rset f (sget s f) t) s
    let s := s |> setLdu (fun x => { x with tab := x.tabSh, runs := on s F.LDU_CTRL.EN, now := [], next := if x.nextTurn then x.next else [], nextTurn := false, ocp := 0 })
    let s := s |> setTurn none |> rset F.LDU_PTURN_CTRL.LIVE page |> rset F.LDU_PTURN_CTRL.TURN_LO n |> inc F.LDU_COUNT.TURNS
      |> incBy F.LDU_COUNT.MAP_CLASH (clashes s s.ldu.tab).length |> allOff |> raise pLDU 0
    let d := s.ldu.deferred
    let h := s.ldu.held
    s |> setLdu (fun x => { x with deferred := [], held := [] })
      |> forAll h (fun a s => if a.1 < tableOff then setLdu (fun x => { x with tabSh := mput wideZero a.1 (BitVec.ofNat 128 a.2) x.tabSh }) s
          else storeReg (a.1 - tableOff) a.2 s)
      |> forAll d (fun a => turnRequest a.1 a.2.1 a.2.2 0) |> forAll (List.range 16) showString

/-- The LDU page's part of a commit: with EN at 0 every output stops until a page turn after EN is set again (R322). -/
def lduCommit (s : State) : State :=
  (if on s F.LDU_CTRL.EN then s else s |> setLdu (fun x => { x with runs := false, now := [], next := [] }) |> allOff)
    |> forAll (List.range 16) showString

end Sys2Proof.Machine
end

