-- ==== Sys2Proof/Machine/Sync.lean ====
section
/-!
DEFINITION. The arming of a synchronising reset (R125) and the reception of broadcasts (R42, R185).
-/

namespace Sys2Proof.Machine

/-! ### Synchronising resets (R125) -/

/-- The armed reset, as FLT_CTRL.SYNC_ARMED and FLT_SYNC show it. -/
def setSync (x : Option Nat) (s : State) : State :=
  { s with filt := { s.filt with syncArmed := x } } |> rset F.FLT_CTRL.SYNC_ARMED x.isSome.toNat |> rset F.FLT_SYNC.STROKE (x.getD allOnes)

/-- A flag of FLT_CTRL, with FLT SRC[1] (R125, R132). -/
def syncFlag (f : Fld) (s : State) : State := s |> rset f 1 |> raise pFLT 1

/-- An arming for a stroke under R38; all ones disarm (R40). -/
def armSync (n cyc : Nat) (s : State) : State :=
  if n = allOnes then setSync none s else
  match armOutcome s n cyc with
  | .on m => setSync (some m) s
  | .late m => s |> setSync (some m) |> syncFlag F.FLT_CTRL.SYNC_LATE
  | .stale => syncFlag F.FLT_CTRL.SYNC_STALE s

/-- The last 64 DCLK cycles before the strike of an armed reset are sealed (R39). -/
def syncSealed (s : State) (cyc : Nat) : Bool :=
  match s.filt.syncArmed with
  | some n => n == nextStroke s && s.struck && decide (strokeLen s < cyc + 64)
  | none => false

/-- An arming that no seal defers: refused while the pen is frozen, local, or through the domain as CMD 2 (R42, R125, R349). -/
def syncRequest (dom : Bool) (n cyc : Nat) (s : State) : State :=
  if n = allOnes then armSync n cyc s
  else if penHolder s = 3 then inc F.PEN_COUNT.FROZEN_REFUSED s
  else if dom then
    if !isRoot s then syncFlag F.FLT_CTRL.SYNC_NOTROOT s
    else if n < strokeNow s + bcastLead s then syncFlag F.FLT_CTRL.SYNC_SHORT s
    else s |> armSync n cyc |> sendBcast 2 0 0 n
  else armSync n cyc s

/-- A write to FLT_SYNC (R125): deferred past the reset while that is sealed (R39, R40). -/
def syncWrite (n cyc : Nat) (s : State) : State :=
  let dom := on s F.FLT_CTRL.SYNC_DOMAIN
  if syncSealed s cyc then { s with filt := { s.filt with syncDeferred := s.filt.syncDeferred ++ [(dom, n)] } }
  else syncRequest dom n cyc s

/-- SYNC_NEXT: the first stroke that meets R38, and for the root's domain R42 (log entry 40). -/
def syncNext (cyc : Nat) (s : State) : State :=
  let n := firstMeeting s cyc
  syncWrite (if on s F.FLT_CTRL.SYNC_DOMAIN && isRoot s then max n (strokeNow s + bcastLead s) else n) cyc s

/-- A falling edge on SYNC_N that has reached DCLK on cycle `cyc` (R125). -/
def syncPin (cyc : Nat) (s : State) : State :=
  if on s F.FLT_CTRL.SYNC_PIN_EN && s.filt.syncArmed.isNone then syncNext cyc s else s

/-- What waited for an armed reset is applied after it. -/
def syncRelease (s : State) : State :=
  { s with filt := { s.filt with syncDeferred := [] } } |> forAll s.filt.syncDeferred (fun d => syncRequest d.1 d.2 0)

/-! ### Broadcasts (R185) -/

/-- A missed broadcast goes into BCAST_MISS0, the others move down (R185). -/
def bcastMissed (b : Bcast) (s : State) : State :=
  let move (f : Nat → Fld) (v : Nat) (s : State) : State :=
    s |> forAll ((List.range 7).reverse) (fun i t => rset (f (i + 1)) (rget t (f i)) t) |> rset (f 0) v
  s |> move F.BCAST_MISS.CMD b.cmd |> move F.BCAST_MISS.SET b.set |> move F.BCAST_MISS.PAGE b.page
    |> move F.BCAST_MISS.BSEQ b.bseq |> move F.BCAST_MISS.STROKE_LO b.stroke
    |> inc F.BCAST_STATUS.MISSED |> raise pBCAST 1

/-- What a broadcast arms: 1 a commit set, 2 a synchronising reset, 3 a page turn; a seal makes it wait as a local arming (R39, R42). -/
def bcastAct (b : Bcast) (cyc : Nat) (s : State) : State :=
  if b.cmd = 1 then
    let k := b.set % 8
    let c := commitSet s k
    if c.isSealed then setCommitSet k { c with deferred := c.deferred ++ [(bcastPage, b.stroke)] } s else bcastSet k b.stroke cyc s
  else if b.cmd = 2 then
    if syncSealed s cyc then { s with filt := { s.filt with syncDeferred := s.filt.syncDeferred ++ [(false, b.stroke)] } }
    else s |> armSync b.stroke cyc |> bcastNote (armOutcome s b.stroke cyc)
  else if turnSealed s cyc then setLdu (fun x => { x with deferred := x.deferred ++ [(b.page, false, b.stroke)] }) s
  else s |> armTurn b.page b.stroke cyc |> bcastNote (armOutcome s b.stroke cyc)

/-- A received broadcast is dropped and counted. -/
def bcastDrop (s : State) : State := s |> inc F.BCAST_STATUS.DROPPED |> raise pBCAST 2

/-- A broadcast from the parent at DCLK cycle `cyc`: forwarded to the children, and acted upon (R185). -/
def bcastUse (b : Bcast) (cyc : Nat) (s : State) : State :=
  let kids := childLanes s
  let s := s |> inc F.BCAST_RX.RECEIVED |> rset F.BCAST_SEQ.RX_SEQ b.bseq |> rset F.BCAST_LAST.CMD b.cmd |> rset F.BCAST_LAST.SET b.set
    |> rset F.BCAST_LAST.PAGE b.page |> rset F.BCAST_LAST.STROKE_LO b.stroke
    |> ilkSendAll kids true (bcastFrame b) |> incBy F.BCAST_RX.FORWARDED kids.length
  if b.cmd = 15 then bcastMissed b s
  else if b.cmd = 0 ∨ 3 < b.cmd ∨ (b.cmd = 3 ∧ 3 < b.page) then bcastDrop s
  else if !bitSet (rget s F.BCAST_CTRL.ACCEPT) (b.cmd - 1) then bcastDrop s
  else if penHolder s = 3 then inc F.PEN_COUNT.FROZEN_REFUSED s
  else bcastAct b cyc s

/-- BCAST_RECEIVE on a lane (R184, R185, R186 0x09). -/
def bcastReceive (rx : IlkRx) (b : Bcast) (cyc : Nat) (s : State) : State :=
  ilkRecv rx.lane true rx.seq (fromChild rx.lane (bcastUse b cyc)) s

end Sys2Proof.Machine
end

