-- ==== Sys2Proof/Machine/Test.lean ====
section
/-!
DEFINITION. Link patterns, checkers, tests, eye scans and boundary-scan instructions (R400 to R410).
-/

namespace Sys2Proof.Machine

def setTst (f : Tst → Tst) (s : State) : State := { s with tst := f s.tst }
def testRun (s : State) (i : Nat) : Option TestRun := mget (fun _ => none) s.tst.runs i
def setRun (i : Nat) (x : Option TestRun) (s : State) : State := setTst (fun t => { t with runs := mput (fun _ => none) i x t.runs }) s

/-- The link of an instance (R400). -/
def isEthInst (i : Nat) : Bool := decide (i < 4)
def isIlkInst (i : Nat) : Bool := decide (4 ≤ i ∧ i < 8)
def isPcieInst (i : Nat) : Bool := decide (8 ≤ i ∧ i < 16)
def isDdrInst (i : Nat) : Bool := decide (i = 16 ∨ i = 17)

/-- Whether an intrusive test holds an instance's link. -/
def underTest (s : State) (i : Nat) : Bool :=
  match testRun s i with
  | some x => x.intrusive
  | none => false

/-- Whether one of the PCIe instances holds its link. -/
def pcieUnderTest (s : State) : Bool := ((List.range 8).map (· + 8)).any (underTest s)

/-! ### Patterns (R401) -/

/-- The recurrence of a PATTERN: its length and its other tap. -/
def patternOf : Nat → Nat × Nat
  | 1 => (7, 6)
  | 2 => (9, 5)
  | 3 => (15, 14)
  | 4 => (23, 18)
  | 5 => (31, 28)
  | _ => (128, 0)

def userPattern (s : State) : Nat := rget s (F.TEST_USER.USER 1) * 2 ^ 64 + rget s (F.TEST_USER.USER 0)

/-- A generator as it starts: the seed cut to the register's length, 0 as 1; the user pattern from bit 0. -/
def genStart (s : State) (i : Nat) : Prbs :=
  let p := patternOf (rget s (F.TEST_CFG.PATTERN i))
  if p.2 = 0 then ⟨128, 0, bitsOf ((indicesWhere 128 (bitSet (userPattern s))).map (127 - ·))⟩
  else
    let r := rget s (F.TEST_SEED.SEED i) % 2 ^ p.1
    ⟨p.1, p.2, if r = 0 then 1 else r⟩

/-- The next bit of a recurrence. -/
def prbsBit (p : Prbs) : Bool := bitSet p.reg (p.len - 1) != (p.tap != 0 && bitSet p.reg (p.tap - 1))

/-- A bit goes into the register. -/
def prbsPush (b : Bool) (p : Prbs) : Prbs := { p with reg := (p.reg * 2 + b.toNat) % 2 ^ p.len }

/-- `n` pattern bits, the first on top, and the generator after them. -/
def genBits : Nat → Nat → Prbs → Nat × Prbs
  | 0, v, p => (v, p)
  | n + 1, v, p => genBits n (2 * v + (prbsBit p).toNat) (prbsPush (prbsBit p) p)

/-- Payload words of 32 pattern bits, most significant first (R404). -/
def genWords : Nat → Prbs → List Nat × Prbs
  | 0, p => ([], p)
  | n + 1, p =>
    let a := genBits 32 0 p
    let r := genWords n a.2
    (a.1 :: r.1, r.2)

/-- Whether 128 bits are a rotation of the user pattern. -/
def isRotation (s : State) (v : Nat) : Bool :=
  let u := (genStart s 0).reg
  (List.range 128).any (fun k => (u * 2 ^ k + u / 2 ^ (128 - k)) % 2 ^ 128 == v)

/-- A checker as it starts. -/
def chkStart (s : State) (i : Nat) : Checker :=
  let p := patternOf (rget s (F.TEST_CFG.PATTERN i))
  { gen := ⟨p.1, p.2, 0⟩, need := p.1 }

/-! ### Starting and ending a test (R402, R403, R405, R406) -/

/-- The reason a GO is refused with, 0 where it is not: 3 running, 1 pattern not for this link, 2 intrusive without FORCE, 4 other channel not IN. -/
def testRefusal (s : State) (i : Nat) (intrusive : Bool) : Nat :=
  let p := rget s (F.TEST_CFG.PATTERN i)
  if (testRun s i).isSome then 3
  else if p = 0 ∨ (p = 7 ∧ !isEthInst i) then 1
  else if intrusive && !on s (F.TEST_CFG.FORCE i) && !isDdrInst i then 2
  else if isDdrInst i && !chIn s (otherCh (i - 16)) then 4
  else 0

/-- A test ends, with its cause: 1 stop, 2 duration, 3 link event, 4 errors; its link goes back to training, and a channel copies what it
missed (R402, R405, R408). -/
def testEnd (i cause : Nat) (s : State) : State :=
  match testRun s i with
  | none => s
  | some x =>
    let s := s |> setRun i none |> rset (F.TEST_CFG.STATE i) 3 |> rset (F.TEST_CFG.END_CAUSE i) cause |> raise pTEST 2
      |> whenB (x.loop != 0) (raise pTEST 5)
    if isEthInst i then whenB x.intrusive (setLink i 1) s
    else if isIlkInst i then whenB x.intrusive (rset (F.ILK_LSTAT.LINK (i - 4)) 1) s
    else if isDdrInst i then
      let c := i - 16
      let s := s |> whenB (rget s (F.TEST_ERR.ERRORS i) != 0) (raise pTEST 6)
        |> whenB (chState s c == 3) (if on s (F.TEST_CFG.WHOLE i) then toResilver c else toCatchup c)
      if s.tst.waits.contains c then s |> setTst (fun t => { t with waits := t.waits.filter (· != c) }) |> ddrTrigger 0 c false else s
    else s

/-- TEST_CFG.GO (R402, R403, R406). -/
def testGo (i : Nat) (s : State) : State :=
  let loop := let v := rget s (F.TEST_CFG.LOOP i); if v = 3 then 0 else v
  let gen := on s (F.TEST_CFG.GEN i)
  let chk := on s (F.TEST_CFG.CHK i)
  let framed := isIlkInst i && on s (F.TEST_CFG.FRAMED i)
  let intrusive := isDdrInst i || ((gen || chk || loop != 0) && !(framed && loop == 0))
  let why := testRefusal s i intrusive
  if why ≠ 0 then s |> rset (F.TEST_CFG.REFUSE i) why |> inc F.TEST_COUNT.REFUSED |> raise pTEST 4
  else
    let run : TestRun := { intrusive, loop, gen := if framed && gen then some (genStart s i) else none,
                           chk := if framed && chk then some (chkStart s i) else none }
    let s := s |> setRun i (some run) |> rset (F.TEST_CFG.STATE i) 1 |> rset (F.TEST_CFG.END_CAUSE i) 0 |> rset (F.TEST_CFG.REFUSE i) 0
      |> rset (F.TEST_ERR.ERRORS i) 0 |> rset (F.TEST_ERR.LOCK_LOSS i) 0 |> rset (F.TEST_BITS.BITS i) 0 |> inc F.TEST_COUNT.TESTS
      |> whenB (loop != 0) (raise pTEST 5)
    if isEthInst i then whenB intrusive (setLink i 0) s
    else if isIlkInst i then whenB intrusive (laneDown (i - 4)) s
    else if isPcieInst i then whenB intrusive pcieLinkDown s
    else setChState (i - 16) 3 s

/-- TEST_CTRL.STOP_ALL (R409). -/
def stopAll (s : State) : State := forAll (List.range 18) (fun i => testEnd i 1) s

/-- Bits compared and errors found while locked are added (R402). -/
def testCount (i bits errs : Nat) (s : State) : State :=
  if (testRun s i).isNone then s else s |> incBy (F.TEST_BITS.BITS i) bits |> incBy (F.TEST_ERR.ERRORS i) errs

/-- ERRORS has reached a non-zero ERR_STOP: the test ends (R402, R408). -/
def errStop (i : Nat) (s : State) : State :=
  let lim := rget s (F.TEST_SEED.ERR_STOP i)
  if (testRun s i).isSome && decide (lim ≠ 0 ∧ lim ≤ rget s (F.TEST_ERR.ERRORS i)) then s |> raise pTEST 1 |> testEnd i 4 else s

/-- A checker gains lock (R402). -/
def checkerLock (i : Nat) (s : State) : State :=
  if (testRun s i).isSome && on s (F.TEST_CFG.CHK i) then s |> rset (F.TEST_CFG.STATE i) 2 |> raise pTEST 0 else s

/-- More than 32 errors in 256 bits: the lock is lost (R402). -/
def checkerLoss (i : Nat) (s : State) : State :=
  if (testRun s i).isSome && rget s (F.TEST_CFG.STATE i) == 2 then
    s |> rset (F.TEST_CFG.STATE i) 1 |> inc (F.TEST_ERR.LOCK_LOSS i) |> raise pTEST 0
  else s

/-- DURATION_MS ends; a DDR4 instance takes 0 for RT_MAX_MS (R402, R405). -/
def durationEnd (i : Nat) (s : State) : State :=
  if rget s (F.TEST_CFG.DURATION_MS i) = 0 ∧ !isDdrInst i then s else testEnd i 2 s

/-- A DDR4 test ends when the other channel leaves IN (R406). -/
def ddrTestWatch (s : State) : State :=
  forAll [0, 1] (fun c s => if (testRun s (16 + c)).isSome && !chIn s (otherCh c) then testEnd (16 + c) 3 s else s) s

/-- A commit that changes an Ethernet port's SPEED, FEC or EN ends the port's test (R406). -/
def ethTestWatch (before s : State) : State :=
  forAll (List.range 4) (fun p s =>
    if [F.ETH_PCFG.SPEED p, F.ETH_PCFG.FEC p, F.ETH_PCFG.EN p].any (fun f => rget before f != rget s f) then testEnd p 3 s else s) s

/-- A retrain answer on a link under an intrusive test is held back (R406). -/
def retrainHeld (s : State) : State := inc F.TEST_COUNT.RETRAIN_HELD s

/-! ### Framed Inkline tests (R404) -/

/-- A TEST frame of 256 payload words goes out on a lane. -/
def testFrameSend (k : Nat) (s : State) : State :=
  match testRun s (4 + k) with
  | none => s
  | some x => match x.gen with
    | none => s
    | some g =>
      let r := genWords 256 g
      s |> setRun (4 + k) (some { x with gen := some r.2 }) |> ilkSend k false ⟨0x0F, r.1⟩

/-- One received bit reaches the checker of instance `i`. -/
def checkBit (i : Nat) (b : Bool) (s : State) : State :=
  match testRun s i with
  | none => s
  | some x => match x.chk with
    | none => s
    | some c =>
      let keep (c : Checker) (s : State) : State := setRun i (some { x with chk := some c }) s
      if c.need ≠ 0 then
        let g := prbsPush b c.gen
        let need := if c.need = 1 ∧ g.tap = 0 ∧ !isRotation s g.reg then 1 else c.need - 1
        keep { c with gen := g, need, run := 0 } s
      else
        let e := prbsBit c.gen != b
        let g := prbsPush (prbsBit c.gen) c.gen
        if !c.locked then
          if e then keep { c with need := c.gen.len, run := 0 } s
          else if c.run = 63 then s |> keep { c with gen := g, run := 0, locked := true, errs := 0 } |> checkerLock i
          else keep { c with gen := g, run := c.run + 1 } s
        else
          let errs := (c.errs * 2 + e.toNat) % 2 ^ 256
          let s := testCount i 1 e.toNat s
          if 32 < popCount 256 errs then s |> keep { c with locked := false, need := c.gen.len, run := 0, errs := 0 } |> checkerLoss i |> errStop i
          else s |> keep { c with gen := g, errs } |> errStop i

/-- A TEST frame's payload is checked, most significant bit first. -/
def checkWords (i : Nat) (ws : List Nat) (s : State) : State :=
  forAll ws (fun w s => forAll ((List.range 32).map (31 - ·)) (fun j => checkBit i (bitSet w j)) s) s

/-- A received TEST frame: acknowledged, or answered as any frame whose CRC fails, and checked either way. -/
def testFrameReceive (k seq : Nat) (crcOk : Bool) (ws : List Nat) (s : State) : State :=
  if crcOk then ilkRecv k false seq (checkWords (4 + k) ws) s
  else s |> ilkBadFrame k false seq 1 |> whenB (laneUp s k) (checkWords (4 + k) ws)

/-! ### PCIe Loopback, eye scan and JTAG (R403, R406 to R409) -/

/-- The partner directs Loopback: running PCIe tests end, the hub follows and DMA parks. -/
def followerEntry (s : State) : State :=
  s |> forAll ((List.range 8).map (· + 8)) (fun i => testEnd i 3) |> setTst (fun t => { t with follower := true }) |> raise pTEST 5 |> linkPark

/-- The partner ends Loopback. -/
def followerExit (s : State) : State :=
  if s.tst.follower then s |> setTst (fun t => { t with follower := false }) |> raise pTEST 5 else s

/-- TEST_EYE.GO: refused while busy and for an instance above 15. -/
def eyeGo (s : State) : State :=
  if on s F.TEST_EYE.BUSY || decide (15 < rget s F.TEST_EYE.INST) then s |> inc F.TEST_COUNT.REFUSED |> raise pTEST 4
  else s |> rset F.TEST_EYE.BUSY 1 |> inc F.TEST_COUNT.EYE_SCANS

/-- An eye-scan point's dwell ends. -/
def eyeDone (mismatch : Nat) (s : State) : State :=
  if on s F.TEST_EYE.BUSY then
    s |> rset F.TEST_EYE.BUSY 0 |> rset F.TEST_EYE_RES.MISMATCH (min mismatch (2 ^ rget s F.TEST_EYE.DWELL_LOG2)) |> inc F.TEST_EYE_RES.POINTS
      |> raise pTEST 3
  else s

/-- Whether an instruction takes balls from their functions (R407). -/
def jtagIntrusive : JtagIns → Bool
  | .bypass | .idcode | .sample => false
  | .extest | .extestPulse | .extestTrain | .clamp | .highz => true

/-- A JTAG instruction is loaded, with its code in the instruction register (R407). -/
def jtagLoad (ins : JtagIns) (ir : Nat) (s : State) : State :=
  let s := rset F.TEST_JTAG.IR_LAST ir s
  if !jtagIntrusive ins then setTst (fun t => { t with scan := none }) s
  else if on s F.TEST_JTAG.EXT_EN then setTst (fun t => { t with scan := some ins }) s
  else s |> setTst (fun t => { t with scan := none }) |> inc F.TEST_JTAG.EXT_REFUSED |> raise pTEST 7

end Sys2Proof.Machine
end

