-- ==== Sys2Proof/Machine/View.lean ====
section
/-!
DEFINITION. What a register reads as (R26, R29 to R33, R37): the stored fields, their shadows under READ_SHADOW, and the figures that the hub
computes.
-/

namespace Sys2Proof.Machine

/-! ### Where a register stands -/

/-- The page of an offset in BAR0, and its slot. -/
def pageAt (off : Nat) : Nat := off / 4096
def slotAt (off : Nat) : Nat := off % 4096

/-- Whether a register stands at an offset (R26, R44). -/
def isReg (off : Nat) : Bool :=
  off % 8 == 0 && allPages.contains (pageAt off)
    && (if slotAt off < 0x80 then slotAt off != 0x78 else (findRow (slotAt off) (pageRows (pageAt off))).isSome)

/-! ### The header (R29 to R33) -/

/-- The header registers of page `p` as they read. EVT_RAW shows a source for the one cycle on which it is raised (log entry 41). -/
def headView (s : State) (p o : Nat) : Nat :=
  let k := setOf s p
  let c := commitSet s k
  if o = 0x00 then put 24 40 (pageName p) + put 0 16 p
  else if o = 0x08 then 0xB101
  else if o = 0x18 then
    rget s (F.PAGE_STATUS.OWN_DENIED p) + put 16 16 (rget s (F.PAGE_STATUS.LOCK_DENIED p)) + put 32 16 (rget s (F.PAGE_STATUS.UNIMPL p))
      + put 48 3 (rget s (F.PAGE_STATUS.LAST_REQ p)) + put 51 8 (rget s (F.PAGE_STATUS.HALF_DROPPED p))
  else if o = 0x28 then rget s (F.EVT_PEND.PEND p)
  else if o = 0x30 then rget s (F.EVT_MASK.MASK p)
  else if o = 0x40 then
    (pagePending s p).toNat + put 3 1 (rget s (F.SHADOW_CTRL.READ_SHADOW p)) + put 4 1 c.isSealed.toNat
      + put 16 16 (rget s (F.SHADOW_CTRL.HELD_CNT p))
  else if o = 0x48 then c.armed.getD c.last
  else if o = 0x50 then
    k + put 3 1 (rget s (F.COMMIT_SET.DOMAIN p)) + put 8 1 c.armed.isSome.toNat + put 9 1 (rget s (F.COMMIT_SET.LATE p))
      + put 10 1 (rget s (F.COMMIT_SET.STALE p)) + put 11 1 (rget s (F.COMMIT_SET.SHORT p)) + put 12 1 (rget s (F.COMMIT_SET.NOTROOT p))
  else if o = 0x58 then rget s (F.LOCK.LOCKED p)
  else if o = 0x60 then penHolder s + put 2 2 (pageClass p) + put 8 1 (rget s (F.OWNER.HOST_GRANT p))
  else if o = 0x68 then rget s (F.SCRATCH.SCRATCH p)
  else if o = 0x70 then put 0 16 (pageVlog p).1 + put 16 16 (pageVlog p).2
  else 0

/-! ### Stored fields -/

/-- A field as it reads: write-only ones read 0, and those that commit read their shadow under READ_SHADOW (R8, R31). -/
def fieldView (s : State) (off : Nat) (f : FieldRow) : Nat :=
  let d := fieldOf off f
  match f.access, f.commit with
  | .wo, _ => 0
  | .ro, _ => rget s d
  | _, .stroke | _, .page => if on s (F.SHADOW_CTRL.READ_SHADOW (pageAt off)) then sget s d else rget s d
  | _, _ => rget s d

/-- A register's stored fields as one word. -/
def storedView (s : State) (off : Nat) : Nat :=
  match findRow (slotAt off) (pageRows (pageAt off)) with
  | none => 0
  | some r => r.fields.foldl (fun a f => a + fieldView s off f * 2 ^ f.lo) 0

/-! ### Figures that a read computes; what is stored in their place is 0 -/

/-- EVA_RAW (R382, R388). -/
def evaView (s : State) (o : Nat) : Nat :=
  if o = 0x88 ∨ o = 0x90 then bitsOf (indicesWhere 64 (fun i => evRaw s (8 * (o - 0x88) + i))) else 0

/-- PEN_STATE and PEN_VOTE: the halves' states and claims, and each copy's HOLDER. -/
def penView (s : State) (o : Nat) : Nat :=
  if o = 0x80 then put 48 3 (halfState s 0) + put 52 3 (halfState s 1) + put 56 1 (rget s (sf 0 F.SCRR_STATE.CLAIM)) + put 57 1 (rget s (sf 1 F.SCRR_STATE.CLAIM))
  else if o = 0xA8 then (List.range 3).foldl (fun a i => a + put (2 * i) 2 (nth {} s.pen.copies i).holder) 0
  else 0

/-- Entry INDEX of the wear ledger. -/
def nibView (s : State) (o : Nat) : Nat := if o = 0x568 then mget zeroAt s.nibs.ledger (rget s F.NIB_LEDGER_SEL.INDEX) else 0

/-- TRIM_STATUS.STATE 4 while staged results are armed; the correction and the weight that are selected (R107, R112). -/
def trimView (s : State) (o : Nat) : Nat :=
  if o = 0xB0 then (if trimState s = 3 ∧ (commitSet s (setOf s pTRIM)).armed.isSome then 1 else 0)
  else if o = 0x108 then
    let i := 4 * rget s F.TRIM_FE_SEL.ENTRY + rget s F.TRIM_FE_SEL.RANGE
    put 0 32 (mget zeroAt s.trim.feOfs i) + put 32 24 (mget zeroAt s.trim.feGain i) + put 56 8 (mget ageSeed s.trim.age i)
  else if o = 0x118 then
    let n := rget s F.TRIM_W_SEL.NIB
    if n < 72 then put 0 32 (mget zeroAt s.trim.wt (22 * n + rget s F.TRIM_W_SEL.DECISION)) else 0
  else 0

/-- FLT_LOAD and FLT_DINFO (R123, R124, R127, R128). -/
def fltView (s : State) (o : Nat) : Nat :=
  if o = 0xA0 then
    put 0 20 (min (ones 20) (loadPpm (fltLoad false s) (mLive s))) + put 20 20 (min (ones 20) (loadPpm (fltLoad true s) (mLive s)))
  else if 0x300 ≤ o ∧ o < 0x500 then
    let e := (o - 0x300) / 8
    let ds := descList true s e
    if !descValid true s e then 0 else
    put 0 24 (min (ones 24) (chainCost 1 ds)) + put 24 12 (min 4095 (chainFill 0 ds))
      + put 36 28 (min (ones 28) ((chainDelays 1 0 ds).getLast?.getD 0 / 16))
  else 0

/-- What DUC_STAT shows of the selected copy. -/
def ducView (s : State) (o : Nat) : Nat :=
  let n := rget s F.DUC_STAT_SEL.SESSION
  let k := rget s F.DUC_STAT_SEL.COPY
  let c := copyOf s n k
  if o = 0x100 then put 0 32 c.frames + put 32 32 (if cCoarse (cfgNow s n) then c.seqC else c.strm.seq)
  else if o = 0x108 then
    put 0 32 (match c.behind with | some b => min (ones 32) (closedBelow s - b) | none => 0) + put 32 16 (min 65535 c.replays)
      + put 48 16 (min 65535 c.drops)
  else 0

/-- ETH_LOAD of each port (R234). -/
def ethView (s : State) (o : Nat) : Nat :=
  if 0xC0 ≤ o ∧ (o - 0xC0) % 0xC0 = 0x10 then
    let p := (o - 0xC0) / 0xC0
    put 0 20 (min (ones 20) (portPpm s.duc.sess true s p)) + put 20 20 (min (ones 20) (portPpm s.duc.sessSh false s p))
  else 0

/-- LEVEL (its DEPTH is stored), CTRL and the summary of the queues (R250, R251, R257, R261). -/
def queView (s : State) (o : Nat) : Nat :=
  if 0x80 ≤ o ∧ o < 0x240 then
    let q := (o - 0x80) / 0x40
    let x := queue s q
    let r := (o - 0x80) % 0x40
    if r = 0x18 then put 0 16 (qFill x) + put 16 16 (qItems x) + put 32 16 x.pend.length
    else if r = 0x28 then put 1 1 x.draining.toNat + put 2 1 (!qFits s q 1).toNat
    else 0
  else if o = 0x248 then
    bitsOf (indicesWhere 7 (fun q => qFill (queue s q) != 0))
      + bitsOf (indicesWhere 7 (fun q => rget s (F.QUE_q_THR.THR q) != 0 && decide (rget s (F.QUE_q_THR.THR q) ≤ qFill (queue s q)))) * 2 ^ 8
      + bitsOf (indicesWhere 7 (fun q => (queue s q).draining)) * 2 ^ 16
  else 0

/-- TEST_STATUS: the instances whose test runs, and those whose checker is locked. -/
def testView (s : State) (o : Nat) : Nat :=
  if o = 0xB8 then
    let st (i : Nat) : Nat := rget s (F.TEST_CFG.STATE i)
    bitsOf (indicesWhere 18 (fun i => st i == 1 || st i == 2)) + bitsOf (indicesWhere 18 (fun i => st i == 2)) * 2 ^ 32
  else 0

/-- What the hub computes at a read beside the stored fields. -/
def computedView (s : State) (p o : Nat) : Nat :=
  if p = pPEN then penView s o
  else if p = pEVA then evaView s o
  else if p = pNIB then nibView s o
  else if p = pTRIM then trimView s o
  else if p = pFLT then fltView s o
  else if p = pDUC then ducView s o
  else if p = pETH then ethView s o
  else if p = pQUE then queView s o
  else if p = pTEST then testView s o
  else 0

/-- A register as it reads, without its side effects. -/
def regView (s : State) (off : Nat) : Nat :=
  if !isReg off then 0
  else if slotAt off < 0x80 then headView s (pageAt off) (slotAt off)
  else storedView s off + computedView s (pageAt off) (slotAt off)

end Sys2Proof.Machine
end

