-- ==== Sys2Proof/Machine/Windows.lean ====
section
/-!
DEFINITION. The indirect windows (R43): INDEX, DATA_LO, DATA_HI and CTRL of each, and what OP reads, writes or invalidates in its table.
Windows are numbered as in `windowPlaces`: 0 FLT_DESC, 1 FLT_ROM, 2 TSU_LQW, 3 ILK_TOPO, 4 DUC_SESS, 5 DUC_KEY, 6 DMA_RING, 7 ATU_TLB,
8 LDU_LTAB, 9 LDU_PAGEW, 10 SCRR_MEM, 11 SCRV_MEM, 12 SYS_IMGW, 13 INKW_RSEL.
-/

namespace Sys2Proof.Machine

/-- The page and the slot offset of a window's INDEX. -/
def winPlace (w : Nat) : Nat × Nat := nth (0, 0) windowPlaces w
def winOff (w : Nat) : Nat := (winPlace w).1 * 4096 + (winPlace w).2
/-- Field `lo` of `n` bits of the window's register `r`: 0 INDEX, 1 DATA_LO, 2 DATA_HI, 3 CTRL. -/
def winFld (w r lo n : Nat) : Fld := ⟨(winOff w + 8 * r) * 8 + lo, n⟩
abbrev wENTRY (w : Nat) : Fld := winFld w 0 0 16
abbrev wWORD (w : Nat) : Fld := winFld w 0 16 8
abbrev wAUTOINC (w : Nat) : Fld := winFld w 0 24 1
abbrev wLO (w : Nat) : Fld := winFld w 1 0 64
abbrev wHI (w : Nat) : Fld := winFld w 2 0 64
abbrev wOP (w : Nat) : Fld := winFld w 3 0 2
abbrev wBUSY (w : Nat) : Fld := winFld w 3 9 1
abbrev wERR (w : Nat) : Fld := winFld w 3 10 1

/-- The window whose registers an offset belongs to. -/
def windowAt (off : Nat) : Option Nat := (List.range 14).find? (fun w => winOff w ≤ off && decide (off < winOff w + 32))

/-- Entries of a table, and 128-bit words of an entry. -/
def winDims : Nat → Nat × Nat
  | 0 => (64, 4)
  | 1 => (48 * 512, 1)
  | 2 => (16, 97)
  | 3 => (1024, 1)
  | 4 => (256, 8)
  | 5 => (32, 1)
  | 6 => (32, 2)
  | 7 => (1024, 2)
  | 8 => (256, 2)
  | 9 => (256, 1)
  | 10 => (16384, 1)
  | 11 => (16384, 1)
  | 12 => (8188, 128)
  | 13 => (8, 5)
  | _ => (0, 0)

/-- The operations that a table allows: 1 read, 2 write, 3 invalidate. -/
def winAllows (w op : Nat) : Bool :=
  match op with
  | 1 => w != 5
  | 2 => !([1, 3, 7] : List Nat).contains w
  | 3 => w == 7
  | _ => false

/-! ### Reading -/

/-- The word of the filter ROM at an entry: the header of a response, or four of its coefficients (R134). -/
def romWord (e : Nat) : Nat :=
  let n := e / 512
  let b := e % 512
  let h := romHead n
  if b = 0 then put 0 16 h.n + put 16 8 h.d + put 24 16 h.nz + put 40 16 (romFill n) + put 64 32 h.gd
  else (List.range 4).foldl (fun a i => let j := 4 * (b - 1) + i; if j < h.n then a + put (32 * i) 32 (ofInt 32 (romCoef n j)) else a) 0

/-- A word of a table as OP 1 fetches it; a shadowed table shows its shadow under READ_SHADOW. -/
def winRead (s : State) (w e i : Nat) : Nat :=
  let sh := on s (F.SHADOW_CTRL.READ_SHADOW (winPlace w).1)
  match w with
  | 0 =>
    (mget wideZero (if sh then s.filt.descSh else s.filt.desc) (4 * e + i)).toNat
      + (if i = 3 then put 32 32 (descRatio (descList sh s e)) else 0)
  | 1 => romWord e
  | 2 => (mget wideZero s.lq (128 * e + i)).toNat
  | 3 => if isRoot s then topoAt s e else 0
  | 4 => (mget wideZero (if sh then s.duc.sessSh else s.duc.sess) (8 * e + i)).toNat + (if i = 0 then put 120 8 (sessSt s e).gen else 0)
  | 6 => ringWord s e i
  | 7 => tlbWord s e i
  | 8 => (mget wideZero (if sh then s.ldu.tabSh else s.ldu.tab) (2 * e + i)).toNat
  | 9 => mget zeroAt s.ldu.pages e
  | 10 => memGet s 0 (2 * e) + memGet s 0 (2 * e + 1) * 2 ^ 64
  | 11 => memGet s 1 (2 * e) + memGet s 1 (2 * e + 1) * 2 ^ 64
  | 12 => (List.range 16).foldl (fun a k => a + (imgByte s (2048 * e + 16 * i + k)).toNat * 256 ^ k) 0
  | 13 => rselWord sh s (8 * e + i)
  | _ => 0

/-! ### Writing -/

/-- A descriptor word as it is stored: reserved bits 0, and STAGES at most 6 (R121). -/
def descStore (i v : Nat) : Nat := if i = 3 then min 6 (slice 0 3 v) else slice 0 24 v + slice 64 24 v * 2 ^ 64

/-- A lamp-table word as it is stored: reserved bits 0 (R327). -/
def lampStore (i v : Nat) : Nat := if i = 0 then slice 0 13 v + put 16 72 (slice 16 72 v) else 0

/-- A word of a table that commits on a stroke goes to its shadow, or waits for a sealed commit (R39, R43). -/
def tableWrite (p tab k v : Nat) (s : State) : State :=
  if pageSealed s p then holdWrite p (tableOff + 65536 * tab + k) v s else shadowTable rselReset tab k v s

/-- A word of the scribe memory of half `h` is written while the half is HALTED or FAILED (R363). -/
def memWindow (h e v : Nat) (s : State) : Option State :=
  if halfState s h = 5 ∨ halfState s h = 6 then some (s |> memSet h (2 * e) v |> memSet h (2 * e + 1) (v / 2 ^ 64)) else none

/-- OP 2 on a table: nothing where the table refuses the word with ERR. -/
def winWrite (w e i v cyc : Nat) (s : State) : Option State :=
  match w with
  | 0 => some (tableWrite pFLT 0 (4 * e + i) (descStore i v) s)
  | 2 =>
    let t := { s with lq := mput wideZero (128 * e + i) (BitVec.ofNat 128 v) s.lq }
    some (if i = 0 then (if bitSet v 127 then lqSet e cyc t else clrBitOf F.TSU_LQ_STATUS.VALID_MASK e t) else t)
  | 4 => some (tableWrite pDUC 1 (8 * e + i) (sessStore i (if i = 5 then v % 2 ^ 112 else v)) s)
  | 5 => some (tableWrite pDUC 2 e v s)
  | 6 => ringEntryWrite e i v s
  | 8 => some (lampWrite (2 * e + i) (lampStore i v) cyc s)
  | 9 => (pageWrite e v s)
  | 10 => memWindow 0 e v s
  | 11 => memWindow 1 e v s
  | 12 => imageWrite (2048 * e + 16 * i) (wideBytes v) s
  | 13 => some (tableWrite pINKW 3 (8 * e + i) (if i = 4 then v % 2 ^ 80 else v) s)
  | _ => none

/-! ### CTRL -/

/-- An operation of a window at DCLK cycle `cyc`: BUSY until it ends; ERR for a place out of range, an OP that the table does not allow or a
word that it refuses (R43). -/
def windowGo (w op cyc : Nat) (s : State) : State :=
  let e := rget s (wENTRY w)
  let i := rget s (wWORD w)
  let s := s |> rset (wOP w) op |> rset (wBUSY w) 1
  if (winDims w).1 ≤ e ∨ (winDims w).2 ≤ i ∨ !winAllows w op then rset (wERR w) 1 s
  else if op = 1 then
    let v := winRead s w e i
    s |> rset (wLO w) v |> rset (wHI w) (v / 2 ^ 64)
  else if op = 2 then
    match winWrite w e i (rget s (wLO w) + rget s (wHI w) * 2 ^ 64) cyc s with
    | some t => t
    | none => s |> rset (wERR w) 1 |> whenB (w == 9) (inc F.LDU_COUNT.PAGE_REFUSED)
  else tlbDrop e s

/-- WINDOW_OP_DONE: BUSY clears, and AUTOINC advances WORD, then ENTRY (R43). -/
def windowDone (w : Nat) (s : State) : State :=
  if rget s (wBUSY w) = 0 then s else
  let s := rset (wBUSY w) 0 s
  if rget s (wAUTOINC w) = 0 then s
  else if rget s (wWORD w) + 1 < (winDims w).2 then inc (wWORD w) s
  else s |> rset (wWORD w) 0 |> rset (wENTRY w) (rget s (wENTRY w) + 1)

end Sys2Proof.Machine
end

