-- ==== Sys2Proof/Machine/Effects.lean ====
section
/-!
DEFINITION. What a register write does beside storing its fields: the action bits (W1S), the write-only words and the fields whose change the
hub acts upon, page by page. `o` is the slot, `v` the word written; commit requests reach the stroke domain six DCLK cycles after the
spine serves them (R17).
-/

namespace Sys2Proof.Machine

/-- The DCLK cycle on which a commit request is in the stroke domain (R17). -/
def armCyc (r : Req) : Nat := r.cyc + 6

/-- SYS: the image store's gate (R372). -/
def sysEffect (o v : Nat) (s : State) : State :=
  if o = 0xC8 then s |> whenB (bitSet v 0) imageOpen |> whenB (bitSet v 1) imageSeal else s

/-- PEN: a hand-over and the unlock (R350, R358). -/
def penEffect (r : Req) (o v : Nat) (s : State) : State :=
  if o = 0x98 then whenB (bitSet v 2) (xferArm (slice 0 2 v) (armCyc r)) s
  else if o = 0xA0 then unlockWrite r (slice 0 16 v) (slice 16 2 v) (bitSet v 18) s
  else s

/-- SCRR and SCRV: BOOT and WD_EN (R356), the mailbox (R357). -/
def scribeEffect (r : Req) (h o v : Nat) (before s : State) : State :=
  if o = 0x80 then
    s |> watchdogEnable h (dclkAt r s) (on before (sf h F.SCRR_CTRL.WD_EN)) |> whenB (bitSet v 0) (halfReset h true)
  else if o = 0xC8 then mbinPush h v s
  else if o = 0xD0 then s |> whenB (bitSet v 10) (mbinClear h) |> whenB (bitSet v 8) (mbinSend h)
  else s

/-- The sources of EVA register `j` that are not reserved (R383). -/
def evMask (j v : Nat) : Nat := v &&& bitsOf (indicesWhere 64 (fun i => !evReserved (64 * j + i)))

/-- EVA: clearing and forcing sources, and the enables and vectors whose change is a rise (R383 to R388). -/
def evaEffect (o v : Nat) (before s : State) : State :=
  if o = 0x98 ∨ o = 0xA0 then evaPendClear ((o - 0x98) / 8) v s
  else if o = 0xA8 ∨ o = 0xB0 then s |> rset (F.EVA_EN.EN ((o - 0xA8) / 8)) (evMask ((o - 0xA8) / 8) v) |> evaRemap before
  else if o = 0xB8 ∨ o = 0xC0 then rset (F.EVA_EVQ.EVQ ((o - 0xB8) / 8)) (evMask ((o - 0xB8) / 8) v) s
  else if o = 0xF0 ∨ o = 0xF8 then evaForce ((o - 0xF0) / 8) v s
  else evaRemap before s

/-- TSU: the jump record and the launch queue (R147, R161); ACCEPT is a mark of the shadow write. -/
def tsuEffect (o v : Nat) (s : State) : State :=
  if o = 0xD0 then whenB (bitSet v 3) jumpReject s
  else if o = 0x140 then whenB (bitSet v 1) lqFlush s
  else s

/-- ILK: RETRAIN of a lane (R189). -/
def ilkEffect (o v : Nat) (s : State) : State :=
  if 0x120 ≤ o ∧ o < 0x2A0 ∧ (o - 0x120) % 0x60 = 0 then whenB (bitSet v 1) (laneRetrain ((o - 0x120) / 0x60)) s else s

/-- NIB: a request to retire, park or unpark (R87). -/
def nibEffectW (o v : Nat) (s : State) : State := if o = 0x548 then nibRequest (slice 0 7 v) (slice 8 2 v) (slice 16 16 v) s else s

/-- TRIM: GO and ABORT (R98, R110). -/
def trimEffect (o v : Nat) (s : State) : State :=
  if o = 0x80 then s |> whenB (bitSet v 0) (trimTrigger 4) |> whenB (bitSet v 1) trimAbort else s

/-- FLT: the arming of a synchronising reset (R125). -/
def fltEffect (r : Req) (o v : Nat) (s : State) : State :=
  if o = 0x80 then whenB (bitSet v 0) (syncNext (armCyc r)) s
  else if o = 0x88 then syncWrite v (armCyc r) s
  else s

/-- A peek is armed for the next stroke (R133). -/
def peekArm (s : State) : State :=
  { s with filt := { s.filt with peek := some (nextStroke s) } } |> rset F.FAST_PEEK_SEL.DONE 0

def fastEffect (o v : Nat) (s : State) : State := if o = 0x90 then whenB (bitSet v 16) peekArm s else s

/-- TRG: units armed and disarmed (R194). -/
def trgEffect (o v : Nat) (s : State) : State :=
  if o = 0x488 then forAll (indicesWhere 64 (bitSet v)) armUnit s
  else if o = 0x490 then forAll (indicesWhere 64 (bitSet v)) (fun u => setArmed u false) s
  else s

/-- CAP: a slot is released (R208). -/
def capEffect (o v : Nat) (s : State) : State := if o = 0x98 then whenB (bitSet v 8) (capRelease (slice 0 4 v)) s else s

/-- QUE: a push on CMDQ, a threshold held to the depth, a flush (R249, R257, R259). -/
def queEffect (o v : Nat) (s : State) : State :=
  if o = 0x240 then forAll (indicesWhere 7 (bitSet v)) flushQueue s
  else if 0x80 ≤ o ∧ o < 0x240 then
    let q := (o - 0x80) / 0x40
    let x := (o - 0x80) % 0x40
    if x = 0x00 then whenB (q == 0) (cmdPush v false) s
    else if x = 0x08 then whenB (q == 0) (cmdPush v true) s
    else if x = 0x20 then rset (F.QUE_q_THR.THR q) (min (qDepth q) (slice 0 16 v)) s
    else if x = 0x28 then whenB (bitSet v 0) (flushQueue q) s
    else s
  else s

/-- GO of INKW_FREEZE: 1 resume, 2 retire, 3 hard repair (R285). -/
def freezeGo (op : Nat) (s : State) : State :=
  if op = 1 then freezeResume s else if op = 2 then freezeRetire s else if op = 3 then freezeHard s else s

/-- INKW: retraining and hPPR of a channel, and the freeze (R285, R287, R290). -/
def inkEffect (o v : Nat) (s : State) : State :=
  let c := bit v 2
  let force := bitSet v 3
  if o = 0xD0 then s |> whenB (bitSet v 0) (ddrTrigger 0 c force) |> whenB (bitSet v 1) (ddrTrigger 1 c force)
  else if o = 0xD8 then whenB (bitSet v 2) (freezeGo (slice 0 2 v)) s
  else s

/-- DMA: resumes, the image fetch and the tails (R302, R313, R315, R316). -/
def dmaEffect (o v : Nat) (s : State) : State :=
  if o = 0x80 then whenB (bitSet v 1) linkResume s
  else if o = 0x90 then whenB (bitSet v 8) (fun s => s |> dmaResume (slice 2 2 v) (slice 0 2 v) (slice 16 16 v) |> fetchLeft) s
  else if o = 0xE0 then
    s |> whenB (bitSet v 32) (imageFetchGo (slice 0 24 v)) |> whenB (bitSet v 33) (fun s => s |> fetchAbortReq |> fetchLeft)
  else if 0x100 ≤ o ∧ o < 0x200 then tailWrite ((o - 0x100) / 8) (slice 0 19 v) s
  else s

/-- ATU: its enable, invalidations and probes (R310, R320). -/
def atuEffect (o v : Nat) (before s : State) : State :=
  if o = 0x80 then whenB (rget before F.ATU_CTRL.EN != bit v 0) (atuEnable (bit v 0)) s
  else if o = 0x90 then whenB (bitSet v 0) (atuInvalidate (slice 1 2 v)) s
  else if o = 0xE0 then atuProbe v s
  else s

/-- PCIE: RETRAIN takes the link through Recovery (R321). -/
def pcieEffect (o v : Nat) (s : State) : State := if o = 0x90 then whenB (bitSet v 1) (pcieRecovery 0) s else s

/-- LDU: a string retired by the host, a turn armed, a string's faults cleared (R332, R334, R335). -/
def lduEffect (r : Req) (o v : Nat) (s : State) : State :=
  if o = 0x80 then whenB (bitSet v 12) (stringRetireHost (slice 8 4 v) (slice 16 16 v)) s
  else if o = 0x90 then whenB (bitSet v 2) (turnArm (slice 0 2 v) (bitSet v 3) (armCyc r)) s
  else if 0x1A0 ≤ o ∧ o < 0x3A0 ∧ (o - 0x1A0) % 0x20 = 0 then whenB (bitSet v 2) (stringClear ((o - 0x1A0) / 0x20)) s
  else s

/-- TEST: starts, stops and eye scans (R402, R403, R407, R409); EXT_EN stays as it is once the hub is useful. -/
def testEffect (o v : Nat) (before s : State) : State :=
  if o = 0x80 then whenB (bitSet v 0) stopAll s
  else if o = 0x88 then whenB (bitSet v 24) eyeGo s
  else if o = 0xA8 then whenB (on s F.SYS_USEFUL.USEFUL) (rset F.TEST_JTAG.EXT_EN (rget before F.TEST_JTAG.EXT_EN)) s
  else if 0xC0 ≤ o ∧ o < 0xC0 + 18 * 0x20 ∧ (o - 0xC0) % 0x20 = 0 then
    let i := (o - 0xC0) / 0x20
    s |> whenB (bitSet v 7) (testGo i) |> whenB (bitSet v 8) (testEnd i 1)
  else s

/-- What a write to a register past the header does beside storing its fields. -/
def pageEffect (r : Req) (off v : Nat) (before s : State) : State :=
  let p := pageAt off
  let o := slotAt off
  if p = pSYS then sysEffect o v s
  else if p = pPEN then penEffect r o v s
  else if p = pSCRR then scribeEffect r 0 o v before s
  else if p = pSCRV then scribeEffect r 1 o v before s
  else if p = pEVA then evaEffect o v before s
  else if p = pTSU then tsuEffect o v s
  else if p = pILK then ilkEffect o v s
  else if p = pNIB then nibEffectW o v s
  else if p = pTRIM then trimEffect o v s
  else if p = pFLT then fltEffect r o v s
  else if p = pFAST then fastEffect o v s
  else if p = pTRG then trgEffect o v s
  else if p = pCAP then capEffect o v s
  else if p = pQUE then queEffect o v s
  else if p = pINKW then inkEffect o v s
  else if p = pDMA then dmaEffect o v s
  else if p = pATU then atuEffect o v before s
  else if p = pPCIE then pcieEffect o v s
  else if p = pLDU then lduEffect r o v s
  else if p = pTEST then testEffect o v before s
  else s

/-- Registers whose write is all in its effect: EVA_PEND, FLT_SYNC, DMA_TAIL. -/
def effectOnly (off : Nat) : Bool :=
  off == 0x4098 || off == 0x40A0 || off == 0x17088 || (decide (0x1F100 ≤ off) && decide (off < 0x1F200))

end Sys2Proof.Machine
end

