-- ==== Sys2Proof/Machine/Status.lean ====
section
/-!
DEFINITION. The status counters of each page, and CLR_STATUS (R29, R30 and the register chapters).
-/

namespace Sys2Proof.Machine

/-- A counter of a page: its slot, the stride and the number of its copies, its lowest bit and its width. -/
structure CounterRow where
  off : Nat
  stride : Nat
  count : Nat
  lo : Nat
  width : Nat

/-- The counters of SYS. -/
def countersSYS : List CounterRow := [
  ⟨0x138, 0x8, 1, 0, 16⟩,
  ⟨0x138, 0x8, 1, 16, 16⟩,
  ⟨0x138, 0x8, 1, 32, 16⟩,
  ⟨0x138, 0x8, 1, 48, 16⟩]

/-- The counters of PEN. -/
def countersPEN : List CounterRow := [
  ⟨0xa8, 0x8, 1, 16, 8⟩,
  ⟨0xa8, 0x8, 1, 24, 8⟩,
  ⟨0xa8, 0x8, 1, 32, 8⟩,
  ⟨0xa8, 0x8, 1, 48, 8⟩,
  ⟨0xb0, 0x8, 1, 0, 16⟩,
  ⟨0xb0, 0x8, 1, 16, 16⟩,
  ⟨0xb0, 0x8, 1, 32, 16⟩,
  ⟨0xb0, 0x8, 1, 48, 16⟩]

/-- The counters of SCRR. -/
def countersSCRR : List CounterRow := [
  ⟨0xc0, 0x8, 1, 0, 32⟩,
  ⟨0xc0, 0x8, 1, 32, 16⟩,
  ⟨0xc0, 0x8, 1, 48, 8⟩,
  ⟨0xc0, 0x8, 1, 56, 8⟩,
  ⟨0xd0, 0x8, 1, 16, 16⟩]

/-- The counters of SCRV. -/
def countersSCRV : List CounterRow := [
  ⟨0xc0, 0x8, 1, 0, 32⟩,
  ⟨0xc0, 0x8, 1, 32, 16⟩,
  ⟨0xc0, 0x8, 1, 48, 8⟩,
  ⟨0xc0, 0x8, 1, 56, 8⟩,
  ⟨0xd0, 0x8, 1, 16, 16⟩]

/-- The counters of EVA. -/
def countersEVA : List CounterRow := [
  ⟨0xd0, 0x8, 1, 32, 32⟩,
  ⟨0xd8, 0x8, 1, 0, 32⟩,
  ⟨0xd8, 0x8, 1, 32, 32⟩,
  ⟨0xe8, 0x8, 1, 0, 32⟩]

/-- The counters of TSU. -/
def countersTSU : List CounterRow := [
  ⟨0x130, 0x8, 1, 0, 16⟩,
  ⟨0x130, 0x8, 1, 16, 16⟩,
  ⟨0x130, 0x8, 1, 32, 16⟩,
  ⟨0x148, 0x8, 1, 32, 16⟩,
  ⟨0x148, 0x8, 1, 48, 16⟩,
  ⟨0x1b8, 0x8, 1, 32, 32⟩]

/-- The counters of ILK. -/
def countersILK : List CounterRow := [
  ⟨0xc8, 0x8, 1, 32, 16⟩,
  ⟨0xe8, 0x8, 1, 0, 16⟩,
  ⟨0xe8, 0x8, 1, 16, 16⟩,
  ⟨0xe8, 0x8, 1, 32, 16⟩,
  ⟨0xf0, 0x8, 1, 0, 16⟩,
  ⟨0xf0, 0x8, 1, 16, 16⟩,
  ⟨0xf0, 0x8, 1, 32, 16⟩,
  ⟨0xf0, 0x8, 1, 48, 16⟩,
  ⟨0x168, 0x60, 4, 0, 32⟩,
  ⟨0x168, 0x60, 4, 32, 32⟩,
  ⟨0x170, 0x60, 4, 0, 32⟩,
  ⟨0x170, 0x60, 4, 32, 32⟩,
  ⟨0x178, 0x60, 4, 0, 32⟩,
  ⟨0x178, 0x60, 4, 32, 32⟩]

/-- The counters of BCAST. -/
def countersBCAST : List CounterRow := [
  ⟨0x98, 0x8, 1, 0, 16⟩,
  ⟨0x98, 0x8, 1, 16, 16⟩,
  ⟨0x98, 0x8, 1, 32, 16⟩,
  ⟨0x98, 0x8, 1, 48, 16⟩,
  ⟨0xe8, 0x8, 1, 0, 32⟩,
  ⟨0xf0, 0x8, 1, 0, 32⟩,
  ⟨0xf0, 0x8, 1, 32, 32⟩,
  ⟨0xf8, 0x8, 1, 0, 32⟩,
  ⟨0xf8, 0x8, 1, 32, 32⟩]

/-- The counters of FEGRP. -/
def countersFEGRP : List CounterRow := [
  ⟨0x98, 0x20, 32, 0, 32⟩,
  ⟨0x98, 0x20, 32, 32, 32⟩]

/-- The counters of FECH0. -/
def countersFECH0 : List CounterRow := [
  ⟨0x80, 0x8, 256, 56, 8⟩]

/-- The counters of FECH1. -/
def countersFECH1 : List CounterRow := [
  ⟨0x80, 0x8, 256, 56, 8⟩]

/-- The counters of EXC. -/
def countersEXC : List CounterRow := [
  ⟨0x90, 0x18, 16, 16, 16⟩]

/-- The counters of NIB. -/
def countersNIB : List CounterRow := [
  ⟨0x570, 0x8, 1, 0, 16⟩,
  ⟨0x570, 0x8, 1, 16, 8⟩,
  ⟨0x570, 0x8, 1, 24, 8⟩,
  ⟨0x570, 0x8, 1, 32, 32⟩,
  ⟨0x2c0, 0x8, 72, 40, 8⟩]

/-- The counters of TRIM. -/
def countersTRIM : List CounterRow := [
  ⟨0x120, 0x8, 1, 0, 16⟩,
  ⟨0x120, 0x8, 1, 16, 16⟩,
  ⟨0x120, 0x8, 1, 32, 16⟩,
  ⟨0x120, 0x8, 1, 48, 16⟩]

/-- The counters of FLT. -/
def countersFLT : List CounterRow := [
  ⟨0xb0, 0x8, 1, 0, 16⟩,
  ⟨0xb0, 0x8, 1, 16, 16⟩,
  ⟨0xb0, 0x8, 1, 32, 16⟩,
  ⟨0xb0, 0x8, 1, 48, 16⟩,
  ⟨0xb8, 0x8, 1, 0, 32⟩,
  ⟨0xb8, 0x8, 1, 32, 16⟩]

/-- The counters of FAST. -/
def countersFAST : List CounterRow := [
  ⟨0xb0, 0x8, 1, 0, 32⟩]

/-- The counters of TRG. -/
def countersTRG : List CounterRow := [
  ⟨0x4b8, 0x8, 1, 0, 16⟩,
  ⟨0x4b8, 0x8, 1, 16, 16⟩,
  ⟨0x4b8, 0x8, 1, 32, 16⟩,
  ⟨0x4b8, 0x8, 1, 48, 16⟩,
  ⟨0x4c0, 0x8, 16, 0, 16⟩,
  ⟨0x4c0, 0x8, 16, 16, 16⟩,
  ⟨0x4c0, 0x8, 16, 32, 16⟩,
  ⟨0x4c0, 0x8, 16, 48, 16⟩,
  ⟨0x540, 0x8, 16, 0, 16⟩,
  ⟨0x540, 0x8, 16, 16, 16⟩,
  ⟨0x540, 0x8, 16, 32, 16⟩,
  ⟨0x540, 0x8, 16, 48, 16⟩]

/-- The counters of CAP. -/
def countersCAP : List CounterRow := [
  ⟨0xa8, 0x8, 1, 0, 16⟩,
  ⟨0xa8, 0x8, 1, 16, 16⟩,
  ⟨0xa8, 0x8, 1, 32, 16⟩,
  ⟨0xa8, 0x8, 1, 48, 16⟩]

/-- The counters of DUC. -/
def countersDUC : List CounterRow := [
  ⟨0xd8, 0x8, 1, 0, 16⟩,
  ⟨0xd8, 0x8, 1, 16, 16⟩,
  ⟨0xd8, 0x8, 1, 32, 16⟩,
  ⟨0xd8, 0x8, 1, 48, 16⟩,
  ⟨0xe0, 0x8, 1, 0, 16⟩,
  ⟨0xe0, 0x8, 1, 16, 16⟩,
  ⟨0xe0, 0x8, 1, 32, 16⟩,
  ⟨0xe0, 0x8, 1, 48, 16⟩,
  ⟨0xe8, 0x8, 1, 0, 32⟩,
  ⟨0xe8, 0x8, 1, 32, 32⟩]

/-- The counters of ETH. -/
def countersETH : List CounterRow := [
  ⟨0xd8, 0xc0, 4, 0, 64⟩,
  ⟨0xe0, 0xc0, 4, 0, 64⟩,
  ⟨0xe8, 0xc0, 4, 0, 64⟩,
  ⟨0xf0, 0xc0, 4, 0, 64⟩,
  ⟨0xf8, 0xc0, 4, 0, 16⟩,
  ⟨0xf8, 0xc0, 4, 16, 16⟩,
  ⟨0xf8, 0xc0, 4, 32, 16⟩,
  ⟨0xf8, 0xc0, 4, 48, 16⟩,
  ⟨0x100, 0xc0, 4, 0, 32⟩,
  ⟨0x100, 0xc0, 4, 32, 32⟩,
  ⟨0x108, 0xc0, 4, 0, 32⟩,
  ⟨0x108, 0xc0, 4, 32, 32⟩,
  ⟨0x110, 0xc0, 4, 0, 32⟩,
  ⟨0x110, 0xc0, 4, 32, 16⟩,
  ⟨0x110, 0xc0, 4, 48, 16⟩,
  ⟨0x118, 0xc0, 4, 0, 32⟩,
  ⟨0x118, 0xc0, 4, 32, 32⟩,
  ⟨0x120, 0xc0, 4, 0, 16⟩,
  ⟨0x120, 0xc0, 4, 16, 16⟩,
  ⟨0x120, 0xc0, 4, 32, 32⟩,
  ⟨0x128, 0xc0, 4, 0, 32⟩,
  ⟨0x128, 0xc0, 4, 32, 32⟩,
  ⟨0x130, 0xc0, 4, 0, 32⟩,
  ⟨0x130, 0xc0, 4, 32, 32⟩,
  ⟨0x138, 0xc0, 4, 0, 16⟩,
  ⟨0x138, 0xc0, 4, 16, 16⟩,
  ⟨0x138, 0xc0, 4, 32, 16⟩,
  ⟨0x138, 0xc0, 4, 48, 16⟩,
  ⟨0x140, 0xc0, 4, 0, 16⟩,
  ⟨0x140, 0xc0, 4, 16, 16⟩,
  ⟨0x140, 0xc0, 4, 32, 16⟩,
  ⟨0x140, 0xc0, 4, 48, 16⟩,
  ⟨0x148, 0xc0, 4, 0, 16⟩,
  ⟨0x148, 0xc0, 4, 16, 16⟩,
  ⟨0x148, 0xc0, 4, 32, 16⟩,
  ⟨0x150, 0xc0, 4, 0, 32⟩,
  ⟨0x150, 0xc0, 4, 32, 32⟩,
  ⟨0x158, 0xc0, 4, 0, 16⟩,
  ⟨0x158, 0xc0, 4, 16, 16⟩,
  ⟨0x160, 0xc0, 4, 0, 32⟩,
  ⟨0x160, 0xc0, 4, 32, 32⟩,
  ⟨0x168, 0xc0, 4, 0, 32⟩,
  ⟨0x168, 0xc0, 4, 32, 32⟩,
  ⟨0x170, 0xc0, 4, 0, 32⟩,
  ⟨0x170, 0xc0, 4, 32, 32⟩]

/-- The counters of QUE. -/
def countersQUE : List CounterRow := [
  ⟨0xb0, 0x40, 7, 0, 32⟩,
  ⟨0xb0, 0x40, 7, 32, 16⟩,
  ⟨0xb0, 0x40, 7, 48, 16⟩,
  ⟨0xb8, 0x40, 7, 0, 16⟩,
  ⟨0xb8, 0x40, 7, 16, 16⟩,
  ⟨0xb8, 0x40, 7, 32, 32⟩]

/-- The counters of INKW. -/
def countersINKW : List CounterRow := [
  ⟨0xe0, 0x8, 1, 0, 32⟩,
  ⟨0xe0, 0x8, 1, 32, 16⟩,
  ⟨0xb0, 0x8, 1, 32, 32⟩,
  ⟨0xf8, 0x8, 1, 0, 32⟩,
  ⟨0xf8, 0x8, 1, 32, 16⟩,
  ⟨0x108, 0x80, 2, 0, 32⟩,
  ⟨0x108, 0x80, 2, 32, 32⟩,
  ⟨0x110, 0x80, 2, 0, 16⟩,
  ⟨0x110, 0x80, 2, 16, 16⟩,
  ⟨0x110, 0x80, 2, 32, 32⟩,
  ⟨0x118, 0x80, 2, 0, 32⟩,
  ⟨0x118, 0x80, 2, 32, 32⟩,
  ⟨0x120, 0x80, 2, 16, 16⟩,
  ⟨0x138, 0x80, 2, 0, 32⟩,
  ⟨0x140, 0x80, 2, 40, 24⟩,
  ⟨0x158, 0x80, 2, 0, 16⟩,
  ⟨0x160, 0x80, 2, 16, 16⟩,
  ⟨0x160, 0x80, 2, 32, 32⟩,
  ⟨0x178, 0x80, 2, 0, 32⟩,
  ⟨0x478, 0x8, 1, 0, 16⟩,
  ⟨0x478, 0x8, 1, 16, 16⟩,
  ⟨0x478, 0x8, 1, 32, 16⟩,
  ⟨0x478, 0x8, 1, 48, 16⟩]

/-- The counters of DMA. -/
def countersDMA : List CounterRow := [
  ⟨0xc8, 0x8, 1, 0, 32⟩,
  ⟨0xc8, 0x8, 1, 32, 32⟩,
  ⟨0xd0, 0x8, 1, 0, 32⟩,
  ⟨0xd0, 0x8, 1, 32, 16⟩,
  ⟨0xd0, 0x8, 1, 48, 16⟩,
  ⟨0xe8, 0x8, 1, 0, 32⟩,
  ⟨0xe8, 0x8, 1, 32, 16⟩,
  ⟨0xe8, 0x8, 1, 48, 16⟩,
  ⟨0xf0, 0x8, 1, 0, 64⟩,
  ⟨0xf8, 0x8, 1, 0, 64⟩,
  ⟨0x200, 0x8, 32, 0, 32⟩,
  ⟨0x200, 0x8, 32, 32, 16⟩,
  ⟨0x200, 0x8, 32, 48, 8⟩,
  ⟨0x200, 0x8, 32, 56, 8⟩]

/-- The counters of PCIE. -/
def countersPCIE : List CounterRow := [
  ⟨0xa0, 0x8, 1, 0, 16⟩,
  ⟨0xa0, 0x8, 1, 16, 16⟩,
  ⟨0xa0, 0x8, 1, 32, 16⟩,
  ⟨0xa0, 0x8, 1, 48, 16⟩,
  ⟨0xa8, 0x8, 1, 0, 16⟩,
  ⟨0xa8, 0x8, 1, 16, 16⟩,
  ⟨0xa8, 0x8, 1, 32, 16⟩,
  ⟨0xa8, 0x8, 1, 48, 16⟩,
  ⟨0xb0, 0x8, 1, 0, 16⟩,
  ⟨0xb0, 0x8, 1, 16, 16⟩,
  ⟨0xb0, 0x8, 1, 32, 16⟩,
  ⟨0xb0, 0x8, 1, 48, 16⟩,
  ⟨0xb8, 0x8, 1, 0, 32⟩,
  ⟨0xb8, 0x8, 1, 32, 32⟩,
  ⟨0xc0, 0x8, 1, 0, 64⟩,
  ⟨0xc8, 0x8, 1, 0, 64⟩,
  ⟨0xd0, 0x8, 1, 0, 32⟩,
  ⟨0xd8, 0x8, 1, 0, 32⟩,
  ⟨0xd8, 0x8, 1, 32, 32⟩,
  ⟨0xe0, 0x8, 1, 0, 32⟩,
  ⟨0xe0, 0x8, 1, 32, 32⟩,
  ⟨0xe8, 0x8, 1, 0, 16⟩,
  ⟨0xe8, 0x8, 1, 16, 16⟩,
  ⟨0xe8, 0x8, 1, 32, 16⟩]

/-- The counters of LDU. -/
def countersLDU : List CounterRow := [
  ⟨0xd8, 0x8, 1, 0, 16⟩,
  ⟨0xd8, 0x8, 1, 16, 16⟩,
  ⟨0xd8, 0x8, 1, 32, 16⟩,
  ⟨0xd8, 0x8, 1, 48, 16⟩,
  ⟨0x1b8, 0x20, 16, 0, 16⟩,
  ⟨0x1b8, 0x20, 16, 16, 16⟩,
  ⟨0x1b8, 0x20, 16, 32, 16⟩,
  ⟨0x1b8, 0x20, 16, 48, 16⟩]

/-- The counters of TEST. -/
def countersTEST : List CounterRow := [
  ⟨0xb0, 0x8, 1, 0, 16⟩,
  ⟨0xb0, 0x8, 1, 16, 16⟩,
  ⟨0xb0, 0x8, 1, 32, 16⟩,
  ⟨0xb0, 0x8, 1, 48, 16⟩]

/-- The counters of MON. -/
def countersMON : List CounterRow := [
  ⟨0xb0, 0x8, 1, 0, 16⟩,
  ⟨0xb0, 0x8, 1, 16, 16⟩,
  ⟨0xb0, 0x8, 1, 32, 16⟩,
  ⟨0xb0, 0x8, 1, 48, 16⟩]

/-- The counters that CLR_STATUS of a page clears; the chapters of PTP and ATU name none. -/
def counters (p : Nat) : List CounterRow :=
  if p = pSYS then countersSYS
  else if p = pPEN then countersPEN
  else if p = pSCRR then countersSCRR
  else if p = pSCRV then countersSCRV
  else if p = pEVA then countersEVA
  else if p = pTSU then countersTSU
  else if p = pILK then countersILK
  else if p = pBCAST then countersBCAST
  else if p = pFEGRP then countersFEGRP
  else if p = pFECH0 then countersFECH0
  else if p = pFECH1 then countersFECH1
  else if p = pEXC then countersEXC
  else if p = pNIB then countersNIB
  else if p = pTRIM then countersTRIM
  else if p = pFLT then countersFLT
  else if p = pFAST then countersFAST
  else if p = pTRG then countersTRG
  else if p = pCAP then countersCAP
  else if p = pDUC then countersDUC
  else if p = pETH then countersETH
  else if p = pQUE then countersQUE
  else if p = pINKW then countersINKW
  else if p = pDMA then countersDMA
  else if p = pPCIE then countersPCIE
  else if p = pLDU then countersLDU
  else if p = pTEST then countersTEST
  else if p = pMON then countersMON
  else []

/-- The fields of a page's counters. -/
def counterFlds (p : Nat) : List Fld :=
  (counters p).flatMap (fun r => (List.range r.count).map (fun i => (⟨(p * 4096 + r.off + r.stride * i) * 8 + r.lo, r.width⟩ : Fld)))

/-- Counts that DUC keeps by copy. -/
def clearCopies (s : State) : State :=
  setDuc (fun d => { d with copies := (d.copies.map (fun x => (x.1, { x.2 with frames := 0, replays := 0, drops := 0 }))).filter (fun x => x.2 != {}) }) s

/-- CLR_STATUS of page `p`: the PAGE_STATUS counters and the page's own become 0. -/
def clearStatus (p : Nat) (s : State) : State :=
  s |> rset (F.PAGE_STATUS.OWN_DENIED p) 0 |> rset (F.PAGE_STATUS.LOCK_DENIED p) 0 |> rset (F.PAGE_STATUS.UNIMPL p) 0
    |> rset (F.PAGE_STATUS.HALF_DROPPED p) 0 |> clearAll (counterFlds p) |> whenB (p == pDUC) clearCopies

end Sys2Proof.Machine
end

