-- ==== Sys2Proof/Machine/Spine.lean ====
section
/-!
DEFINITION. The register spine: reads with their side effects, writes judged against OWNER and LOCK and then stored, held, armed or acted
upon (R25 to R43), the half accesses of BAR0 (R25) and the SPI target (R28).
-/

namespace Sys2Proof.Machine

/-! ### Reads -/

/-- A read of TSU_NOW_S latches the other time registers (R161). -/
def tsuNowRead (cyc : Nat) (s : State) : State :=
  let u := tsuUnits s cyc
  s |> rset F.TSU_NOW_S.SECONDS (u / secUnits) |> rset F.TSU_NOW_NS.NS (u % secUnits / 65536) |> rset F.TSU_NOW_NS.FRAC (u % 65536)
    |> rset F.TSU_NOW_STROKE.STROKE (strokeNow s) |> showStrike

/-- The queue to the host whose DATA, or DATA_END for `x` = 8, stands at an offset (R256); those of CMDQ only take writes (R262). -/
def queueAt (x off : Nat) : Option Nat :=
  if 0x1D0C0 ≤ off ∧ off < 0x1D240 ∧ (off - 0x1D080) % 0x40 = x then some ((off - 0x1D080) / 0x40) else none

/-- A register is read at DCLK cycle `cyc`: its value, and what the read does (R26, R37, R161, R256). `bad`: the word at the head of a queue
fails its parity. -/
def readReg (off cyc : Nat) (bad : Bool) (s : State) : Nat × State :=
  match queueAt 0 off with
  | some q => (popValue s q, popWord q bad s)
  | none =>
    match queueAt 8 off with
    | some q => (popValue s q, s)
    | none => if off = 0x5088 then let t := tsuNowRead cyc s; (regView t off, t) else (regView s off, s)

/-! ### Who may write (R34 to R36, R344) -/

/-- Registers that accept a write from every requester: EVT_PEND, EVT_FORCE, SCRATCH and PAGE_CTRL[0]. -/
def anyWriter (o : Nat) : Bool := o == 0x10 || o == 0x28 || o == 0x38 || o == 0x68

/-- Whether OWNER accepts a write of requester `w` to a register. -/
def mayWrite (w : Requester) (off : Nat) (s : State) : Bool :=
  let p := pageAt off
  let o := slotAt off
  if anyWriter o then true
  else if pageClass p = 0 then (if o = 0x60 then holdsPen w s else penRule w p s)
  else if p = pSYS then (if o = 0x60 then holdsPen w s else if off = 0xA0 then penRule w pSYS s else true)
  else if pageClass p = 1 then true
  else w == .bar0 || w == .spi || (p == pSCRR && w == .recto) || (p == pSCRV && w == .verso)

/-- Whether a register has a field that LOCK protects (R8). -/
def isLocked (off : Nat) : Bool :=
  match findRow (slotAt off) (pageRows (pageAt off)) with
  | none => false
  | some r => slotAt off ≥ 0x80 && r.fields.any (·.locked)

/-- A write that arms something, which a frozen pen refuses and counts (R349). -/
def isArming (off v : Nat) : Bool :=
  (slotAt off == 0x48 && v != allOnes) || (slotAt off == 0x40 && bitSet v 2) || (off == 0x17088 && v != allOnes)
    || (off == 0x17080 && bitSet v 0) || (off == 0x22090 && bitSet v 2)

/-! ### The header's writes (R29 to R33, R36) -/

/-- Whether a key window of a page is open for a requester at a DCLK cycle (R36). -/
def keyOpen (p : Nat) (w : Requester) (now : Nat) (s : State) : Bool :=
  s.spine.keys.any (fun k => k.1 == p && k.2.1 == w && decide (now ≤ k.2.2))

def dropKey (p : Nat) (s : State) : State := { s with spine := { s.spine with keys := s.spine.keys.filter (fun k => k.1 != p) } }

/-- KEY opens the window for CLEAR, of 1,024 DCLK cycles. -/
def lockKey (p : Nat) (r : Req) (s : State) : State :=
  let t := dropKey p s
  { t with spine := { t.spine with keys := t.spine.keys ++ [(p, r.who, dclkAt r s + 1024)] } }

/-- CLEAR: the page's lock opens for the requester of the key; otherwise one LOCK_DENIED is counted. -/
def lockClear (p : Nat) (r : Req) (s : State) : State :=
  if keyOpen p r.who (dclkAt r s) s then s |> dropKey p |> rset (F.LOCK.LOCKED p) 0
  else s |> dropKey p |> denyLock r.who p

/-- A write to LOCK (R36). -/
def writeLock (p : Nat) (r : Req) (v : Nat) (s : State) : State :=
  let key := slice 16 16 v
  s |> whenB (bitSet v 1 && on s (F.LOCK.LOCKED p)) (lockClear p r)
    |> whenB (key != 0 && key != 0xC1A5 && on s (F.LOCK.LOCKED p)) (fun s => s |> dropKey p |> denyLock r.who p)
    |> whenB (key == 0xC1A5) (lockKey p r)
    |> whenB (bitSet v 0) (rset (F.LOCK.LOCKED p) 1)

/-- EVT_MASK: a source that is pending and unmasked now shows in its EVA source (R382); its EVT_PEND bit does not rise, so EVQ gets no item
(R386). -/
def writeMask (p v : Nat) (s : State) : State :=
  let was := rget s (F.EVT_MASK.MASK p)
  let ns := indicesWhere 17 (fun b => bitSet was b && !bitSet v b && bitSet (rget s (F.EVT_PEND.PEND p)) b)
  let t := rset (F.EVT_MASK.MASK p) v s
  { t with eva := { t.eva with shown := t.eva.shown ++ ns.map (fun b => (p, b)) } }

/-- EVT_FORCE sets the matching sources for one DCLK cycle (R29). -/
def writeForce (p v : Nat) (s : State) : State := forAll (indicesWhere 17 (bitSet v)) (raise p) s

/-- SHADOW_CTRL: DISCARD is refused while the set is sealed; COMMIT_NEXT arms (R31). -/
def writeShadowCtrl (p : Nat) (r : Req) (v : Nat) (s : State) : State :=
  s |> rset (F.SHADOW_CTRL.READ_SHADOW p) (bit v 3)
    |> whenB (bitSet v 1) (fun s => if pageSealed s p then denyOwn r.who p s else discardPage p s)
    |> whenB (bitSet v 2) (writeCommitNext p (armCyc r))

/-- COMMIT_SET: SET is refused while ARMED or PENDING; the flags clear on 1 (R32). -/
def writeCommitSet (p : Nat) (r : Req) (v : Nat) (s : State) : State :=
  let clr (f : Nat → Fld) (i : Nat) (s : State) : State := whenB (bitSet v i) (rset (f p) 0) s
  let s := s |> rset (F.COMMIT_SET.DOMAIN p) (bit v 3) |> clr F.COMMIT_SET.LATE 9 |> clr F.COMMIT_SET.STALE 10
    |> clr F.COMMIT_SET.SHORT 11 |> clr F.COMMIT_SET.NOTROOT 12
  if slice 0 3 v = setOf s p then s
  else if (commitSet s (setOf s p)).armed.isSome || pagePending s p then denyOwn r.who p s
  else rset (F.COMMIT_SET.SET p) v s

/-- A write to a header register. -/
def writeHead (p o : Nat) (r : Req) (v : Nat) (s : State) : State :=
  if o = 0x10 then whenB (bitSet v 0) (clearStatus p) s
  else if o = 0x28 then rset (F.EVT_PEND.PEND p) (clrBits (rget s (F.EVT_PEND.PEND p)) v) s
  else if o = 0x30 then writeMask p v s
  else if o = 0x38 then writeForce p v s
  else if o = 0x40 then writeShadowCtrl p r v s
  else if o = 0x48 then writeCommitStroke p v (armCyc r) s
  else if o = 0x50 then writeCommitSet p r v s
  else if o = 0x58 then writeLock p r v s
  else if o = 0x60 then whenB (pageClass p == 0 || p == pSYS) (rset (F.OWNER.HOST_GRANT p) (bit v 8)) s
  else if o = 0x68 then rset (F.SCRATCH.SCRATCH p) v s
  else s

/-! ### Writes past the header -/

/-- A write to a window's register: refused while the window is busy; GO starts OP (R43). -/
def writeWindow (w : Nat) (r : Req) (off v : Nat) (s : State) : State :=
  if rget s (wBUSY w) = 1 then denyOwn r.who (pageAt off) s
  else
    let s := storeReg off v s
    if off = winOff w + 24 ∧ bitSet v 8 then windowGo w (slice 0 2 v) r.cyc s else s

/-- The shadow fields of a write: held while the set is sealed (R39). -/
def storeOrHold (off v : Nat) (s : State) : State :=
  if hasStroke off && pageSealed s (pageAt off) then holdWrite (pageAt off) off v s else storeMarked off v s

/-- A field that commits on a page turn waits while the turn is sealed (R332). -/
def storeTurn (off v cyc : Nat) (s : State) : State :=
  if pageAt off == pLDU && decide (0xB0 ≤ slotAt off) && decide (slotAt off < 0xD0) && turnSealed s cyc then
    setLdu (fun x => { x with held := x.held ++ [(tableOff + off, v)] }) s
  else storeNow off v s

/-- A write that OWNER and LOCK have let through. -/
def applyWrite (r : Req) (off v : Nat) (s : State) : State :=
  if slotAt off < 0x80 then writeHead (pageAt off) (slotAt off) r v s
  else
    match windowAt off with
    | some w => writeWindow w r off v s
    | none => pageEffect r off v s (if effectOnly off then s else s |> storeTurn off v r.cyc |> storeOrHold off v)

/-- A write is served by the spine (R26, R34 to R36, R344, R349). -/
def writeReg (r : Req) (off v : Nat) (s : State) : State :=
  if !isReg off then inc (F.PAGE_STATUS.UNIMPL (if allPages.contains (pageAt off) then pageAt off else pSYS)) s
  else if !mayWrite r.who off s then
    s |> denyOwn r.who (pageAt off) |> whenB (penHolder s == 3 && isArming off v) (inc F.PEN_COUNT.FROZEN_REFUSED)
  else if isLocked off && on s (F.LOCK.LOCKED (pageAt off)) then denyLock r.who (pageAt off) s
  else applyWrite r off (v % 2 ^ 64) s

/-! ### BAR0 (R25) -/

/-- A held low half is dropped and counted. -/
def halfDrop (s : State) : State :=
  match s.spine.hold with
  | none => s
  | some (off, _) =>
    { s with spine := { s.spine with hold := none } }
      |> inc (F.PAGE_STATUS.HALF_DROPPED (if allPages.contains (pageAt off) then pageAt off else pSYS))

/-- An access of a requester begins: another access of BAR0 than the one that a held half waits for drops it. -/
def accessBegins (w : Requester) (s : State) : State := if w = .bar0 then halfDrop s else s

/-- A 64-bit write. -/
def wideWrite (r : Req) (off v : Nat) (s : State) : State := s |> accessBegins r.who |> writeReg r off v

/-- A 64-bit read: the value returned is emitted. -/
def wideRead (r : Req) (off : Nat) (bad : Bool) (s : State) : State :=
  let x := readReg off r.cyc bad (accessBegins r.who s)
  emit (.read r.who off x.1) x.2

/-- What a field takes so that a write leaves it as it is. -/
def keepField (s : State) (off : Nat) (f : FieldRow) : Nat :=
  let d := fieldOf off f
  match f.access, f.commit with
  | .rw, .stroke | .rw, .page => sget s d
  | .rw, _ => rget s d
  | _, _ => 0

/-- A word whose low half leaves the low half of a register as it is: the bits that act on 1 are 0. -/
def keepLow (s : State) (off : Nat) : Nat :=
  if slotAt off < 0x80 then
    (if slotAt off = 0x30 ∨ slotAt off = 0x48 ∨ slotAt off = 0x68 then regView s off
     else if slotAt off = 0x40 then put 3 1 (rget s (F.SHADOW_CTRL.READ_SHADOW (pageAt off)))
     else if slotAt off = 0x50 then setOf s (pageAt off) + put 3 1 (rget s (F.COMMIT_SET.DOMAIN (pageAt off)))
     else if slotAt off = 0x60 then put 8 1 (rget s (F.OWNER.HOST_GRANT (pageAt off)))
     else 0) % 2 ^ 32
  else
    match findRow (slotAt off) (pageRows (pageAt off)) with
    | none => 0
    | some r => r.fields.foldl (fun a f => a + keepField s off f * 2 ^ f.lo) 0 % 2 ^ 32

/-- A 32-bit write of a low half is held. -/
def halfWriteLow (off v : Nat) (s : State) : State :=
  let t := halfDrop s
  { t with spine := { t.spine with hold := some (off, v % 2 ^ 32) } }

/-- A 32-bit write of a high half completes the held pair, or writes the half alone with the low half unchanged. -/
def halfWriteHigh (cyc off v : Nat) (s : State) : State :=
  let high := v % 2 ^ 32 * 2 ^ 32
  let alone (t : State) : State := writeReg ⟨.bar0, cyc⟩ off (keepLow t off + high) t
  match s.spine.hold with
  | some (o, lo) =>
    if o = off then writeReg ⟨.bar0, cyc⟩ off (lo + high) { s with spine := { s.spine with hold := none } } else alone (halfDrop s)
  | none => alone s

/-- A 32-bit read of a low half reads the register and latches its high half. -/
def halfReadLow (cyc off : Nat) (bad : Bool) (s : State) : State :=
  let x := readReg off cyc bad (halfDrop s)
  { x.2 with spine := { x.2.spine with latch := some (off, x.1 / 2 ^ 32) } } |> emit (.read .bar0 off (x.1 % 2 ^ 32))

/-- A read of the whole register that returns its high half. -/
def readHigh (cyc off : Nat) (bad : Bool) (s : State) : State :=
  let x := readReg off cyc bad s
  emit (.read .bar0 off (x.1 / 2 ^ 32)) x.2

/-- A 32-bit read of a high half returns the latch of its register, or reads the whole register. -/
def halfReadHigh (cyc off : Nat) (bad : Bool) (s : State) : State :=
  let t := halfDrop s
  match t.spine.latch with
  | some (o, hi) =>
    if o = off then { t with spine := { t.spine with latch := none } } |> emit (.read .bar0 off hi) else readHigh cyc off bad t
  | none => readHigh cyc off bad t

/-! ### SPI (R28) -/

/-- An SPI frame of a command byte that the hub answers with a NAK code; 2 to 5 are violations that MON_SPI_VLOG records (R28, R389, R390). -/
def spiNak (cmd code : Nat) (s : State) : State :=
  s |> emit (.spi [] code) |> whenB (decide (2 ≤ code) && decide (code ≤ 5)) (fun s =>
    s |> vlog pMON 3 8 F.MON_SPI_VLOG.ENTRY 5 code 0 (cmd % 256) |> inc F.MON_COUNT.SPI_VIOL)

/-- The write frames accepted so far are served in order. -/
def spiServe (cyc : Nat) (s : State) : State :=
  { s with spine := { s.spine with spiQueue := [] } }
    |> forAll s.spine.spiQueue (fun x s => { s with spine := { s.spine with served := satAdd 32 s.spine.served 1 } } |> writeReg ⟨.spi, cyc⟩ x.1 x.2)

/-- A write frame: address, data and whether its CRC fits; `room`: the spine has served the queue's oldest entry. -/
def spiWrite (off v : Nat) (crcOk served : Bool) (cyc : Nat) (s : State) : State :=
  let s := if served then spiServe cyc s else s
  if !crcOk then spiNak 2 2 s
  else if off % 8 ≠ 0 then spiNak 2 4 s
  else if 4 ≤ s.spine.spiQueue.length then spiNak 2 1 s
  else { s with spine := { s.spine with spiQueue := s.spine.spiQueue ++ [(off, v)] } } |> emit (.spi [] 0)

/-- A read frame. -/
def spiRead (off : Nat) (crcOk bad : Bool) (cyc : Nat) (s : State) : State :=
  if !crcOk then spiNak 3 2 s
  else if off % 8 ≠ 0 then spiNak 3 4 s
  else
    let x := readReg off cyc bad (spiServe cyc s)
    emit (.spi [x.1] 0) x.2

/-- A status-only frame: SERVED and REFUSED once every earlier write is served. -/
def spiStatus (crcOk : Bool) (cyc : Nat) (s : State) : State :=
  if !crcOk then spiNak 5 2 s else
  let s := spiServe cyc s
  let r := s.spine.refused
  { s with spine := { s.spine with refusedSeen := r } }
    |> emit (.spi [s.spine.served + r * 2 ^ 32] (if s.spine.refusedSeen < r then 6 else 0))

end Sys2Proof.Machine
end

