-- ==== Sys2Proof/Machine/Scribe.lean ====
section
/-!
DEFINITION. The scribe commands (R353 to R355). Each is the command word at the PC of the slot that runs: a row whose OP is not the one found
there changes nothing, and neither does one given while the scribe waits.
-/

namespace Sys2Proof.Machine

/-! ### Command words -/

def wOp (w : Nat) : Nat := slice 56 8 w
def wA (w : Nat) : Nat := slice 52 4 w
def wB (w : Nat) : Nat := slice 48 4 w
def wC (w : Nat) : Nat := slice 44 4 w
def wCond (w : Nat) : Nat := slice 40 4 w
def wX (w : Nat) : Nat := slice 32 8 w
def wImm (w : Nat) : Nat := slice 0 32 w
def wAddr (w : Nat) : Nat := slice 0 15 w
def wOff (w : Nat) : Nat := slice 0 24 w

/-- IMM sign-extended to 64 bits. -/
def wSext (w : Nat) : Nat := ofInt 64 (asInt 32 (wImm w))

/-- The operation codes of R353. -/
def opDefined (op : Nat) : Bool :=
  [0x00, 0x01, 0x02, 0x03, 0x04, 0x05, 0x06, 0x07, 0x08, 0x09, 0x10, 0x11, 0x12, 0x13, 0x14, 0x18, 0x19, 0x1A, 0x1B, 0x20, 0x21, 0x22,
    0x28, 0x29, 0x30, 0x31, 0x32, 0x33, 0x34, 0x3F].contains op

/-- The PC of a half, and the word there. -/
def scrPc (s : State) (h : Nat) : Nat := rget s (sf h F.SCRR_STATE.PC)
def scrWord (s : State) (h : Nat) : Nat := memGet s h (scrPc s h)

/-- The scribe goes on with the next word. -/
def scrNext (h : Nat) (s : State) : State := setPc h (scrPc s h + 1) s

/-- A slot runs and its scribe waits for nothing. -/
def scrReady (s : State) (h : Nat) : Bool := halfRuns s h && (half s h).run.isSome && (half s h).wait == .none

/-- A command whose OP `ok` names is carried out: half and word; a memory word that fails its parity ends the slot (R355). -/
def scrWhere (ok : Nat → Bool) (a : ScrAt) (f : Nat → Nat → State → State) (s : State) : State :=
  let h := sideIdx a.side
  if scrReady s h && ok (wOp (scrWord s h)) then
    if a.bad then slotFault h 5 s else f h (scrWord s h) s
  else s

def scrDo (op : Nat) (a : ScrAt) (f : Nat → Nat → State → State) (s : State) : State := scrWhere (· == op) a f s

/-! ### Flow and arithmetic -/

def scrNop (h _w : Nat) (s : State) : State := scrNext h s
/-- END: the PC goes on past it (log entry 45). -/
def scrEnd (h _w : Nat) (s : State) : State := s |> scrNext h |> endSlot h
def scrJmp (h w : Nat) (s : State) : State := setPc h (wAddr w) s

/-- COND of JCC: 0 EQ, 1 NE, 2 LT, 3 GE signed, 4 LTU, 5 GEU unsigned; another never jumps. -/
def scrCond (c x y : Nat) : Bool :=
  if c = 0 then x == y
  else if c = 1 then x != y
  else if c = 2 then decide (asInt 64 x < asInt 64 y)
  else if c = 3 then decide (asInt 64 y ≤ asInt 64 x)
  else if c = 4 then decide (x < y)
  else if c = 5 then decide (y ≤ x)
  else false

def scrJcc (h w : Nat) (s : State) : State :=
  if scrCond (wCond w) (tbGet s h (wA w)) (tbGet s h (wB w)) then setPc h (wAddr w) s else scrNext h s

/-- CALL with 8 return addresses held faults. -/
def scrCall (h w : Nat) (s : State) : State :=
  if 8 ≤ (half s h).stack.length then slotFault h 2 s
  else
    let pc := scrPc s h
    s |> setHalf h (fun x => { x with stack := (pc + 1) % 32768 :: x.stack }) |> setPc h (wAddr w)

/-- RET with none held faults. -/
def scrRet (h _w : Nat) (s : State) : State :=
  match (half s h).stack with
  | [] => slotFault h 3 s
  | a :: rest => s |> setHalf h (fun x => { x with stack := rest }) |> setPc h a

def scrLdi (h w : Nat) (s : State) : State := s |> tbSet h (wA w) (wSext w) |> scrNext h

def scrLdih (h w : Nat) (s : State) : State :=
  s |> tbSet h (wA w) (wImm w * 2 ^ 32 + tbGet s h (wA w) % 2 ^ 32) |> scrNext h

/-- The operation X of ALU on two tablets; none above 8. -/
def scrAluOp (x a b : Nat) : Option Nat :=
  let n := b % 64
  match x with
  | 0 => some (a + b)
  | 1 => some (a + 2 ^ 64 - b)
  | 2 => some (a &&& b)
  | 3 => some (a ||| b)
  | 4 => some (a ^^^ b)
  | 5 => some (a <<< n)
  | 6 => some (a >>> n)
  | 7 => some (ofInt 64 (asInt 64 a / (2 ^ n : Nat)))
  | 8 => some (a * b)
  | _ => none

def scrAlu (h w : Nat) (s : State) : State :=
  match scrAluOp (wX w) (tbGet s h (wB w)) (tbGet s h (wC w)) with
  | none => slotFault h 1 s
  | some v => s |> tbSet h (wA w) v |> scrNext h

def scrAddi (h w : Nat) (s : State) : State := s |> tbSet h (wA w) (tbGet s h (wA w) + wSext w) |> scrNext h

/-! ### Registers: accesses through the half's crossing (R353, R354) -/

/-- An access to a register whose offset is not a multiple of 8 faults without being made (R355). -/
def scrReg (h off : Nat) (f : State → State) (s : State) : State := if off % 8 ≠ 0 then slotFault h 7 s else f s

def scrRd (a : ScrAt) (h w : Nat) (s : State) : State :=
  s |> scrReg h (wOff w) (fun s =>
    let x := readReg (wOff w) a.cyc a.blot s
    x.2 |> tbSet h (wA w) x.1 |> scrNext h)

def scrWr (a : ScrAt) (h w : Nat) (s : State) : State :=
  s |> scrReg h (wOff w) (fun s => s |> writeReg ⟨halfReq h, a.cyc⟩ (wOff w) (tbGet s h (wA w)) |> scrNext h)

/-- WRI has its own layout: OFF in [55:32]. -/
def scrWri (a : ScrAt) (h w : Nat) (s : State) : State :=
  s |> scrReg h (slice 32 24 w) (fun s => s |> writeReg ⟨halfReq h, a.cyc⟩ (slice 32 24 w) (wImm w) |> scrNext h)

/-- The bits of `old` where the mask is 0, and those of `v` where it is 1. -/
def maskMix (old m v : Nat) : Nat := clrBits old m ||| (v &&& m)

def scrRmw (a : ScrAt) (h w : Nat) (s : State) : State :=
  s |> scrReg h (wOff w) (fun s =>
    let x := readReg (wOff w) a.cyc a.blot s
    x.2 |> writeReg ⟨halfReq h, a.cyc⟩ (wOff w) (maskMix x.1 (tbGet s h (wA w)) (tbGet s h (wB w))) |> tbSet h (wC w) x.1 |> scrNext h)

/-- The wait of the scribe ends and it goes on. -/
def scrGo (h : Nat) (s : State) : State := s |> setHalf h (fun x => { x with wait := .none }) |> scrNext h

/-- Whether a value read ends a POLL. -/
def pollMatch (s : State) (h w v : Nat) : Bool := v &&& tbGet s h (wA w) == tbGet s h (wB w)

/-- POLL reads at once; without a match it keeps on (POLL_DONE). -/
def scrPoll (a : ScrAt) (h w : Nat) (s : State) : State :=
  s |> scrReg h (wOff w) (fun s =>
    let x := readReg (wOff w) a.cyc a.blot s
    if pollMatch s h w x.1 then x.2 |> tbSet h (wC w) x.1 |> scrNext h
    else setHalf h (fun y => { y with wait := .poll x.1 }) x.2)

/-- Up to `n` further reads of a POLL, until one matches: the last value read. -/
def pollReads (a : ScrAt) (h w : Nat) : Nat → Nat → State → Nat × State
  | 0, last, s => (last, s)
  | n + 1, _, s =>
    let x := readReg (wOff w) a.cyc a.blot s
    if pollMatch s h w x.1 then x else pollReads a h w n x.1 x.2

/-- A POLL ends: after `n` further reads one matched, or POLL_US has passed. -/
def pollDone (n : Nat) (a : ScrAt) (s : State) : State :=
  let h := sideIdx a.side
  match (half s h).wait with
  | .poll last =>
    let w := scrWord s h
    let x := pollReads a h w n last s
    x.2 |> tbSet h (wC w) x.1 |> scrGo h
  | _ => s

/-! ### Memory -/

def scrLdm (h w : Nat) (s : State) : State := s |> tbSet h (wA w) (memGet s h (wAddr w)) |> scrNext h
def scrStm (h w : Nat) (s : State) : State := s |> memSet h (wAddr w) (tbGet s h (wA w)) |> scrNext h

/-- The address of LDX and STX; at or above 32,768 it faults. -/
def scrIndex (h w : Nat) (f : Nat → State → State) (s : State) : State :=
  let a := wAddr w + tbGet s h (wB w)
  if 32768 ≤ a % 2 ^ 64 then slotFault h 4 s else f (a % 2 ^ 64) s

def scrLdx (h w : Nat) (s : State) : State := s |> scrIndex h w (fun a s => s |> tbSet h (wA w) (memGet s h a) |> scrNext h)
def scrStx (h w : Nat) (s : State) : State := s |> scrIndex h w (fun a s => s |> memSet h a (tbGet s h (wA w)) |> scrNext h)

/-! ### Waits -/

def scrWaits (h w : Nat) (s : State) : State :=
  let n := tbGet s h (wA w)
  if n ≤ strokeNow s then scrNext h s else setHalf h (fun x => { x with wait := .strokes n }) s

/-- The stroke mirror is at the value awaited. -/
def waitsDone (h : Nat) (s : State) : State :=
  match (half s h).wait with
  | .strokes n => if n ≤ strokeNow s then scrGo h s else s
  | _ => s

def scrWaitt (h w : Nat) (s : State) : State := if wImm w = 0 then scrNext h s else setHalf h (fun x => { x with wait := .time }) s

/-- The count of a WAITT is over. -/
def waittDone (h : Nat) (s : State) : State := if (half s h).wait = .time then scrGo h s else s

/-- The raw state of a source that WAITE names; there is none above 127. -/
def waitRaised (s : State) (x : Nat) : Bool := decide (x < 128) && evRaw s x

def scrWaite (h w : Nat) (s : State) : State :=
  if waitRaised s (wX w) then s |> tbSet h (wC w) 1 |> scrNext h else setHalf h (fun x => { x with wait := .event (wX w) }) s

/-- A WAITE ends: its source is up, or its limit, if it has one, has passed. -/
def waiteDone (h : Nat) (s : State) : State :=
  match (half s h).wait with
  | .event x =>
    let w := scrWord s h
    if waitRaised s x then s |> tbSet h (wC w) 1 |> scrGo h
    else if wImm w = 0 then s
    else s |> tbSet h (wC w) 0 |> scrGo h
  | .raised => s |> tbSet h (wC (scrWord s h)) 1 |> scrGo h
  | _ => s

/-! ### Mailboxes -/

/-- The words of the item at an address: the length word and LEN more (R252). -/
def mbxItem (s : State) (h a : Nat) : List Nat := (List.range (slice 56 8 (memGet s h a) + 1)).map (fun i => memGet s h (a + i))

/-- MBXS: the words go to the half's queue as they fit, the scribe waiting on the command while they do not (R249, R357); after a flush
the rest of the item is dropped (R259). -/
def scrMbxs (h w : Nat) (s : State) : State :=
  let q := mbxOf h
  let item := mbxItem s h (wAddr w)
  if 63 < slice 56 8 (memGet s h (wAddr w)) then slotFault h 6 s
  else
    let x := queue s q
    if x.draining then s |> setQueue q { x with draining := false } |> inc (F.QUE_q_COUNT2.DRAINED q) |> scrNext h
    else
      let rest := item.drop x.pend.length
      if qFits s q rest.length then s |> setQueue q { x with pend := [] } |> placeItem q item |> scrNext h
      else setQueue q { x with pend := x.pend ++ rest.take (qDepth q - x.words.length - x.pend.length) } s

/-- MBXG: the host's item is copied and BUSY clears (R357). -/
def scrMbxg (h w : Nat) (s : State) : State :=
  if !on s (sf h F.SCRR_MBIN_CTRL.BUSY) then s |> tbSet h (wA w) 0 |> scrNext h
  else
    let item := (half s h).inbox
    s |> forAll (List.range item.length) (fun i s => memSet h (wAddr w + i) (nth 0 item i) s) |> tbSet h (wA w) item.length
      |> mbinClear h |> raise (halfPage h) 3 |> scrNext h

/-! ### Heartbeat, pen, events and stops -/

/-- HBEAT: the line toggles and the watchdog starts again. -/
def scrHbeat (a : ScrAt) (h _w : Nat) (s : State) : State :=
  let now := dclkAt ⟨halfReq h, a.cyc⟩ s
  s |> rset (sf h F.SCRR_STATE.HB) (1 - rget s (sf h F.SCRR_STATE.HB)) |> setHalf h (fun x => { x with hbAt := some now, wdFrom := now })
    |> scrNext h

/-- CLAIM: the line is asserted and the scribe waits for the window's result; a frozen pen ignores it (R349). -/
def scrClaim (h w : Nat) (s : State) : State :=
  if penHolder s = 3 then s |> tbSet h (wA w) 3 |> scrNext h
  else s |> rset (sf h F.SCRR_STATE.CLAIM) 1 |> setHalf h (fun x => { x with wait := .claim })

/-- RELEASE: the holder leaves the pen at the end of the window; another's pending claim is withdrawn. -/
def scrRelease (h _w : Nat) (s : State) : State :=
  let t := if penHolder s = 3 then s
    else if holderHalf (penHolder s) = some h then leavePen h 3 s
    else s |> rset (sf h F.SCRR_STATE.CLAIM) 0 |> whenB (halfState s h == 3) (setHalfState h 2)
  scrNext h t

def scrEvt (h w : Nat) (s : State) : State :=
  if 7 < wX w then slotFault h 1 s else s |> raise (halfPage h) (8 + wX w) |> scrNext h

/-- FAULT ends the slot with 0x80 + X; so does an undefined OP, with 0x01 (R355). -/
def scrFault (h w : Nat) (s : State) : State := slotFault h (if wOp w = 0x34 then 0x80 + wX w % 128 else 1) s

/-- HALT: every slot stops, the tablets show, and the pen goes at the end of the window (R346, R353). -/
def scrHalt (h _w : Nat) (s : State) : State :=
  s |> showTablets h |> scrNext h |> endSlot h |> rset (sf h F.SCRR_SLOTS.PEND) 0 |> leavePen h 5 |> setHalfState h 5

end Sys2Proof.Machine
end

