-- ==== Sys2Proof/Machine/Convert.lean ====
section
/-!
DEFINITION. The end of a conversion and what its claim makes of the result (R78, R79, R82, R84, R114, R115), the results of the diagnostic
channels with what MON follows of them (R93, R398), and the samples of shed channels (R91, R92).
-/

namespace Sys2Proof.Machine

/-! ### Fast channels -/

/-- The VREFG that normalises a value of channel `c`: the one held on the same strike where the stroke converts it, else the latest (R48). -/
def vrefOf (s : State) (c uv : Nat) : Nat :=
  if (refgOrder s (slotTable s)).contains (groupOf c) then uv else rget s (F.FEGRP_REF.REFG_UV (groupOf c))

/-- A bridge channel without a VREFG has used a free value. -/
def vrefUsed (c vref : Nat) (s : State) : State := whenB (rget s (fcMode c) == 1 && vref == 0) freeNext s

/-- A sample clamped at step 5 (R132, R133); `sat` says that R79 had given it OVR. -/
def noteClamp (c : Nat) (sat : Bool) (s : State) : State :=
  s |> inc F.FAST_COUNT.CLAMP |> setBitOf (F.FAST_CLAMP.CLAMPED (c / 64)) (c % 64) |> whenB (!sat) (raise pFAST 1)

/-- An overranged value stands at the full scale of its sign (R51, R52; log entry 43). -/
def fullScale (s : State) (c : Nat) (v : Int) : Int := if v < 0 then minusClamp (rget s (fcRange c)) else plusClamp (rget s (fcRange c))

/-- The corrected sample of channel `c` on the present stroke (R114), with the overrange that it shows (R52). -/
def sampleOf (c : Nat) (y : Int) (sat : Bool) (uv : Nat) (s : State) : Samp × State :=
  let n := strokeNow s
  let vref := vrefOf s c uv
  let v := stepFive s c y vref
  let s := s |> vrefUsed c vref |> whenB v.2 (noteClamp c sat) |> whenB (sat || v.2) (overrange n c)
  let ovr := on s (fcOvr c)
  (⟨if ovr then fullScale s c v.1 else v.1, wordFlags n c s + flagIf ovr flOVR, rget s (fcRange c)⟩, s)

/-- FECH_CFG shows the flags of the latest word (R68). -/
def showWord (c fl : Nat) (s : State) : State := s |> rset (fcNbr c) (bitSet fl flNBR).toNat |> rset (fcSettle c) (bitSet fl flSETTLE).toNat

/-- The coarse value of channel `c` leaves (R115). -/
def coarseWord (s : State) (c : Nat) : TagWord := ⟨c, 15, strokeNow s % 256, coarseNow s c, strikeTime s⟩

/-- A sample takes the fine path, and the trigger units see what comes of it (R113, R120, R193): ready on cycle `cyc`. -/
def takeFine (c cyc : Nat) (x : Samp) (s : State) : State :=
  s |> correlate (strokeNow s) c x.v x.fl |> fineSample (strokeNow s) c x |> trgNewWords (strokeNow s) (cyc + 4) s

/-- A sample takes the coarse path of round slot `k` (R115, R227). -/
def takeCoarse (k c : Nat) (x : Samp) (s : State) : State :=
  let t := pushCoarse (strokeNow s) c x s
  t |> pushWord (coarseWord t c) |> trgNewWords (strokeNow s) (56 + 32 * k) t |> coarseArrive k c (coarseNow t c)

/-- The first, or only, conversion of a fast value in slot `k`. -/
def fastFirst (k c : Nat) (y : Int) (sat : Bool) (uv : Nat) (s : State) : State :=
  let x := sampleOf c y sat uv s
  let s := takeCoarse k c x.1 (showWord c x.1.fl x.2)
  if (slotTable s).dual then
    { s with nibs := { s.nibs with firstY := mput (fun _ => 0) c y s.nibs.firstY,
                                   firstSat := s.nibs.firstSat.filter (· != c) ++ (if sat then [c] else []) } }
  else takeFine c (48 + 32 * k) x.1 s

/-- The second conversion under dual conversion: the fine path takes the mean (R82). -/
def fastSecond (k c : Nat) (y : Int) (sat : Bool) (uv : Nat) (s : State) : State :=
  let a := mget (fun _ => 0) s.nibs.firstY c
  let s := whenB (decide (rget s F.NIB_CHECK.DUAL_LIM < (a - y).natAbs)) (inc F.NIB_COUNT.DUAL_DIS) s
  let x := sampleOf c (shiftHalfEven 1 (a + y)) (sat || s.nibs.firstSat.contains c) uv s
  takeFine c (48 + 32 * k) x.1 x.2

/-- What a claim makes of a result. -/
def convClaim (cl : Claim) (nib k : Nat) (y : Int) (sat : Bool) (uv : Nat) (s : State) : State :=
  match cl with
  | .fast c => fastFirst k c y sat uv s
  | .fastAgain c => fastSecond k c y sat uv s
  | .check => nibCheck nib y s
  | .refg g => { s with nibs := { s.nibs with refgNext := (g + 1) % 32 } } |> refgResult (strokeNow s) g uv
  | .lane j => laneConv j y sat s
  | .dx => dxConv y s
  | .trim => trimSlot nib s
  | .idle => s

/-- CONVERSION_END: nib `nib` ends slot `k` with the decisions `d`; whether they left the redundancy range, whether the nib's weights
failed their parity, and VREFG in µV of the group concerned, held on the same strike (R72 to R84). -/
def conversionEnd (nib k d : Nat) (rdo parity : Bool) (uv : Nat) (s : State) : State :=
  let cl := claimOf s nib k
  if !s.struck || (cl == .idle) then s else
  let r := correct s nib d
  s |> setNibSt nib { nibSt s nib with convs := (nibSt s nib).convs + 1 } |> whenB rdo (redundancy nib)
    |> whenB parity (weightParity nib) |> convClaim cl nib k r.1 r.2 uv

/-! ### Shed channels (R91, R92) -/

/-- The sample of a shed channel: SKIP, with value 0. -/
def skipSample (n c : Nat) (s : State) : Samp := ⟨0, setBit (wordFlags n c s) flSKIP, rget s (fcRange c)⟩

/-- A shed channel's part of the strike of stroke `n`. -/
def skipChan (n c : Nat) (s : State) : State :=
  let x := skipSample n c s
  let t := s |> showWord c x.fl |> fineSample n c x |> pushCoarse n c x
  t |> pushWord (coarseWord t c) |> setDuc (fun d => { d with coarse := mput (fun _ => none) c (some (coarseNow t c)) d.coarse })

/-- The shed channels' part; without any round their round frames leave at once. -/
def skipShed (n : Nat) (s : State) : State :=
  s |> forAll (indicesWhere 32 (bitSet s.nibs.shed)) (fun g => forAll (List.range 16) (fun i => skipChan n (16 * g + i)))
    |> whenB ((slotTable s).rounds == 0) (launchRound 0)

/-- A channel whose group rejoins starts from zero state, as in a synchronising reset (R92, R126). -/
def rejoinChan (n c : Nat) (s : State) : State :=
  let t := match flourOf s c with
    | some f => flrEnd c f s
    | none => s
  t |> setChain c {} |> flrQueued n c

/-- What a change of the slot table on stroke `n` brings beside the pool's registers: groups that rejoin, and trim (R85, R92, R110). -/
def poolChanged (n : Nat) (before s : State) : State :=
  s |> forAll (indicesWhere 32 (fun g => bitSet before.nibs.shed g && !bitSet s.nibs.shed g))
        (fun g => forAll (List.range 16) (fun i => rejoinChan n (16 * g + i)))
    |> trimPool

/-- NIB_RETIRE_EFFECT: the decided change of a nib takes effect on the stroke that is to come (R85, R87). -/
def nibTakesEffect (nib : Nat) (s : State) : State :=
  match s.nibs.retiring.find? (fun x => x.1 == nib) with
  | none => s
  | some x => poolChanged (nextStroke s) s (nibEffect (nextStroke s) nib x.2.1 x.2.2 s)

/-! ### MON (R393 to R399) -/

/-- A die temperature in 0.25 °C, in 16 bits signed. -/
def quarterOf (v : Int) : Int := divHalfEven (409600 * v - 273150 * (2 ^ 31 : Nat)) (250 * 2 ^ 31)

/-- The hottest of DX10 to DX15 that have a result, and its sensor, the lowest of equal ones. -/
def hottest (s : State) : Option (Int × Nat) :=
  (indicesWhere 6 (fun i => bitSet s.nibs.dxHas (10 + i))).foldl (fun a i =>
    let q := quarterOf (mget (fun _ => 0) s.nibs.dxVal (10 + i))
    match a with
    | none => some (q, i)
    | some (b, j) => if b < q then some (q, i) else some (b, j)) none

/-- TJ, its sensor and its peak; WARN_C with 2 °C of hysteresis, and 105 °C. -/
def monTemp (s : State) : State :=
  match hottest s with
  | none => s
  | some (q, i) =>
    let first := rget s F.MON_TJ_MEAN.SAMPLES == 0
    let warn := rget s F.MON_CTRL.WARN_C * 4
    let crossed := !s.mon.warm && decide ((warn : Int) ≤ q)
    let hot := decide (420 < q)
    let rose := hot && !s.mon.hot
    { s with mon := { s.mon with warm := crossed || (s.mon.warm && decide ((warn : Int) - 8 < q)), hot := hot } }
      |> rset F.MON_TJ.TJ (ofInt 16 q) |> rset F.MON_TJ.SENSOR i
      |> whenB (first || decide (rgetI s F.MON_TJ.PEAK < q)) (rset F.MON_TJ.PEAK (ofInt 16 q))
      |> whenB crossed (fun s => s |> inc F.MON_COUNT.WARN_CROSS |> raise pMON 0)
      |> whenB rose (fun s => s |> inc F.MON_COUNT.HOT_CROSS |> raise pMON 1)

/-- The mean of the die temperatures since power-up takes a result. -/
def monMean (v : Int) (s : State) : State :=
  let sum := s.mon.tjSum + quarterOf v
  let t := { s with mon := { s.mon with tjSum := sum } } |> inc F.MON_TJ_MEAN.SAMPLES
  rset F.MON_TJ_MEAN.MEAN (ofInt 16 (divHalfEven sum (max 1 (rget t F.MON_TJ_MEAN.SAMPLES)))) t

/-- The nominal reading of DX04 to DX09 in mV: the rails of R364 after the scaling of R93. -/
def supplyNominal (i : Nat) : Int := nth 0 [1375, -1375, 800, 1200, 900, 1500] i

/-- A supply's result against SUP_WARN_PM: LOW and HIGH by magnitude, and a departure from within the margin counts. -/
def monSupply (i : Nat) (v : Int) (s : State) : State :=
  let nom := (supplyNominal i).natAbs
  let mv4096 := v.natAbs * 4096
  let pm := rget s F.MON_CTRL.SUP_WARN_PM
  let low := decide (mv4096 * 1000 < nom * (1000 - min 1000 pm) * 2 ^ 31) || decide (v * supplyNominal i < 0)
  let high := !low && decide (nom * (1000 + pm) * 2 ^ 31 < mv4096 * 1000)
  let was := bitSet (rget s F.MON_SUPPLY.LOW) i || bitSet (rget s F.MON_SUPPLY.HIGH) i
  s |> (if low then setBitOf else clrBitOf) F.MON_SUPPLY.LOW i |> (if high then setBitOf else clrBitOf) F.MON_SUPPLY.HIGH i
    |> whenB ((low || high) && !was) (fun s => s |> inc F.MON_COUNT.SUPPLY_EVENTS |> raise pMON 2)

/-- MON takes a result of DX channel `d`. -/
def monResult (d : Nat) (v : Int) (s : State) : State :=
  if 10 ≤ d then s |> monTemp |> monMean v
  else if 4 ≤ d then monSupply (d - 4) v s
  else s

/-! ### The diagnostic channels (R93) -/

/-- The word of a DX result: its channel, value and flags, and the stroke at the centre of its span. -/
def dxWord (d : Nat) (x : Samp) (centre cyc : Nat) (s : State) : State :=
  let cnt := mget zeroAt s.nibs.dxCount d
  let age := (strokeNow s - centre) * 64000000 * mLive s
  { s with nibs := { s.nibs with dxCount := mput zeroAt d (cnt + 1) s.nibs.dxCount } }
    |> pushWord ⟨576 + d, 0, cnt % 256, x, strikeTime s - age⟩ |> trgNewWords (strokeNow s) cyc s

/-- The next DX channel is taken up. -/
def dxNext (d : Nat) (s : State) : State :=
  { s with nibs := { s.nibs with dxCh := nextDx s d, dxN := 0, dxSum := 0 } }

/-- What a result of DX channel `d` brings beside its word. -/
def dxUsed (d : Nat) (v : Int) (s : State) : State :=
  { s with nibs := { s.nibs with dxVal := mput (fun _ => 0) d v s.nibs.dxVal, dxHas := setBit s.nibs.dxHas d } }
    |> trimTempRef d v |> trimTempTrigger d v |> monResult d v |> whenB (d == 15) retrainByTemp

/-- DX_RESULT: the mean of 2^AVG conversions is in, and the trigger units have compared it on cycle `cyc`; without a serviceable nib the
word carries SKIP (R90). -/
def dxResult (cyc : Nat) (s : State) : State :=
  let d := s.nibs.dxCh
  if nServ s = 0 ∧ s.struck then s |> dxWord d ⟨0, 2 ^ flSKIP, 0⟩ (strokeNow s) cyc |> dxNext d
  else if s.nibs.dxN = 0 ∨ s.nibs.dxN < 2 ^ rget s F.NIB_DX.AVG then s
  else
    let v := dxMean s
    s |> dxWord d ⟨v, 0, 0⟩ ((s.nibs.dxFirst + strokeNow s) / 2) cyc |> dxUsed d v |> dxNext d

end Sys2Proof.Machine
end

