-- ==== Sys2Proof/Machine/Strike.lean ====
section
/-!
DEFINITION. The strike: the stroke counter and time go on, what is armed for the stroke takes effect, and the stages of power-up that hang on
it (R37, R45, R124, R136, R232, R271, R376, R379); the closure of the stroke before (R199).
-/

namespace Sys2Proof.Machine

/-! ### Stages and the useful state (R376, R379) -/

/-- SYS_STAGE.STAGE takes a value; a change raises SYS SRC[0] (R380). -/
def setStage (v : Nat) (s : State) : State := if rget s F.SYS_STAGE.STAGE = v then s else s |> rset F.SYS_STAGE.STAGE v |> raise pSYS 0

/-- RECORDING follows STRIKING once a channel is IN. -/
def stageRecording (s : State) : State :=
  whenB (rget s F.SYS_STAGE.STAGE == 3 && (chIn s 0 || chIn s 1)) (setStage 4) s

/-- Whether the initial trim run, CAUSE 6, has ended with one of these outcomes. -/
def initialTrim (s : State) (outcomes : List Nat) : Bool :=
  (List.range 8).any (fun i => rget s (F.TRIM_HIST.CAUSE i) == 6 && outcomes.contains (rget s (F.TRIM_HIST.OUTCOME i)))

/-- The criteria of R379 in its order: four for every hub, and the three that SYS_USEFUL_REQ can name. -/
def usefulCriteria (s : State) : List Bool :=
  [ (halfRuns s 0 || halfRuns s 1) && s.boot.applied,
    decide (4 ≤ rget s F.SYS_STAGE.STAGE),
    s.trim.committed || initialTrim s [3, 4, 5],
    tsuState s != 0 || tsuSource s == 2,
    chIn s 0 && chIn s 1,
    tsuState s == 2 || tsuState s == 5,
    initialTrim s [1, 2] ]

/-- Whether the hub is useful: the first four criteria, and those that are asked for. -/
def isUseful (s : State) : Bool :=
  let c := usefulCriteria s
  let req (f : Fld) (i : Nat) : Bool := !on s f || nth false c i
  (c.take 4).all id && req F.SYS_USEFUL_REQ.MIRRORED 4 && req F.SYS_USEFUL_REQ.TIME_LOCKED 5 && req F.SYS_USEFUL_REQ.TRIM_PASS 6

/-- The useful state at a strike, `us` microseconds after the release of PORST_N; once reached it stays. -/
def strikeUseful (us : Nat) (s : State) : State :=
  if on s F.SYS_USEFUL.USEFUL then s else
  let c := usefulCriteria s
  let s := rset F.SYS_USEFUL.MET (bitsOf (indicesWhere 7 (nth false c))) s
  if isUseful s then s |> rset F.SYS_USEFUL.USEFUL 1 |> rset F.SYS_USEFUL.USEFUL_US us |> setStage 5 |> raise pSYS 1 else s

/-! ### The stroke counter and time -/

/-- Whether the hub may strike: its PLL has locked, and a hub that has not struck is no member waiting for its first join (R170, R376). -/
def mayStrike (s : State) : Bool :=
  decide (2 ≤ rget s F.SYS_STAGE.STAGE) && (s.struck || [0, 4, 7].contains (ilkState s))

/-- The first strike: the stroke it names, and the TSU runs from here (R376). -/
def firstStrike (us : Nat) (s : State) : State :=
  { s with struck := true, strikeDclk := us * 512, tsu := { s.tsu with cyc := 0, strike := s.tsu.t } }
    |> rset F.SYS_STAGE.STRIKE_US us |> setStage 3
    |> forAll (List.range 4) (fun k s => if (lane s k).stage == .idle then startStep k s else s)

/-- Another strike: the stroke before is put aside for its closure, the counter advances, and t(s) is the TSU at this DCLK cycle (R136). -/
def nextStrike (s : State) : State :=
  let s := closeAside s
  let t := tsuAt s (strokeLen s)
  { s with strikeDclk := s.strikeDclk + strokeLen s, tsu := { s.tsu with t := t, cyc := 0, strike := t } }
    |> rset F.SYS_STROKE_NOW.STROKE (strokeNow s + 1)

/-! ### Commits (R37, R124, R232, R271) -/

/-- The pages whose sets commit on stroke `n`. -/
def committing (n : Nat) (s : State) : List Nat :=
  ((List.range 8).filter (fun k => (commitSet s k).armed == some n)).flatMap (members s)

/-- Why a change of M is withheld: by the filter load where it is lowered (R124), and by the Inkwell's write load (R271). -/
def mWithhold (ps : List Nat) (s : State) : Bool × Bool :=
  let m := sget s F.SYS_STROKE_CFG.M_MINUS1 + 1
  let bps (sh : Bool) : Nat := (List.range 8).foldl (fun a k => a + bpsOf sh s k) 0
  let tooMuch (sh : Bool) : Bool :=
    let get (f : Fld) : Nat := if sh then sget s f else rget s f
    inkOverload s (bps sh) (get F.INKW_RD.RD_MBPS) (get F.INKW_MIRROR.CATCHUP_MBPS) m
  (decide (m < mLive s) && (overLimit s (fltLoad false s) m || overLimit s (fltLoad true s) m),
    m != mLive s && tooMuch (ps.contains pINKW))

/-- SYS commits, or its change of M is withheld and recorded. -/
def commitSys (n : Nat) (ps : List Nat) (s : State) : State :=
  let w := mWithhold ps s
  if !w.1 && !w.2 then copyPage pSYS s
  else s |> whenB w.1 (withheld n 1 true) |> whenB w.2 (inkWithheld 3 0 true n)

/-- FLT commits, or is withheld (R124). -/
def commitFlt (n : Nat) (before s : State) : State :=
  match fltWithhold s with
  | 0 => s |> copyPage pFLT |> fltCommit n before
  | r + 1 => withheld n (r + 1) false s

/-- INKW commits, or is withheld (R271). -/
def commitInk (n : Nat) (s : State) : State :=
  match inkWithhold s (mLive s) with
  | (0, _) => inkCommit n s (copyPage pINKW s)
  | (c + 1, k) => inkWithheld (c + 1) k false n s

/-- DUC commits, or is withheld (R232). -/
def commitDuc (n : Nat) (s : State) : State :=
  match ducWithhold s with
  | none => ducCommit n s (copyPage pDUC s)
  | some x => ducWithheld n x s

/-- A commit that changes the range or the mode of a channel discards its correlation sums (R103). -/
def corrCommit (before : State) (c : Nat) (s : State) : State :=
  whenB (rget before (fcRange c) != rget s (fcRange c) || rget before (fcMode c) != rget s (fcMode c)) (corrReset c) s

/-- The rotation's LFSR is loaded on the commit of a write to its seed (R76). -/
def rotCommit (s : State) : State :=
  if s.nibs.rotFresh then { s with nibs := { s.nibs with rotFresh := false, lfsr := rget s F.NIB_ROT.SEED } } else s

/-- The time outputs whose configuration the commit changes are armed (R155, R156). -/
def toutCommit (before s : State) : State :=
  forAll ((List.range 8).filter (toutChanged before s)) (fun k => toutArm k (strikeTime s)) s

/-- What the copies of the pages `ps` bring about beside the live values, on stroke `n`. -/
def commitEffects (n : Nat) (ps : List Nat) (before s : State) : State :=
  let on' (p : Nat) (f : State → State) (s : State) : State := whenB (ps.contains p) f s
  let front := ps.contains pFEGRP || ps.contains pFECH0 || ps.contains pFECH1
  s |> on' pTSU (tsuCommit n before) |> on' pPTP (ptpCommit before) |> on' pTOUT (toutCommit before) |> on' pILK (ilkCommit before)
    |> whenB front (fun s => s |> forAll (List.range 512) (commitChan n before) |> forAll (List.range 512) (corrCommit before))
    |> on' pTRIM (trimCommit n) |> on' pNIB rotCommit
    |> whenB (ps.contains pSLOW || mLive before != mLive s) (forAll (List.range 4) (commitLane before))
    |> on' pTRG (forAll (List.range 64) (trgCommit before)) |> on' pETH (fun s => s |> ethCommit before |> ethTestWatch before)
    |> on' pLDU lduCommit

/-- What a change of M brings: the root's BCAST_LEAD and the others of its figures (R42), and the rings' figures. -/
def mChanged (before s : State) : State := whenB (mLive before != mLive s) rootFigures s

/-- The commits of stroke `n`: the pages are copied at once, but for those withheld, which are judged with the values that the others have
taken. -/
def strikeCommits (n : Nat) (s : State) : State :=
  let ps := committing n s
  if ps.isEmpty then s else
  let before := s
  let plain := ps.filter (fun p => p != pSYS && p != pFLT && p != pINKW && p != pDUC)
  let s := s |> whenB (ps.contains pSYS) (commitSys n ps) |> forAll plain copyPage |> commitEffects n ps before
    |> whenB (ps.contains pFLT) (commitFlt n before) |> whenB (ps.contains pINKW) (commitInk n) |> whenB (ps.contains pDUC) (commitDuc n)
    |> mChanged before
  s |> showPool n |> poolChanged n before |> showBps |> showCaps

/-- The sets that have committed on stroke `n`, and what waited for them (R39, R40). -/
def endCommits (n : Nat) (s : State) : State :=
  let ks := (List.range 8).filter (fun k => (commitSet s k).armed == some n)
  s |> forAll ks (fun k s => setCommitSet k { commitSet s k with armed := none, isSealed := false, last := n } s)
    |> forAll ks (releaseSet rselReset)

/-! ### The strike -/

/-- The pool, trim and what counts by strokes go on to the stroke. -/
def strikeCounts (s : State) : State :=
  let s := s |> strikePool |> strikeTrim |> coalStrike |> setDuc (fun d => { d with coarse := [], rounds := [] })
  { s with nibs := { s.nibs with firstY := [], firstSat := [] } }

/-- The bridge groups that the stroke does not serve use an older VREFG (R48, R78). -/
def refgStale (s : State) : Nat :=
  let now := refgOrder s (slotTable s)
  (indicesWhere 32 (fun g => hasBridge s g && !bitSet s.nibs.shed g && !now.contains g)).length

/-- The front end at the strike of stroke `n` (R45 to R57). -/
def strikeInputs (n : Nat) (e : StrikeEnv) (s : State) : State :=
  s |> strikeFrontEnd n e |> forAll (List.range 32) (refgAge n) |> (fun s => incBy F.NIB_COUNT.REFG_STALE (refgStale s) s)

/-- A synchronising reset armed for stroke `n` (R126). -/
def strikeSync (n : Nat) (s : State) : State := whenB (s.filt.syncArmed == some n) (fun s => s |> syncReset n |> syncRelease) s

/-- The state flags of the stroke's anchors are those at its strike (R150). -/
def strikeFlags (s : State) : State := setTrg (fun t => { t with tfl := tsuFlags s }) s

/-- All that happens on the strike of stroke `n`, the counter and time having gone on. -/
def strikeAll (n : Nat) (e : StrikeEnv) (s : State) : State :=
  s |> strikeCounts |> handOver n |> strikeCommits n |> timeLoad n |> strikeSync n |> strikeInputs n e |> pageTurn n |> strikeFlags
    |> skipShed n |> strikeCaptures n |> sendMarks n |> ddrTestWatch |> stageRecording |> strikeUseful e.us |> endCommits n

/-- The counter and the strike's own time, which nothing else that a strike brings moves (R45). -/
def keepStroke (s t : State) : State :=
  { t with struck := s.struck, strikeDclk := s.strikeDclk } |> rset F.SYS_STROKE_NOW.STROKE (strokeNow s)

/-- STRIKE (R45). -/
def strike (e : StrikeEnv) (s : State) : State :=
  if !mayStrike s then s else
  let u := if s.struck then nextStrike s else firstStrike e.us s
  keepStroke u (strikeAll (nextStroke s) e u)

/-- ACQUISITION_WINDOW: the PGAs take the ranges that the next stroke's commit makes live, and trim's inputs are swapped and injected for that
stroke (R54, R100). -/
def acquisitionWindow (s : State) : State :=
  let n := nextStroke s
  let ps := committing n s
  let gain (c : Nat) : Nat := if ps.contains (fechPage c) then sget s (fcRange c) else rget s (fcRange c)
  let trimmed := (List.range 512).filter (corrOn s)
  { s with acq := { gains := (List.range 512).foldl (fun t c => mput zeroAt c (gain c) t) s.acq.gains,
                    swapped := trimmed.filter (fun c => Config.swapSign c n), injected := trimmed.filter (fun c => Config.injSign c n) } }

/-! ### The closure (R199) -/

/-- STROKE_CLOSURE of the oldest stroke not closed: its rubrics and samples go to RUBQ, the rings and the streams; `full` are the DDR4 channels
whose queue cannot take the stroke, `held` the ports whose fine queue is full (R15). -/
def strokeClosure (full held : List Nat) (s : State) : State :=
  match s.trg.closing with
  | [] => s
  | r :: rest =>
    let past (s : State) : State := setTrg (fun t => { t with closing := rest }) s
    let x := closeRubrics r (past s)
    x.2 |> rubqItems r.stroke x.1.rub |> inkClose x.1 full |> closeSessions x.1 held |> past

end Sys2Proof.Machine
end

