-- ==== Sys2Proof/Machine/Boot.lean ====
section
/-!
DEFINITION. The boot ROMs: self-test, ledger, VERIFY, APPLY and LOAD (R366 to R374, R89, R292, R335), and the first stages of power-up (R376,
R417).
-/

namespace Sys2Proof.Machine

/-- A half is in a state of its boot ROM. -/
def inBoot (s : State) (h st : Nat) : Bool := halfState s h == 1 && bootStatus s h == st

/-! ### Errors (R368) -/

/-- An error: STATUS, VERIFY_FAIL and SYS SRC[3]. -/
def bootError (h code : Nat) (s : State) : State := s |> setBootStatus h code |> inc F.SYS_COUNT.VERIFY_FAIL |> raise pSYS 3

/-- An error that goes back to WAIT: it counts one failure, and RETRY_MAX in a row make the half FAILED. The half waits for a new seal; a NET
image is asked for again (R375). -/
def bootFail (h code : Nat) (s : State) : State :=
  let n := (half s h).fails + 1
  s |> bootError h code |> setHalf h (fun x => { x with fails := n, newSeal := true })
    |> whenB (decide (rget s F.SYS_IMG_CTRL.RETRY_MAX ≤ n)) (setHalfState h 6) |> whenB (ebootState s == 3) ebootAgain

/-! ### SELFTEST and LEDGER -/

/-- SELFTEST ends; `bad`: the ROM's CRC fails. -/
def selftestDone (h : Nat) (bad : Bool) (s : State) : State :=
  if !inBoot s h 0x0100 then s
  else if bad then s |> bootError h 0x8001 |> setHalfState h 6
  else
    let s := setHalf h (fun x => { x with mem := [] }) s
    if (half s h).cold then setBootStatus h 0x0200 s else enterWait h s

/-- What the ledger says of one unit at power-up: a nib, a row's hPPR, a channel or a lamp string (R88, R89, R292, R335). -/
def ledgerUnit (e : Nat) (s : State) : State :=
  let kind := slice 60 4 e
  let unit := slice 52 8 e
  let why := slice 48 4 e
  if kind = 1 then (if unit < 72 then s |> rset (F.NIB_STAT.STATE unit) 3 |> rset (F.NIB_STAT.REASON unit) why else s)
  else if kind = 2 then
    let b := hpprBit (bit unit 7) { rank := bit unit 6, bg := why % 4, ba := 0, row := 0, dev := slice 0 5 unit }
    bset b.1 (setBit (rget s b.1) b.2) s
  else if kind = 3 then s |> rset (F.INKW_CHRET.REASON (bit unit 7)) why |> setChState (bit unit 7) 9
  else if kind = 4 then retireString (unit % 16) why false s
  else s

/-- One entry as the boot ROM reads it: skipped and counted where its CRC is bad. -/
def ledgerRead (e : Nat) (s : State) : State :=
  if e = 0 then s
  else if crc8 (e / 256) 56 0 = e % 256 then ledgerUnit e s
  else ledgerLost s

/-- LEDGER ends: the units named in it are retired and the pool stands; the second half finds it done. -/
def bootLedger (h : Nat) (s : State) : State :=
  if !inBoot s h 0x0200 then s else
  s |> whenB (!s.nibs.built) (fun s => s |> showLedger |> forAll (s.nibs.ledger.map (·.2)) ledgerRead |> buildPool)
    |> enterWait h

/-! ### The image (R369 to R371) -/

/-- One entry of the section table. -/
structure Section where
  ty : Nat
  opt : Bool
  ofs : Nat
  len : Nat
  load : Nat
  deriving DecidableEq, Repr

def imgLen (s : State) : Nat := imgNum s 8 4

def sectionAt (s : State) (i : Nat) : Section :=
  let a := 32 + 16 * i
  ⟨imgNum s a 1, bitSet (imgNum s (a + 1) 1) 0, imgNum s (a + 4) 4, imgNum s (a + 8) 4, imgNum s (a + 12) 4⟩

def sections (s : State) : List Section := (List.range (min 16 (imgNum s 6 2))).map (sectionAt s)

/-- The section types of R370. -/
def knownType (t : Nat) : Bool := [1, 2, 3, 4, 5, 6, 8].contains t

/-- A section's length against its type. -/
def lengthOk (x : Section) : Bool :=
  match x.ty with
  | 1 | 2 | 3 => decide (x.len + 8 * x.load ≤ 262144)
  | 4 => x.len % 24 == 0
  | 5 => x.len == 10240
  | 6 => x.len == 23488
  | 8 => x.len == 8
  | _ => true

/-- Two sections have a byte in common. -/
def overlap (x y : Section) : Bool := decide (x.ofs < y.ofs + y.len) && decide (y.ofs < x.ofs + x.len)

/-- The section table meets 0x8013. -/
def tableOk (s : State) : Bool :=
  let xs := sections s
  decide (1 ≤ imgNum s 6 2 ∧ imgNum s 6 2 ≤ 16) && xs.all (fun x => decide (x.ofs + x.len + 208 ≤ imgLen s) && lengthOk x)
    && (List.range xs.length).all (fun i => (xs.drop (i + 1)).all (fun y => match xs[i]? with
        | some x => !overlap x y
        | none => true))

/-- The scribe section that a half loads: its own, else the one for both. -/
def scribeSection (s : State) (h : Nat) : Option Section :=
  match (sections s).find? (fun x => x.ty == 2 + h) with
  | some x => some x
  | none => (sections s).find? (fun x => x.ty == 1)

/-! ### The preload list (R370) -/

/-- A preload entry: OFFSET, KIND, VALUE_HI and VALUE_LO. -/
structure Preload where
  off : Nat
  kind : Nat
  hi : Nat
  lo : Nat
  deriving DecidableEq, Repr

def preloadAt (s : State) (a : Nat) : Preload := ⟨imgNum s a 4, imgNum s (a + 4) 4, imgNum s (a + 8) 8, imgNum s (a + 16) 8⟩

def preloads (s : State) (x : Section) : List Preload := (List.range (x.len / 24)).map (fun i => preloadAt s (x.ofs + 24 * i))

/-- Registers whose fields are fused or strapped; of SYS_EBOOT that is MAC. -/
def fusedReg (off : Nat) : Bool := off == 0x80 || off == 0x88 || off == 0x130 || off == 0x21080

/-- A field that a preload may set. -/
def presetField (off : Nat) (f : FieldRow) : Bool :=
  !fusedReg off && (f.access == .rw || f.access == .w1s || (f.access == .ro && f.commit == .boot))

/-- The bits of a header register that a preload may set. -/
def headMask (o : Nat) : Nat :=
  if o = 0x10 then 1
  else if o = 0x30 ∨ o = 0x38 then 0x1FFFF
  else if o = 0x40 then 0xE
  else if o = 0x48 ∨ o = 0x68 then 2 ^ 64 - 1
  else if o = 0x50 then 0xF
  else if o = 0x58 then 3
  else if o = 0x60 then 0x100
  else 0

/-- The bits of a register that a preload may set. -/
def presetMask (off : Nat) : Nat :=
  if slotAt off < 0x80 then headMask (slotAt off)
  else match findRow (slotAt off) (pageRows (pageAt off)) with
    | none => 0
    | some r => (r.fields.filter (presetField off)).foldl (fun a f => a + (2 ^ f.width - 1) * 2 ^ f.lo) 0

/-- An entry that VERIFY accepts: not on an X page, a register, and within its bits; or a window's INDEX. -/
def preloadOk (x : Preload) : Bool :=
  let p := pageAt x.off
  isReg x.off && p != pPEN && p != pSCRR && p != pSCRV
    && (if x.kind = 0 then x.lo == x.lo &&& presetMask x.off else (windowAt x.off).any (fun w => winOff w == x.off))

def preloadsOk (s : State) : Bool := (sections s).all (fun x => x.ty != 4 || (preloads s x).all preloadOk)

/-- The fields of a register take a preload's word, live and shadow. -/
def presetFields (off v : Nat) (s : State) : State :=
  match findRow (slotAt off) (pageRows (pageAt off)) with
  | none => s
  | some r => forAll (r.fields.filter (fun f => presetField off f && f.access != .w1s)) (fun f s =>
      let d := fieldOf off f
      let x := slice f.lo f.width v
      bset d (if f.access == .ro then x else fieldWritten f (rget s d) x) s) s

/-- The requester whose access a preload stands for where one must be named. -/
def bootReq : Req := ⟨.bar0, 0⟩

/-- A register entry; a W1S field acts as a write would. -/
def preloadReg (off v : Nat) (s : State) : State :=
  if slotAt off < 0x80 then writeHead (pageAt off) (slotAt off) bootReq v s
  else match windowAt off with
    | some w => writeWindow w bootReq off v s
    | none => pageEffect bootReq off v s (if effectOnly off then s else presetFields off v s)

/-- A window entry writes INDEX, DATA_LO, DATA_HI and a write OP. -/
def preloadWin (x : Preload) (s : State) : State :=
  s |> storeReg x.off (x.kind - 1) |> storeReg (x.off + 8) x.lo |> storeReg (x.off + 16) x.hi |> storeReg (x.off + 24) 2
    |> (match windowAt x.off with
      | some w => fun s => s |> windowGo w 2 0 |> windowDone w
      | none => id)

def preload (x : Preload) (s : State) : State := if x.kind = 0 then preloadReg x.off x.lo s else preloadWin x s

/-! ### VERIFY (R368, R371) -/

/-- Why VERIFY refuses the image, 0 where it does not. -/
def verifyCode (s : State) (h : Nat) : Nat :=
  let len := imgLen s
  let key := imgNum s 21 1
  let sig := imgBytes s (len - 208) 192
  let hash := Config.sha384 (imgBytes s 0 (len - 208))
  if imgNum s 0 4 ≠ 0x504E4F4E ∨ imgNum s 4 2 ≠ 1 then 0x8010
  else if len % 16 ≠ 0 ∨ len < 4096 ∨ 16769024 < len then 0x8011
  else if imgNum s 18 2 ≠ 0x0512 ∨ 0xB1 < imgNum s 20 1 then 0x8012
  else if !tableOk s then 0x8013
  else if (sections s).any (fun x => !knownType x.ty && !x.opt) || (scribeSection s h).isNone then 0x8014
  else if !preloadsOk s then 0x8015
  else if 3 < key ∨ bit (rget s F.SYS_FUSE.KEY_VALID) key = 0 ∨ Config.sha384 (sig.take 96) ≠ Config.fuseKey key then 0x8020
  else if bitSet (rget s F.SYS_FUSE.KEY_REVOKED) key then 0x8021
  else if !Config.ecdsaVerify (sig.take 96) hash (sig.drop 96) then 0x8022
  else if imgNum s 22 1 < rget s F.SYS_FUSE.SEC_VER then 0x8023
  else 0

/-- A verified image shows in SYS_IMG_HDR and SYS_IMG_DIGEST. -/
def showImage (s : State) : State :=
  let d := (Config.sha384 (imgBytes s 0 (imgLen s - 208))).toNat
  s |> rset F.SYS_IMG_HDR.VERSION (imgNum s 12 4) |> rset F.SYS_IMG_HDR.EPOCH (imgNum s 16 2) |> rset F.SYS_IMG_HDR.SEC_VER (imgNum s 22 1)
    |> rset F.SYS_IMG_HDR.KEY_INDEX (imgNum s 21 1)
    |> forAll (List.range 6) (fun k => rset (F.SYS_IMG_DIGEST.DIGEST k) (slice (64 * (5 - k)) 64 d))

/-- Whether APPLY is for half `h`: the first to pass VERIFY since power-up, until it is done (R374). -/
def mayApply (s : State) (h : Nat) : Bool := !s.boot.applied && (s.boot.applier == none || s.boot.applier == some h)

/-- VERIFY ends; `parity`: the store changed under it. -/
def verifyDone (h : Nat) (parity : Bool) (s : State) : State :=
  if !inBoot s h 0x0500 then s
  else if verifyCode s h ≠ 0 then bootFail h (verifyCode s h) s
  else if parity then bootFail h 0x8030 s
  else
    let s := showImage s
    if mayApply s h then s |> setBoot (fun b => { b with applier := some h }) |> setBootStatus h 0x0600 else setBootStatus h 0x0700 s

/-! ### APPLY (R370, R374) -/

/-- The lamp section: 256 entries of two words, then 4 pages of 64 words. -/
def applyLamps (a : Nat) (s : State) : State :=
  let tab := (List.range 512).foldl (fun t i => mput wideZero i (BitVec.ofNat 128 (lampStore i (imgNum s (a + 16 * i) 16))) t) s.ldu.tab
  let pages := (List.range 256).foldl (fun t i => mput zeroAt i (imgNum s (a + 8192 + 8 * i) 8) t) s.ldu.pages
  setLdu (fun x => { x with tab := tab, tabSh := tab, pages := pages }) s

/-- The trim seeds: 72 nibs of 24 words, 516 front-end entries of 4 ranges, 16 sources. -/
def applySeeds (a : Nat) (s : State) : State :=
  let w (i : Nat) : Nat := imgNum s (a + 4 * i) 4
  let wt := (List.range 72).foldl (fun t n => (List.range 22).foldl (fun t i => mput zeroAt (22 * n + i) (w (24 * n + i)) t) t) s.trim.wt
  let ofs := (List.range 2064).foldl (fun t i => mput zeroAt i (w (1728 + 2 * i)) t) s.trim.feOfs
  let gain := (List.range 2064).foldl (fun t i => mput zeroAt i (w (1728 + 2 * i + 1) % 2 ^ 24) t) s.trim.feGain
  { s with trim := { s.trim with wt := wt, feOfs := ofs, feGain := gain } }
    |> forAll (List.range 72) (fun n s => s |> rset (F.NIB_CORR.OFS n) (w (24 * n + 22)) |> rset (F.NIB_CORR.GAIN n) (w (24 * n + 23)))
    |> forAll (List.range 16) (fun k => rset (F.EXC_MEAS.I_NA k) (w (5856 + k)))

/-- One section as APPLY takes it; a fuse is burned and never cleared (R397: it shows after the next power-up). -/
def applySection (x : Section) (s : State) : State :=
  match x.ty with
  | 4 => forAll (preloads s x) preload s
  | 5 => applyLamps x.ofs s
  | 6 => applySeeds x.ofs s
  | 8 => setBoot (fun b => { b with fuses := b.fuses ||| (imgNum s x.ofs 8 &&& 0x3FF0) }) s
  | _ => s

/-- A preload's window entries write the live tables too. -/
def liveTables (s : State) : State :=
  { s with filt := { s.filt with desc := s.filt.descSh }, ldu := { s.ldu with tab := s.ldu.tabSh },
           duc := { s.duc with sess := s.duc.sessSh, keys := s.duc.keysSh }, ink := { s.ink with rsel := s.ink.rselSh } }

/-- Inkline begins in its role: off, as root, or looking for a parent (R170, R173); its lanes train (R376). -/
def ilkStart (s : State) : State :=
  let role := rget s F.ILK_CFG.ROLE
  let lanes := (List.range 4).filter (fun k => on s (F.ILK_LCFG.EN k) && bitSet (rget s F.ILK_CFG.LANE_EN) k)
  if role = 3 then ilkSetState 0 s
  else s |> forAll lanes (fun k s => if rget s (F.ILK_LSTAT.LINK k) = 0 then rset (F.ILK_LSTAT.LINK k) 1 s else s)
    |> (if role = 1 then becomeRoot else ilkSetState 1) |> seekParent |> showAcceptable

/-- Training begins on each fitted channel that is not retired (R376). -/
def trainStart (s : State) : State :=
  forAll ((List.range 2).filter (fun c => bitSet (rget s F.INKW_CFG.CH_FIT) c && chState s c != 9)) (fun c => setChState c 1) s

/-- What the applied configuration brings about at once, as the first commit of every page would. -/
def applyEffects (before s : State) : State :=
  let n := strokeNow s
  let ps := allPages.filter (fun p => p != pFEGRP && p != pFECH0 && p != pFECH1 && p != pILK && p != pSLOW && p != pTRIM)
  s |> commitEffects n ps before |> fltCommit n before |> inkCommit n before |> ducCommit n before |> ilkStart
    |> showPool n |> showCapacity |> showBps |> showCaps |> rootFigures

/-- APPLY ends (R376). -/
def applyDone (h : Nat) (parity : Bool) (s : State) : State :=
  if !inBoot s h 0x0600 then s
  else if parity then s |> setBoot (fun b => { b with applier := none }) |> bootFail h 0x8030
  else
    let t := s |> forAll (sections s) applySection
    applyEffects s t |> liveTables |> setBoot (fun b => { b with applied := true }) |> setBootStatus h 0x0700 |> trainStart |> setStage 1

/-! ### LOAD (R367) -/

/-- The words of a scribe section from memory word LOAD on; a last word cut short ends in zeros. -/
def loadSection (h : Nat) (x : Section) (s : State) : State :=
  let word (i : Nat) : Nat :=
    let k := min 8 (x.len - 8 * i)
    imgNum s (x.ofs + 8 * i) k * 256 ^ (8 - k)
  forAll (List.range (ceilDiv x.len 8)) (fun i => memSet h (x.load + i) (word i)) s

/-- LOAD ends at DCLK cycle `cyc`: a half waits here until APPLY has ended; then it is READY and slot 0 is pending. The boot client stops. -/
def loadDone (h cyc : Nat) (parity : Bool) (s : State) : State :=
  if !inBoot s h 0x0700 || !s.boot.applied then s
  else if parity then bootFail h 0x8030 s
  else
    let now := dclkAt ⟨halfReq h, cyc⟩ s
    s |> (match scribeSection s h with
        | some x => loadSection h x
        | none => id)
      |> rset (sf h F.SCRR_EPOCH.EPOCH) (imgNum s 16 2) |> rset (sf h F.SCRR_EPOCH.VERSION) (imgNum s 12 4)
      |> setHalf h (fun x => { x with fails := 0, wdFrom := now }) |> setBootStatus h 0x0800 |> setHalfState h 2
      |> rset (sf h F.SCRR_STATE.IDLE) 1 |> triggerSlot h 0 |> whenB (ebootState s != 0) (rset F.SYS_EBOOT.STATE 4)

/-! ### The stroke PLL (R376, R417) -/

/-- PLL_LOCK: to REFIN, or to the parent lane for a member; `us` microseconds after the release of PORST_N. -/
def pllLock (us : Nat) (s : State) : State :=
  if rget s F.SYS_STAGE.STAGE ≠ 1 then s else
  let lane := rget s F.ILK_CFG.ROLE == 0
  s |> rset F.SYS_CLK.SRC lane.toNat |> rset F.SYS_CLK.LOCKED 1 |> whenB (!lane) (rset F.SYS_CLK.REF_PRESENT 1)
    |> rset F.SYS_CLK.LOCK_US us |> setStage 2

/-- REFIN_LOSS after STRIKING: the PLL holds, and strikes go on. -/
def refinLoss (s : State) : State :=
  if rget s F.SYS_STAGE.STAGE < 3 ∨ !on s F.SYS_CLK.REF_PRESENT then s
  else s |> rset F.SYS_CLK.REF_PRESENT 0 |> rset F.SYS_CLK.LOCKED 0 |> raise pSYS 5

/-- REFIN_RETURN: the PLL takes it up. -/
def refinReturn (s : State) : State :=
  if rget s F.SYS_STAGE.STAGE < 3 ∨ on s F.SYS_CLK.REF_PRESENT then s
  else s |> rset F.SYS_CLK.REF_PRESENT 1 |> rset F.SYS_CLK.LOCKED 1

/-- The release of PORST_N: BOOT_NET is sampled, the fuses show, and both boot ROMs start; with BOOT_NET the boot client looks for a link (R366,
R367, R375). -/
def porstRelease (bootNet : Bool) (s : State) : State :=
  if !s.boot.held && (halfState s 0 != 0 || halfState s 1 != 0) then s
  else
    setBoot (fun b => { b with held := false }) s |> rset F.SYS_FUSE.BOOT_NET bootNet.toNat
      |> rset F.SYS_FUSE.KEY_REVOKED (rget s F.SYS_FUSE.KEY_REVOKED ||| slice 4 4 s.boot.fuses)
      |> rset F.SYS_FUSE.SEC_VER (rget s F.SYS_FUSE.SEC_VER ||| slice 8 6 s.boot.fuses)
      |> whenB bootNet (rset F.SYS_EBOOT.STATE 1)
      |> wear F.MON_WEAR.PEN_OK 1 |> forAll [0, 1] (fun h s => s |> setHalfState h 1 |> setBootStatus h 0x0100 |> inc (sf h F.SCRR_COUNT.BOOTS) |> inc F.SYS_COUNT.BOOTS)

/-- DDR_TRAIN_DONE: boot training of a channel passes, and it enters IN (R376). -/
def trainDone (c : Nat) (s : State) : State := if chState s c = 1 then s |> enterIn c |> stageRecording else s

end Sys2Proof.Machine
end

