-- ==== Sys2Proof/Machine/Act.lean ====
section
/-!
DEFINITION. How a command acts on the hub: the frame that every command keeps, and the register accesses and small measures that the
meanings of the rows share. While PORST_N is low no command but its release has an effect (R365; log entry 60); a command that names no
unit of the hub has none either (log entry 61).
-/

namespace Sys2Proof.Machine

/-- The queue, PORST_N and the fuses as they were: only the commands of power-up concern them (R365, R370). -/
def keepPower (s t : State) : State :=
  { t with pending := s.pending, boot := { t.boot with held := s.boot.held, fuses := s.boot.fuses } }

/-- The wear ledger as it was: only the end of its own write adds to it (R88, R89). -/
def keepWear (s t : State) : State := { t with nibs := { t.nibs with ledger := s.nibs.ledger } }

/-- The strokes' own time as it was: only a strike moves it (R45, R376). -/
def keepTime (s t : State) : State := { t with struck := s.struck, strikeDclk := s.strikeDclk }

/-- The live copies of the tables that commit on a stroke as they were: descriptors, sessions and keys, record rings, trim (R37, R43, R107). -/
def keepTables (s t : State) : State :=
  { t with filt := { t.filt with desc := s.filt.desc }
           duc := { t.duc with sess := s.duc.sess, keys := s.duc.keys }
           ink := { t.ink with rsel := s.ink.rsel }
           trim := { t.trim with wt := s.trim.wt, feOfs := s.trim.feOfs, feGain := s.trim.feGain } }

/-- The live values of the fields that commit on a stroke as they were (R9, R37). -/
def keepLive (s t : State) : State := { t with live := s.live }

/-- What every command leaves alone but those named below: what only power, the ledger's write or a strike changes. -/
def keepAll (s t : State) : State := t |> keepPower s |> keepWear s |> keepTime s |> keepTables s |> keepLive s

/-- The frame of the strike, which commits (R37). -/
def keepStrike (s t : State) : State := t |> keepPower s |> keepWear s

/-- The frame of the end of a flourish and of the effect of a retirement: a channel's live descriptor may change (R92, R434). -/
def keepFlour (s t : State) : State := t |> keepPower s |> keepWear s |> keepTime s |> keepTables s

/-- The frame of the end of a ledger write (R89). -/
def keepFuses (s t : State) : State := t |> keepPower s |> keepTime s |> keepTables s |> keepLive s

/-- The frame of APPLY, which writes the configuration and burns fuses (R376, R397). -/
def keepApply (s t : State) : State :=
  { t with pending := s.pending, boot := { t.boot with held := s.boot.held, fuses := s.boot.fuses ||| t.boot.fuses } } |> keepWear s |> keepTime s

/-- The frame of the release of PORST_N, which alone ends a reset. -/
def keepRelease (s t : State) : State :=
  { t with pending := s.pending, boot := { t.boot with fuses := s.boot.fuses } } |> keepWear s |> keepTime s |> keepTables s |> keepLive s

/-- A command acts by `f` where `ok` says that it names a unit of the hub, within the frame `keep`. -/
def actIn (keep : State → State → State) (ok : Bool) (f : State → State) (s : State) : Host.Outcome State Fault Refusal :=
  .next (if s.boot.held || !ok then s else keep s (f s))

/-- A command within the common frame. -/
def act (ok : Bool) (f : State → State) (s : State) : Host.Outcome State Fault Refusal := actIn keepAll ok f s

/-! ### Register accesses by name -/

/-- The offset of the register that holds a field. -/
def regOff (f : Fld) : Nat := f.key % strokeBase / 64 * 8

/-- A word with a field of it made `x`. -/
def wordWith (f : Fld) (x v : Nat) : Nat :=
  v % 2 ^ 64 - slice (f.key % 64) f.width v * 2 ^ (f.key % 64) + x % 2 ^ f.width * 2 ^ (f.key % 64)

/-- A write of `v` with a field made `x` to the field's register. -/
def regWrite (r : Req) (f : Fld) (x v : Nat) (s : State) : State := wideWrite r (regOff f) (wordWith f x v) s

/-- A write to a header register of page `p`. -/
def headWrite (r : Req) (p o v : Nat) (s : State) : State := wideWrite r (p * 4096 + o) v s

/-- GO with an OP on window `w`. -/
def windowOp (r : Req) (w op : Nat) (s : State) : State := wideWrite r (winOff w + 24) (op + 2 ^ 8) s

/-- A 128-bit word goes through window `w` to an entry's word: INDEX, DATA_LO, DATA_HI and CTRL in turn. -/
def windowPut (r : Req) (w e i v : Nat) (s : State) : State :=
  s |> wideWrite r (winOff w) (e + i * 2 ^ 16) |> wideWrite r (winOff w + 8) (v % 2 ^ 64) |> wideWrite r (winOff w + 16) (v / 2 ^ 64 % 2 ^ 64)
    |> windowOp r w 2

/-- Word 0 of a ring's entry is written through DMA_RING (R301). -/
def ringWindow (r : Req) (k v : Nat) (s : State) : State := windowPut r 6 k 0 v s

/-- NIB_RETIRE is written (R87). -/
def nibCommand (r : Req) (op nib key : Nat) (s : State) : State :=
  wideWrite r (regOff F.NIB_RETIRE.OP) (nib % 2 ^ 7 + op * 2 ^ 8 + key % 2 ^ 16 * 2 ^ 16) s

/-- INKW_FREEZE is written with GO (R285). -/
def freezeWrite (r : Req) (op v : Nat) (s : State) : State := regWrite r F.INKW_FREEZE.OP op (setBit v 2) s

/-- DMA_RESUME is written with GO (R313). -/
def resumeWrite (r : Req) (op cls id : Nat) (s : State) : State :=
  wideWrite r (regOff F.DMA_RESUME.GO) (cls % 4 + op * 4 + 2 ^ 8 + id % 2 ^ 16 * 2 ^ 16) s

/-- PEN_UNLOCK is written (R350). -/
def unlockWord (r : Req) (key who go : Nat) (s : State) : State :=
  wideWrite r (regOff F.PEN_UNLOCK.GO) (key % 2 ^ 16 + who % 4 * 2 ^ 16 + go * 2 ^ 18) s

/-- The offset of LDU_SCFG of string `n`, which holds CLEAR. -/
def lduString (n : Nat) : Nat := regOff (F.LDU_SCFG.CLEAR n)

/-- LDU_CTRL.RET_GO is written for a string, with EN as it stands (R335). -/
def lduRetire (r : Req) (n key : Nat) (s : State) : State :=
  wideWrite r (regOff F.LDU_CTRL.RET_GO) (sget s F.LDU_CTRL.EN + n % 16 * 2 ^ 8 + 2 ^ 12 + key % 2 ^ 16 * 2 ^ 16) s

/-! ### Frames received -/

/-- A PTP message reaches the hub's port. -/
def ptpIn (h : PtpHdr) (x : EthRx) (use : State → State) (s : State) : State := s |> ethIn h.port x |> use

/-- A control request reaches a port of the hub. -/
def ducIn (q : DucReq) (x : EthRx) (use : State → State) (s : State) : State :=
  s |> ethIn q.eth x |> use

/-- A frame that only comes down the tree is used when it comes from the parent. -/
def fromUp (k : Nat) (use : State → State) (s : State) : State := if isUp s k then use s else s

/-! ### Power -/

/-- The hub as PORST_N or a brownout leaves it, with its cause and the rails that fell: everything at reset but the fuses, the ledger and the
model's own records; lamp outputs and IRQ_N go to their inactive levels (R322, R365, R384). -/
def porstReset (cause rails : Nat) (s : State) : State :=
  { State.reset with
      pending := s.pending
      out := (s |> allOff).out ++ (if irqLow s then [.irqLevel false] else [])
      free := s.free
      nibs := { State.reset.nibs with ledger := s.nibs.ledger }
      boot := { State.reset.boot with held := true, fuses := s.boot.fuses } }
    |> rset F.SYS_RST.CAUSE cause |> rset F.SYS_RST.RAILS rails

/-! ### Front end and trim -/

/-- The monitor of an AC channel trips: above AC_HI an open sensor, below AC_LO a shorted one (R56). -/
def acOpenTrip (c mV : Nat) (s : State) : State :=
  if rget s (fcMode c) = 2 ∧ lineOutside [(c, mV)] c s then
    openTrip (nextStroke s) (if mV < 10 * rget s (F.FEGRP_CFG.AC_LO (groupOf c)) then 1 else 2) c s
  else s

/-- OPEN clears after 16 strikes in a row inside the window, and SETTLE follows for 3 strokes (R56; log entry 62). -/
def openClear (c : Nat) (s : State) : State :=
  if on s (fcOpen c) ∧ 16 ≤ (chanFe s c).inRun then s |> openEnd c |> settleFor (strokeNow s) 3 c else s

/-- Cause 3: PERIOD_S is not 0 and has passed since the start that it counts from (R98). -/
def trimScheduled (s : State) : State :=
  let p := rget s F.TRIM_SCHED.PERIOD_S
  match s.trim.schedFrom with
  | none => s
  | some n => if p ≠ 0 ∧ n + strokesOfSec p s ≤ nextStroke s then trimTrigger 3 s else s

/-- Cause 6: the initial run of a hub that strikes (R377). -/
def trimInitial (s : State) : State := if s.struck then trimTrigger 6 s else s

/-! ### Memory, transfers and the image -/

/-- A FAILED channel is retrained again (R288). -/
def retryFailedChannel (c : Nat) (s : State) : State := if chState s c = 8 then ddrTrigger 0 c false s else s

/-- A fault of the DMA engine: a walk without a leaf, or a read that ended badly (R311, R317). -/
def faultOf (bad : Option CplBad) (site ring rid : Nat) (s : State) : State :=
  match bad with
  | none => dmaFault site 0 ring s
  | some b => completionBad b site ring rid s

/-- Bytes reach the image store (R372). -/
def imageBy (w : ImgBy) (s : State) : State :=
  match w with
  | .bar4 a rid bs => bar4Write a rid bs s
  | .imgw r => windowOp r 12 2 s

end Sys2Proof.Machine
end

