-- ==== Sys2Proof/Machine/CmdAccess.lean ====
section
/-!
DEFINITION. The meanings of the commands of accesses to the register spine, the page header and the indirect windows: one definition for each row of the table.
-/

namespace Sys2Proof.Machine

/-- A 32-bit BAR0 write to the low half of the register at `off` (R25). -/
def execHalfWriteLow (off v : Nat) (s : State) : Host.Outcome State Fault Refusal :=
  act true (halfWriteLow off v) s

/-- A 32-bit BAR0 write to the high half of the register at `off` (R25). -/
def execHalfWriteHigh (cyc off v : Nat) (s : State) : Host.Outcome State Fault Refusal :=
  act true (halfWriteHigh cyc off v) s

/-- A 32-bit BAR0 read of the low half of the register at `off`; `bad`: a queue word that it pops fails its parity (R25, R256). -/
def execHalfReadLow (cyc off : Nat) (bad : Bool) (s : State) : Host.Outcome State Fault Refusal :=
  act true (halfReadLow cyc off bad) s

/-- A 32-bit BAR0 read of its high half (R25). -/
def execHalfReadHigh (cyc off : Nat) (bad : Bool) (s : State) : Host.Outcome State Fault Refusal :=
  act true (halfReadHigh cyc off bad) s

/-- 1,024 DCLK cycles have passed since a low half was held (R25). -/
def execHalfDiscardTimeout (s : State) : Host.Outcome State Fault Refusal :=
  act true halfDrop s

/-- A 64-bit write to the register at `off` (R25, R34). -/
def execRegisterWrite (r : Req) (off v : Nat) (s : State) : Host.Outcome State Fault Refusal :=
  act true (wideWrite r off v) s

/-- An SPI write frame; `served`: the spine has served the frames before it (R28). -/
def execSpiWriteFrame (off v : Nat) (crcOk served : Bool) (cyc : Nat) (s : State) : Host.Outcome State Fault Refusal :=
  act true (spiWrite off v crcOk served cyc) s

/-- An SPI read frame (R28). -/
def execSpiReadFrame (off : Nat) (crcOk bad : Bool) (cyc : Nat) (s : State) : Host.Outcome State Fault Refusal :=
  act true (spiRead off crcOk bad cyc) s

/-- An SPI status-only frame (R28). -/
def execSpiStatusFrame (crcOk : Bool) (cyc : Nat) (s : State) : Host.Outcome State Fault Refusal :=
  act true (spiStatus crcOk cyc) s

/-- Chip select is released in the middle of a frame of command byte `cmd` (R28). -/
def execSpiCsReleasedMidFrame (cmd : Nat) (s : State) : Host.Outcome State Fault Refusal :=
  act true (spiNak cmd 5) s

/-- 1 is written to PAGE_CTRL.CLR_STATUS of page `p`; `v` has the word's other bits (R29). -/
def execClrStatus (r : Req) (p v : Nat) (s : State) : Host.Outcome State Fault Refusal :=
  act (allPages.contains p) (headWrite r p 0x10 (setBit v 0)) s

/-- EVT_PEND of page `p` is written (R29). -/
def execEvtPendClear (r : Req) (p v : Nat) (s : State) : Host.Outcome State Fault Refusal :=
  act (allPages.contains p) (headWrite r p 0x28 v) s

/-- EVT_FORCE of page `p` is written (R29). -/
def execEvtForce (r : Req) (p v : Nat) (s : State) : Host.Outcome State Fault Refusal :=
  act (allPages.contains p) (headWrite r p 0x38 v) s

/-- 1 is written to SHADOW_CTRL.DISCARD of page `p` (R31). -/
def execShadowDiscard (r : Req) (p v : Nat) (s : State) : Host.Outcome State Fault Refusal :=
  act (allPages.contains p) (headWrite r p 0x40 (setBit v 1)) s

/-- 1 is written to SHADOW_CTRL.COMMIT_NEXT of page `p` (R31). -/
def execCommitNext (r : Req) (p v : Nat) (s : State) : Host.Outcome State Fault Refusal :=
  act (allPages.contains p) (headWrite r p 0x40 (setBit v 2)) s

/-- COMMIT_STROKE of page `p` is written with stroke `n` (R38). -/
def execCommitStrokeArm (r : Req) (p n : Nat) (s : State) : Host.Outcome State Fault Refusal :=
  act (allPages.contains p) (headWrite r p 0x48 n) s

/-- COMMIT_STROKE of page `p` is written with all ones (R40). -/
def execCommitDisarm (r : Req) (p : Nat) (s : State) : Host.Outcome State Fault Refusal :=
  act (allPages.contains p) (headWrite r p 0x48 allOnes) s

/-- 1 is written to LOCK.LOCKED of page `p` (R36). -/
def execLockSet (r : Req) (p : Nat) (s : State) : Host.Outcome State Fault Refusal :=
  act (allPages.contains p) (headWrite r p 0x58 1) s

/-- 0xC1A5 is written to LOCK.KEY of page `p` (R36). -/
def execLockKey (r : Req) (p : Nat) (s : State) : Host.Outcome State Fault Refusal :=
  act (allPages.contains p) (headWrite r p 0x58 (0xC1A5 * 2 ^ 16)) s

/-- 1 is written to LOCK.CLEAR of page `p` (R36). -/
def execLockClear (r : Req) (p : Nat) (s : State) : Host.Outcome State Fault Refusal :=
  act (allPages.contains p) (headWrite r p 0x58 2) s

/-- GO with OP read on window `w` (R43). -/
def execWindowRead (r : Req) (w : Nat) (s : State) : Host.Outcome State Fault Refusal :=
  act (decide (w < 14)) (windowOp r w 1) s

/-- GO with OP write on window `w` (R43). -/
def execWindowWrite (r : Req) (w : Nat) (s : State) : Host.Outcome State Fault Refusal :=
  act (decide (w < 14)) (windowOp r w 2) s

/-- GO with OP invalidate on window `w` (R43). -/
def execWindowInvalidate (r : Req) (w : Nat) (s : State) : Host.Outcome State Fault Refusal :=
  act (decide (w < 14)) (windowOp r w 3) s

/-- The operation of window `w` ends (R43). -/
def execWindowOpDone (w : Nat) (s : State) : Host.Outcome State Fault Refusal :=
  act (decide (w < 14)) (windowDone w) s

/-- An SPI frame whose command byte is not 0x02, 0x03 or 0x05 (R28). -/
def execSpiUnknownCommand (cmd : Nat) (s : State) : Host.Outcome State Fault Refusal :=
  act (cmd != 2 && cmd != 3 && cmd != 5) (spiNak cmd 3) s

/-- TSU_NOW_S is read (R161). -/
def execTsuNowRead (r : Req) (s : State) : Host.Outcome State Fault Refusal :=
  act true (wideRead r (regOff F.TSU_NOW_S.SECONDS) false) s

end Sys2Proof.Machine
end

