-- ==== Sys2Proof/Machine/CmdAnalog.lean ====
section
/-!
DEFINITION. The meanings of the commands of the slow lanes, the nib pool, trim and the filter engine: one definition for each row of the table.
-/

namespace Sys2Proof.Machine

/-- The mux step of slow lane `k` ends (R60). -/
def execSlowMuxStepEnd (k : Nat) (s : State) : Host.Outcome State Fault Refusal :=
  act (decide (k < 4)) (slowMuxEnd k) s

/-- The open check of slow lane `k` ends with an apparent resistance in mΩ (R63). -/
def execSlowOpenCheckEnd (k mOhm : Nat) (s : State) : Host.Outcome State Fault Refusal :=
  act (decide (k < 4)) (slowCheckEnd k mOhm) s

/-- The settle time of slow lane `k` ends (R60). -/
def execSlowSettleEnd (k : Nat) (s : State) : Host.Outcome State Fault Refusal :=
  act (decide (k < 4)) (slowSettleEnd k) s

/-- Window 1 of slow lane `k` ends (R60). -/
def execSlowWindow1End (k : Nat) (s : State) : Host.Outcome State Fault Refusal :=
  act (decide (k < 4)) (slowWindow1End k) s

/-- The sense switch of slow lane `k` ends (R60). -/
def execSlowSenseSwitchEnd (k : Nat) (s : State) : Host.Outcome State Fault Refusal :=
  act (decide (k < 4)) (slowSenseEnd k) s

/-- Window 2 of slow lane `k` ends (R59). -/
def execSlowWindow2End (k : Nat) (s : State) : Host.Outcome State Fault Refusal :=
  act (decide (k < 4)) (slowWindow2End k) s

/-- Excitation source `src` leaves compliance (R63). -/
def execExcComplianceLoss (src : Nat) (s : State) : Host.Outcome State Fault Refusal :=
  act (decide (src < 16)) (complianceLoss src) s

/-- The decided change of nib `nib` takes effect on the coming stroke (R85). -/
def execNibRetireEffect (nib : Nat) (s : State) : Host.Outcome State Fault Refusal :=
  actIn keepFlour (decide (nib < 72)) (nibTakesEffect nib) s

/-- A wear-ledger write ends; `stored` is what the slot now holds (R89). -/
def execLedgerWriteDone (stored : Nat) (s : State) : Host.Outcome State Fault Refusal :=
  actIn keepFuses true (ledgerDone stored) s

/-- NIB_RETIRE is written with OP 0b01 (R87). -/
def execNibRetire (r : Req) (nib key : Nat) (s : State) : Host.Outcome State Fault Refusal :=
  act true (nibCommand r 1 nib key) s

/-- NIB_RETIRE is written with OP 0b10 (R87). -/
def execNibPark (r : Req) (nib key : Nat) (s : State) : Host.Outcome State Fault Refusal :=
  act true (nibCommand r 2 nib key) s

/-- NIB_RETIRE is written with OP 0b11 (R87). -/
def execNibUnpark (r : Req) (nib key : Nat) (s : State) : Host.Outcome State Fault Refusal :=
  act true (nibCommand r 3 nib key) s

/-- 1 is written to TRIM_CTRL.GO (R98). -/
def execTrimGo (r : Req) (v : Nat) (s : State) : Host.Outcome State Fault Refusal :=
  act true (regWrite r F.TRIM_CTRL.GO 1 v) s

/-- PERIOD_S seconds of strokes have passed (R98). -/
def execTrimSchedule (s : State) : Host.Outcome State Fault Refusal :=
  act true trimScheduled s

/-- MIN_GAP_S seconds have passed since the end of the last run (R98). -/
def execTrimMinGapExpiry (s : State) : Host.Outcome State Fault Refusal :=
  act true trimNext s

/-- The initial trim run is due on the coming stroke (R377). -/
def execTrimInitialRun (s : State) : Host.Outcome State Fault Refusal :=
  act true trimInitial s

/-- The stroke after a trigger: the run starts (R98 to R100). -/
def execTrimRunStart (s : State) : Host.Outcome State Fault Refusal :=
  act true trimStart s

/-- A window of the calibration step of slow lane `k` ends (R104). -/
def execLaneCalWindowEnd (k : Nat) (s : State) : Host.Outcome State Fault Refusal :=
  act (decide (k < 4)) (laneCalEnd k) s

/-- The front-end part has run its strokes (R100). -/
def execTrimFePartEnd (s : State) : Host.Outcome State Fault Refusal :=
  act true trimFeEnd s

/-- NIB_DONE has reached W and the front-end part is done (R100). -/
def execTrimRunEnd (s : State) : Host.Outcome State Fault Refusal :=
  act true trimRunEnd s

/-- The solver ends with what it has computed (R102, R105, R107). -/
def execTrimSolverDone (v : Solved) (cyc : Nat) (s : State) : Host.Outcome State Fault Refusal :=
  act true (solverDone v cyc) s

/-- 1 is written to TRIM_CTRL.ABORT (R110). -/
def execTrimAbort (r : Req) (v : Nat) (s : State) : Host.Outcome State Fault Refusal :=
  act true (regWrite r F.TRIM_CTRL.ABORT 1 v) s

/-- FLT_SYNC is written with stroke `n` (R125). -/
def execFltSyncArm (r : Req) (n : Nat) (s : State) : Host.Outcome State Fault Refusal :=
  act true (wideWrite r (regOff F.FLT_SYNC.STROKE) n) s

/-- FLT_SYNC is written with all ones (R125). -/
def execFltSyncDisarm (r : Req) (s : State) : Host.Outcome State Fault Refusal :=
  act true (wideWrite r (regOff F.FLT_SYNC.STROKE) allOnes) s

/-- 1 is written to FLT_CTRL.SYNC_NEXT (R125). -/
def execSyncNext (r : Req) (v : Nat) (s : State) : Host.Outcome State Fault Refusal :=
  act true (regWrite r F.FLT_CTRL.SYNC_NEXT 1 v) s

/-- A falling edge on SYNC_N, held for 4 DCLK cycles, has reached the stroke domain on cycle `cyc` (R125). -/
def execSyncNEdge (cyc : Nat) (s : State) : Host.Outcome State Fault Refusal :=
  act true (syncPin cyc) s

/-- FLT_FLR_REQ is written (R129). -/
def execFlrRequest (r : Req) (v : Nat) (s : State) : Host.Outcome State Fault Refusal :=
  act true (wideWrite r (regOff F.FLT_FLR_REQ.DESC) v) s

/-- The last fade output of channel `c` has left (R130). -/
def execFlourishDone (c : Nat) (s : State) : Host.Outcome State Fault Refusal :=
  actIn keepFlour (decide (c < 512)) (flrDone c) s

/-- 1 is written to FAST_PEEK_SEL.ARM (R133). -/
def execPeekArm (r : Req) (v : Nat) (s : State) : Host.Outcome State Fault Refusal :=
  act true (regWrite r F.FAST_PEEK_SEL.ARM 1 v) s

/-- The values that an armed peek waits for are there (R133). -/
def execPeekCapture (s : State) : Host.Outcome State Fault Refusal :=
  act true peekCapture s

end Sys2Proof.Machine
end

