-- ==== Sys2Proof/Machine/CmdDram.lean ====
section
/-!
DEFINITION. The meanings of the commands of the Inkwell: one definition for each row of the table.
-/

namespace Sys2Proof.Machine

/-- A refresh of channel `c` falls due (R277). -/
def execDramRefresh (c : Nat) (s : State) : Host.Outcome State Fault Refusal :=
  act (decide (c < 2)) (ddrRefresh c) s

/-- MPR page 2 of channel `c` is read: the temperature status of ranks 0 and 1 (R277). -/
def execMprTempRead (c r0 r1 : Nat) (s : State) : Host.Outcome State Fault Refusal :=
  act (decide (c < 2)) (mprRead c r0 r1) s

/-- A rank has been idle for PD_IDLE cycles (R278). -/
def execPowerDownEntry (c rank : Nat) (s : State) : Host.Outcome State Fault Refusal :=
  act (decide (c < 2) && decide (rank < 2)) (powerDown c rank) s

/-- Channel `c` begins self-refresh entry (R279). -/
def execSelfRefreshEntry (c : Nat) (s : State) : Host.Outcome State Fault Refusal :=
  act (decide (c < 2)) (srEntry c) s

/-- Self-refresh entry of channel `c` is complete (R280). -/
def execSelfRefreshEntryDone (c : Nat) (s : State) : Host.Outcome State Fault Refusal :=
  act (decide (c < 2)) (srEntryDone c) s

/-- Self-refresh of channel `c` ends, `delay` DCLK cycles after a held request (R280). -/
def execSelfRefreshExit (c delay : Nat) (s : State) : Host.Outcome State Fault Refusal :=
  act (decide (c < 2)) (srExit c delay) s

/-- The activations of the row at `addr` reach RH_THR, by requester `req` (R281). -/
def execRowHammer (c addr req : Nat) (s : State) : Host.Outcome State Fault Refusal :=
  act (decide (c < 2)) (rowHammer c addr req) s

/-- A refresh window of channel `c` ends (R281). -/
def execRefreshWindowEnd (c : Nat) (s : State) : Host.Outcome State Fault Refusal :=
  act (decide (c < 2)) (refreshWindowEnd c) s

/-- Patrol scrub reads the burst at `addr`; `ce`: it was corrected, in device `dev`; `wrap`: the pass ends with it (R282). -/
def execPatrolScrub (c addr dev : Nat) (ce wrap : Bool) (s : State) : Host.Outcome State Fault Refusal :=
  act (decide (c < 2)) (patrolScrub c addr dev ce wrap) s

/-- An uncorrectable burst (R283, R284). -/
def execUncorrectableError (e : DdrErr) (s : State) : Host.Outcome State Fault Refusal :=
  act (decide (e.ch < 2)) (uncorrectable e) s

/-- ALERT_N of channel `c`: CA parity or write CRC; `same`: for the command or burst of the alert before; `sec`: the number of the second (R286). -/
def execDdrAlert (c : Nat) (wcrc same : Bool) (sec req addr : Nat) (s : State) : Host.Outcome State Fault Refusal :=
  act (decide (c < 2)) (ddrAlert c wcrc same sec req addr) s

/-- INKW_FREEZE is written with OP 1 and GO (R285). -/
def execFreezeResume (r : Req) (v : Nat) (s : State) : Host.Outcome State Fault Refusal :=
  act true (freezeWrite r 1 v) s

/-- INKW_FREEZE is written with OP 2 and GO (R285). -/
def execFreezeRetire (r : Req) (v : Nat) (s : State) : Host.Outcome State Fault Refusal :=
  act true (freezeWrite r 2 v) s

/-- INKW_FREEZE is written with OP 3 and GO (R285). -/
def execFreezeHardRepair (r : Req) (v : Nat) (s : State) : Host.Outcome State Fault Refusal :=
  act true (freezeWrite r 3 v) s

/-- FREEZE_S seconds have passed since a freeze (R285). -/
def execFreezeTimeout (s : State) : Host.Outcome State Fault Refusal :=
  act true freezeResume s

/-- 1 is written to INKW_CTRL.RT_GO (R287). -/
def execRtGo (r : Req) (v : Nat) (s : State) : Host.Outcome State Fault Refusal :=
  act true (regWrite r F.INKW_CTRL.RT_GO 1 v) s

/-- 1 is written to INKW_CTRL.HPPR_GO (R290). -/
def execHpprGo (r : Req) (v : Nat) (s : State) : Host.Outcome State Fault Refusal :=
  act true (regWrite r F.INKW_CTRL.HPPR_GO 1 v) s

/-- PERIOD_S seconds have passed since the last training of channel `c` (R287). -/
def execRetrainPeriod (c : Nat) (s : State) : Host.Outcome State Fault Refusal :=
  act (decide (c < 2)) (retrainPeriod c) s

/-- Retraining of channel `c` ends: 1 a setting found, with its eyes in ps and Vref, 2 the previous one kept, 3 neither (R288). -/
def execDdrRetrainDone (c result rd wr vref : Nat) (s : State) : Host.Outcome State Fault Refusal :=
  act (decide (c < 2) && decide (1 ≤ result) && decide (result ≤ 3)) (retrainEnd c result rd wr vref) s

/-- RT_MAX_MS has passed; `pass`: the previous settings still pass the check pattern (R288). -/
def execDdrRetrainTimeout (c : Nat) (pass : Bool) (s : State) : Host.Outcome State Fault Refusal :=
  act (decide (c < 2)) (retrainEnd c (if pass then 2 else 3) 0 0 0) s

/-- RETRY_S seconds have passed for the FAILED channel `c` (R288). -/
def execDdrRetryTimer (c : Nat) (s : State) : Host.Outcome State Fault Refusal :=
  act (decide (c < 2)) (retryFailedChannel c) s

/-- hPPR of a row of channel `c` completes; `src`: what the row was listed for (R290, R292). -/
def execHpprDone (c src : Nat) (s : State) : Host.Outcome State Fault Refusal :=
  act (decide (c < 2)) (hpprDone c src) s

/-- The copy of channel `c` ends (R274). -/
def execChannelCopyDone (c : Nat) (s : State) : Host.Outcome State Fault Refusal :=
  act (decide (c < 2)) (fun s => s |> copyDone c |> stageRecording) s

/-- Boot training of channel `c` passes (R376). -/
def execDdrTrainDone (c : Nat) (s : State) : Host.Outcome State Fault Refusal :=
  act (decide (c < 2)) (trainDone c) s

/-- A BAR2 read of up to 512 bytes; `bad`: uncorrectable wherever it could be served; `ce`: the channel on which a burst was corrected (R299). -/
def execBar2Read (ofs len : Nat) (bad : Bool) (ce : Option Nat) (s : State) : Host.Outcome State Fault Refusal :=
  act true (bar2Read ofs len bad ce) s

/-- A BAR2 write (R285). -/
def execBar2Write (ofs len v rid : Nat) (s : State) : Host.Outcome State Fault Refusal :=
  act true (bar2Write ofs len v rid) s

end Sys2Proof.Machine
end

