-- ==== Sys2Proof/Machine/CmdEvents.lean ====
section
/-!
DEFINITION. The meanings of the commands of events, the service life and the link tests: one definition for each row of the table.
-/

namespace Sys2Proof.Machine

/-- EVA serves source `n` (R384 to R387). -/
def execEvaSourceRise (n : Nat) (s : State) : Host.Outcome State Fault Refusal :=
  act (decide (n < 128)) (evaServe n) s

/-- VEC_GAP_US have passed since a message of vector `v` (R385). -/
def execVecGapExpiry (v : Nat) (s : State) : Host.Outcome State Fault Refusal :=
  act (decide (v < 32)) (gapEnd v) s

/-- EVA_PEND`j` is written (R384). -/
def execEvaPendClear (r : Req) (j m : Nat) (s : State) : Host.Outcome State Fault Refusal :=
  act (decide (j < 2)) (wideWrite r (regOff (F.EVA_PEND.PEND j)) m) s

/-- EVA_FORCE`j` is written (R388). -/
def execEvaForce (r : Req) (j m : Nat) (s : State) : Host.Outcome State Fault Refusal :=
  act (decide (j < 2)) (wideWrite r (regOff (F.EVA_FORCE.FORCE j)) m) s

/-- EVA_EN`j` or EVA_VEC`j` is written (R385). -/
def execEvaVecWrite (r : Req) (en : Bool) (j v : Nat) (s : State) : Host.Outcome State Fault Refusal :=
  act (if en then decide (j < 2) else decide (j < 16)) (wideWrite r (if en then regOff (F.EVA_EN.EN j) else regOff (F.EVA_VEC.VECTOR j 0)) v) s

/-- A second passes (R395). -/
def execMonSecond (s : State) : Host.Outcome State Fault Refusal :=
  act true monSecond s

/-- 1 is written to TEST_CFG.GO of instance `n` (R403). -/
def execTestGo (r : Req) (n v : Nat) (s : State) : Host.Outcome State Fault Refusal :=
  act (decide (n < 18)) (regWrite r (F.TEST_CFG.GO n) 1 v) s

/-- 1 is written to TEST_CFG.STOP of instance `n`; `bits` and `errs`: what its checker has compared and found since the last count (R402). -/
def execTestStop (r : Req) (n v bits errs : Nat) (s : State) : Host.Outcome State Fault Refusal :=
  act (decide (n < 18)) (fun s => s |> testCount n bits errs |> regWrite r (F.TEST_CFG.STOP n) 1 v) s

/-- 1 is written to TEST_CTRL.STOP_ALL (R409). -/
def execStopAll (r : Req) (v : Nat) (s : State) : Host.Outcome State Fault Refusal :=
  act true (regWrite r F.TEST_CTRL.STOP_ALL 1 v) s

/-- DURATION_MS of instance `n` have passed (R402). -/
def execTestDurationEnd (n bits errs : Nat) (s : State) : Host.Outcome State Fault Refusal :=
  act (decide (n < 18)) (fun s => s |> testCount n bits errs |> durationEnd n) s

/-- 1 is written to TEST_EYE.GO (R409). -/
def execEyeScanGo (r : Req) (v : Nat) (s : State) : Host.Outcome State Fault Refusal :=
  act true (regWrite r F.TEST_EYE.GO 1 v) s

/-- The dwell of an eye-scan point ends (R409). -/
def execEyeScanDone (mismatch : Nat) (s : State) : Host.Outcome State Fault Refusal :=
  act true (eyeDone mismatch) s

/-- A JTAG instruction is loaded, of code `ir` (R407). -/
def execJtagInstruction (ins : JtagIns) (ir : Nat) (s : State) : Host.Outcome State Fault Refusal :=
  act true (jtagLoad ins ir) s

/-- The checker of instance `n` has had 64 bits in a row without error (R402). -/
def execCheckerLock (n : Nat) (s : State) : Host.Outcome State Fault Refusal :=
  act (decide (n < 18)) (checkerLock n) s

/-- More than 32 of 256 bits of instance `n` were in error (R402). -/
def execCheckerLockLoss (n bits errs : Nat) (s : State) : Host.Outcome State Fault Refusal :=
  act (decide (n < 18)) (fun s => s |> testCount n bits errs |> checkerLoss n) s

/-- ERRORS of instance `n` has reached ERR_STOP (R402). -/
def execErrStop (n bits errs : Nat) (s : State) : Host.Outcome State Fault Refusal :=
  act (decide (n < 18)) (fun s => s |> testCount n bits errs |> errStop n) s

/-- The PCIe partner directs Loopback (R403). -/
def execLoopbackFollowerEntry (s : State) : Host.Outcome State Fault Refusal :=
  act true followerEntry s

/-- The PCIe partner ends Loopback (R408). -/
def execLoopbackFollowerExit (s : State) : Host.Outcome State Fault Refusal :=
  act true followerExit s

end Sys2Proof.Machine
end

