-- ==== Sys2Proof/Machine/CmdHost.lean ====
section
/-!
DEFINITION. The meanings of the commands of DMA, translation and PCI Express: one definition for each row of the table.
-/

namespace Sys2Proof.Machine

/-- DMA_TAILk is written (R302). -/
def execDmaTailWrite (r : Req) (k v : Nat) (s : State) : Host.Outcome State Fault Refusal :=
  act (decide (k < 32)) (wideWrite r (regOff (F.DMA_TAIL.TAIL k)) v) s

/-- The descriptor that ring `k` has asked for: its buffer, length and IRQ bit (R302). -/
def execDescriptorReadDone (k buf len : Nat) (irq : Bool) (s : State) : Host.Outcome State Fault Refusal :=
  act (decide (k < 32)) (descRead k buf len irq) s

/-- A frame that waits for ring `k` can be placed; `pre`: pre-emptions on its way (R303, R307). -/
def execRecordPlace (k pre : Nat) (s : State) : Host.Outcome State Fault Refusal :=
  act (decide (k < 32)) (recordPlace k pre) s

/-- CLOSE_US have passed since the first record of ring `k`'s open buffer (R303). -/
def execCloseUsExpiry (k : Nat) (s : State) : Host.Outcome State Fault Refusal :=
  act (decide (k < 32)) (closeUsExpiry k) s

/-- Every record of ring `k`'s head descriptor is written (R304). -/
def execDescriptorComplete (k : Nat) (s : State) : Host.Outcome State Fault Refusal :=
  act (decide (k < 32)) (descComplete k) s

/-- Word 0 of the entry of ring `k` is written with EN = 1 through DMA_RING (R301). -/
def execRingEnable (r : Req) (k v : Nat) (s : State) : Host.Outcome State Fault Refusal :=
  act (decide (k < 32)) (ringWindow r k (setBit v 72)) s

/-- Word 0 of the entry of ring `k` is written with EN = 0 through DMA_RING (R306). -/
def execRingDisable (r : Req) (k v : Nat) (s : State) : Host.Outcome State Fault Refusal :=
  act (decide (k < 32)) (ringWindow r k (clrBit v 72)) s

/-- The page-table entry that the walk has asked for, `ns` nanoseconds after the walk began (R309). -/
def execPageWalkRead (entry ns : Nat) (s : State) : Host.Outcome State Fault Refusal :=
  act true (pageWalkRead entry ns) s

/-- A walk has found no leaf, or a hub read of a site (1 page walk, 2 descriptor, 4 image) went without its data (R311). -/
def execDmaFault (bad : Option CplBad) (site ring rid : Nat) (s : State) : Host.Outcome State Fault Refusal :=
  act (decide (ring < 32)) (faultOf bad site ring rid) s

/-- DMA_RESUME is written with OP 1 and GO (R313). -/
def execResumeRetry (r : Req) (cls id : Nat) (s : State) : Host.Outcome State Fault Refusal :=
  act true (resumeWrite r 1 cls id) s

/-- DMA_RESUME is written with OP 2 and GO (R313). -/
def execResumeDrop (r : Req) (cls id : Nat) (s : State) : Host.Outcome State Fault Refusal :=
  act true (resumeWrite r 2 cls id) s

/-- PARK_MAX_MS have passed for class `c`, or 3 the image fetch (R314). -/
def execParkTimeout (c : Nat) (s : State) : Host.Outcome State Fault Refusal :=
  act (decide (c < 4)) (fun s => s |> parkTimeout c |> fetchLeft) s

/-- The data link goes down (R315). -/
def execPcieLinkDown (s : State) : Host.Outcome State Fault Refusal :=
  act true pcieLinkDown s

/-- The data link comes up at a rate and a width (R385). -/
def execPcieLinkUp (speed width : Nat) (s : State) : Host.Outcome State Fault Refusal :=
  act true (pcieLinkUp speed width) s

/-- A hot reset (R300). -/
def execPcieHotReset (s : State) : Host.Outcome State Fault Refusal :=
  act true hotReset s

/-- A function-level reset (R300). -/
def execPcieFlr (s : State) : Host.Outcome State Fault Refusal :=
  act true functionReset s

/-- The function enters D3hot (R315). -/
def execPcieD3hotEntry (s : State) : Host.Outcome State Fault Refusal :=
  act true d3Entry s

/-- Bus Master Enable is cleared (R315). -/
def execBmeClear (rid : Nat) (s : State) : Host.Outcome State Fault Refusal :=
  act true (bmeClear rid) s

/-- 1 is written to DMA_CTRL.RESUME (R315). -/
def execDmaLinkResume (r : Req) (v : Nat) (s : State) : Host.Outcome State Fault Refusal :=
  act true (regWrite r F.DMA_CTRL.RESUME 1 v) s

/-- 1 is written to ATU_INV.GO with SCOPE (R310). -/
def execAtuInvalidate (r : Req) (scope : Nat) (s : State) : Host.Outcome State Fault Refusal :=
  act true (regWrite r F.ATU_INV.GO 1 (2 * (scope % 4))) s

/-- The invalidation in progress ends (R310). -/
def execAtuInvalidateDone (s : State) : Host.Outcome State Fault Refusal :=
  act true atuInvDone s

/-- ATU_PROBE is written (R320). -/
def execAtuProbe (r : Req) (v : Nat) (s : State) : Host.Outcome State Fault Refusal :=
  act true (wideWrite r (regOff F.ATU_PROBE.IOVA) v) s

/-- ATU_CTRL.EN is written (R320). -/
def execAtuEnableChange (r : Req) (en : Bool) (s : State) : Host.Outcome State Fault Refusal :=
  act true (wideWrite r (regOff F.ATU_CTRL.EN) en.toNat) s

/-- 1 is written to DMA_IMG_CTRL.GO with LEN (R316). -/
def execImageFetchGo (r : Req) (len : Nat) (s : State) : Host.Outcome State Fault Refusal :=
  act true (regWrite r F.DMA_IMG_CTRL.GO 1 (len % 2 ^ 24)) s

/-- 1 is written to DMA_IMG_CTRL.ABORT (R316). -/
def execImageFetchAbort (r : Req) (v : Nat) (s : State) : Host.Outcome State Fault Refusal :=
  act true (regWrite r F.DMA_IMG_CTRL.ABORT 1 v) s

/-- Every byte of the image fetch has come (R316). -/
def execImageFetchDone (bytes : List Byte) (s : State) : Host.Outcome State Fault Refusal :=
  act true (imageFetchDone bytes) s

/-- A parked fetch has waited LOAD_MS (R372). -/
def execImageFetchParkTimeout (s : State) : Host.Outcome State Fault Refusal :=
  act true imageParkTimeout s

/-- A TLP that the hub drops, with the low bits of its requester's identity (R317). -/
def execPcieTlpViolation (bad : TlpBad) (rid : Nat) (s : State) : Host.Outcome State Fault Refusal :=
  act true (tlpViolation bad rid) s

/-- A hub read of a site has no completion in time (R317). -/
def execPcieCompletionTimeout (site ring rid : Nat) (s : State) : Host.Outcome State Fault Refusal :=
  act (decide (ring < 32)) (completionBad .timeout site ring rid) s

/-- 1 is written to PCIE_CTRL.RETRAIN (R321). -/
def execPcieRetrain (r : Req) (v : Nat) (s : State) : Host.Outcome State Fault Refusal :=
  act true (regWrite r F.PCIE_CTRL.RETRAIN 1 v) s

/-- The link passes through Recovery (R317). -/
def execPcieRecovery (rid : Nat) (s : State) : Host.Outcome State Fault Refusal :=
  act true (pcieRecovery rid) s

/-- The host unmasks a vector, or the function (R385). -/
def execMsixUnmask (vec : Option Nat) (s : State) : Host.Outcome State Fault Refusal :=
  act true (msixUnmask vec) s

/-- Bus Master Enable is set (R385). -/
def execBmeSet (s : State) : Host.Outcome State Fault Refusal :=
  act true bmeSet s

/-- PCIE_PERST_N asserts (R300). -/
def execConventionalReset (s : State) : Host.Outcome State Fault Refusal :=
  act true conventionalReset s

end Sys2Proof.Machine
end

