-- ==== Sys2Proof/Machine/CmdInkline.lean ====
section
/-!
DEFINITION. The meanings of the commands of Inkline: one definition for each row of the table.
-/

namespace Sys2Proof.Machine

/-- A MARK on lane `k`: its SN and HOLD, its phase against this hub's strike in 2⁻¹⁶ ns, and whether it is mistimed by more than one word (R165). -/
def execMarkReceive (k sn : Nat) (hold : Bool) (phase : Int) (mistimed : Bool) (s : State) : Host.Outcome State Fault Refusal :=
  act (decide (k < 4)) (markReceive k sn hold phase mistimed) s

/-- The MARK that lane `k` expects has not come, or has come out of sequence (R178). -/
def execMarkMissed (k : Nat) (came : Bool) (s : State) : Host.Outcome State Fault Refusal :=
  act (decide (k < 4)) (markBad k came) s

/-- An ACK word on lane `k` (R169). -/
def execAckReceive (k : Nat) (express : Bool) (seq : Nat) (nak : Bool) (s : State) : Host.Outcome State Fault Refusal :=
  act (decide (k < 4)) (ilkAck k express seq nak) s

/-- No ACK has come for a frame of lane `k` (R169). -/
def execAckTimeout (k : Nat) (express : Bool) (seq : Nat) (s : State) : Host.Outcome State Fault Refusal :=
  act (decide (k < 4)) (ilkResend k express seq) s

/-- A HELLO is due on lane `k` (R168). -/
def execHelloSend (k : Nat) (s : State) : Host.Outcome State Fault Refusal :=
  act (decide (k < 4)) (helloSend k) s

/-- A HELLO (R171). -/
def execHelloReceive (x : IlkRx) (h : Hello) (s : State) : Host.Outcome State Fault Refusal :=
  act (decide (x.lane < 4)) (ilkRecv x.lane false x.seq (helloUse x.lane h)) s

/-- A JOIN (R172). -/
def execJoinReceive (x : IlkRx) (j : Join) (s : State) : Host.Outcome State Fault Refusal :=
  act (decide (x.lane < 4)) (ilkRecv x.lane false x.seq (joinUse x.lane j)) s

/-- A JOIN_ACK for hub `hub` (R172). -/
def execJoinAckReceive (x : IlkRx) (hub result : Nat) (s : State) : Host.Outcome State Fault Refusal :=
  act (decide (x.lane < 4)) (ilkRecv x.lane false x.seq (fromUp x.lane (joinAckUse hub result))) s

/-- 2²⁰ strokes have passed since a refusal (R172). -/
def execJoinRetry (s : State) : Host.Outcome State Fault Refusal :=
  act true joinRetry s

/-- A DELAY is due on lane `k` (R168). -/
def execDelaySend (k : Nat) (s : State) : Host.Outcome State Fault Refusal :=
  act (decide (k < 4)) (delaySend k) s

/-- A DELAY: the parent's φ, CARRY, PATH and the stroke of the mark (R174). -/
def execDelayReceive (x : IlkRx) (phi carry : Int) (path strokeLo : Nat) (s : State) : Host.Outcome State Fault Refusal :=
  act (decide (x.lane < 4)) (ilkRecv x.lane false x.seq (delayUse x.lane phi carry path strokeLo)) s

/-- The stroke PLL has acquired the chosen lane's clock (R173). -/
def execIlkLockAcquired (s : State) : Host.Outcome State Fault Refusal :=
  act true lockAcquired s

/-- 2^AVG marks and a DELAY have been averaged (R173). -/
def execIlkMeasureDone (s : State) : Host.Outcome State Fault Refusal :=
  act true measureDone s

/-- 2^AVG strokes have passed in JOINED (R176). -/
def execPlacementUpdate (s : State) : Host.Outcome State Fault Refusal :=
  act true placementUpdate s

/-- 2^SLEW DCLK cycles have passed in a slew (R176). -/
def execSlewStep (cyc : Nat) (s : State) : Host.Outcome State Fault Refusal :=
  act true (slewStep cyc) s

/-- Lane `k` goes down (R178). -/
def execLaneDown (k : Nat) (s : State) : Host.Outcome State Fault Refusal :=
  act (decide (k < 4)) (laneDown k) s

/-- Lane `k` comes up (R171). -/
def execLaneUp (k : Nat) (s : State) : Host.Outcome State Fault Refusal :=
  act (decide (k < 4)) (laneComesUp k) s

/-- 1 is written to ILK_LCFG.RETRAIN of lane `k` (R189). -/
def execLaneRetrain (r : Req) (k v : Nat) (s : State) : Host.Outcome State Fault Refusal :=
  act (decide (k < 4)) (regWrite r (F.ILK_LCFG.RETRAIN k) 1 v) s

/-- PREF_LANE has been acceptable for 2²⁰ strokes (R180). -/
def execRevertTimer (s : State) : Host.Outcome State Fault Refusal :=
  act true revertTimer s

/-- A backup root has looked for a parent for WAIT_MS (R181). -/
def execBackupTakeover (s : State) : Host.Outcome State Fault Refusal :=
  act true backupTakeover s

/-- A TIME frame is due, for a stroke `ahead` strokes on (R183). -/
def execTimeSend (ahead : Nat) (s : State) : Host.Outcome State Fault Refusal :=
  act true (timeSend ahead) s

/-- A TIME frame (R183). -/
def execTimeReceive (x : IlkRx) (f : TimeFrame) (s : State) : Host.Outcome State Fault Refusal :=
  act (decide (x.lane < 4)) (ilkRecv x.lane true x.seq (fromChild x.lane (timeUse f))) s

/-- Two intervals have passed without a TIME frame (R183). -/
def execTimeFrameTimeout (s : State) : Host.Outcome State Fault Refusal :=
  act true timeTimeout s

/-- A BCAST at DCLK cycle `cyc` (R185). -/
def execBcastReceive (x : IlkRx) (b : Bcast) (cyc : Nat) (s : State) : Host.Outcome State Fault Refusal :=
  act (decide (x.lane < 4)) (bcastReceive x b cyc) s

/-- A TRIG frame (R184). -/
def execTrigReceive (x : IlkRx) (f : TrigFrame) (s : State) : Host.Outcome State Fault Refusal :=
  act (decide (x.lane < 4)) (ilkRecv x.lane true x.seq (trigUse x.lane f)) s

/-- A TEST frame with its payload (R404). -/
def execTestFrameReceive (x : IlkRx) (crcOk : Bool) (words : List Nat) (s : State) : Host.Outcome State Fault Refusal :=
  act (decide (x.lane < 4)) (testFrameReceive x.lane x.seq crcOk words) s

/-- Four strokes have passed since the last TEST frame of lane `k` (R404). -/
def execTestFrameSend (k : Nat) (s : State) : Host.Outcome State Fault Refusal :=
  act (decide (k < 4)) (testFrameSend k) s

/-- A code violation on lane `k` in its span number `span` of 2²⁰ words; `idle`: 256 words without an IDLE (R186). -/
def execCodeViolation (k span : Nat) (idle : Bool) (s : State) : Host.Outcome State Fault Refusal :=
  act (decide (k < 4)) (codeViolation k span idle) s

/-- A frame on lane `k` that fails its CRC (1), its length (2) or its TYPE (3) (R169). -/
def execCrcFailure (k : Nat) (express : Bool) (seq reason : Nat) (s : State) : Host.Outcome State Fault Refusal :=
  act (decide (k < 4) && decide (1 ≤ reason) && decide (reason ≤ 3)) (ilkBadFrame k express seq reason) s

end Sys2Proof.Machine
end

