-- ==== Sys2Proof/Machine/CmdLamps.lean ====
section
/-!
DEFINITION. The meanings of the commands of the lamp drive unit: one definition for each row of the table.
-/

namespace Sys2Proof.Machine

/-- 1 is written to LDU_PTURN_CTRL.ARM with PAGE and DOMAIN (R332). -/
def execLduPturnArm (r : Req) (v : Nat) (s : State) : Host.Outcome State Fault Refusal :=
  act true (regWrite r F.LDU_PTURN_CTRL.ARM 1 v) s

/-- The drives of line slot `l` are computed; `turn`: it is the first slot after the armed turn (R326). -/
def execLduSlotCompute (l : Nat) (turn : Bool) (s : State) : Host.Outcome State Fault Refusal :=
  act (decide (l < 8)) (slotCompute l turn) s

/-- Line slot `l` starts (R325). -/
def execLduSlotStart (l : Nat) (s : State) : Host.Outcome State Fault Refusal :=
  act (decide (l < 8)) (lduSlotStart l) s

/-- The on-time of string `n` ends (R328). -/
def execLduOnTimeEnd (n : Nat) (s : State) : Host.Outcome State Fault Refusal :=
  act (decide (n < 16)) (onTimeEnd n) s

/-- LCLK cycle 192 of an on-time of string `n`: the sense code, VS in mV, and whether the current is in regulation (R334). -/
def execLduObserve (n code v : Nat) (reg : Bool) (s : State) : Host.Outcome State Fault Refusal :=
  act (decide (n < 16)) (lduObserve n code v reg) s

/-- OCP of string `n` in 8 switching cycles in a row (R334). -/
def execOvercurrent (n : Nat) (s : State) : Host.Outcome State Fault Refusal :=
  act (decide (n < 16)) (lduOvercurrent n) s

/-- RETRY_S have passed since the fault of cell `e` (R334). -/
def execCellRetry (e : Nat) (s : State) : Host.Outcome State Fault Refusal :=
  act (decide (e < 256)) (cellRetry e) s

/-- STARVE_S have passed without a judgeable on-time of cell `e` (R336). -/
def execStarveTimeout (e : Nat) (s : State) : Host.Outcome State Fault Refusal :=
  act (decide (e < 256)) (starveTimeout e) s

/-- A diagnostic pulse of cell `e`, with its observation (R337). -/
def execDiagPulse (e code v : Nat) (reg : Bool) (s : State) : Host.Outcome State Fault Refusal :=
  act (decide (e < 256)) (diagPulse e code v reg) s

/-- TIN_STALE_S have passed without a result of temperature input `k` (R329). -/
def execTinStaleTimeout (k : Nat) (s : State) : Host.Outcome State Fault Refusal :=
  act (decide (k < 16)) (tinTimeout k) s

/-- 1 is written to LDU_SCTL.CLEAR of string `n` (R334). -/
def execStringClear (r : Req) (n v : Nat) (s : State) : Host.Outcome State Fault Refusal :=
  act (decide (n < 16)) (wideWrite r (lduString n) (setBit v 2)) s

/-- LDU_CTRL.RET_GO is written for string `n` (R335). -/
def execStringRetireHost (r : Req) (n key : Nat) (s : State) : Host.Outcome State Fault Refusal :=
  act (decide (n < 16)) (lduRetire r n key) s

end Sys2Proof.Machine
end

