-- ==== Sys2Proof/Machine/CmdLoading.lean ====
section
/-!
DEFINITION. The meanings of the commands of boot and the image store: one definition for each row of the table.
-/

namespace Sys2Proof.Machine

/-- SELFTEST of a half ends; `bad`: the ROM's CRC fails (R367). -/
def execBootSelftestDone (h : Side) (bad : Bool) (s : State) : Host.Outcome State Fault Refusal :=
  act true (selftestDone (sideIdx h) bad) s

/-- A half has read the wear ledger (R89). -/
def execBootLedgerDone (h : Side) (s : State) : Host.Outcome State Fault Refusal :=
  act true (bootLedger (sideIdx h)) s

/-- VERIFY of a half ends; `parity`: a word of the store failed its parity (R371). -/
def execBootVerifyDone (h : Side) (parity : Bool) (s : State) : Host.Outcome State Fault Refusal :=
  act true (verifyDone (sideIdx h) parity) s

/-- APPLY ends (R376). -/
def execBootApplyDone (h : Side) (parity : Bool) (s : State) : Host.Outcome State Fault Refusal :=
  actIn keepApply true (applyDone (sideIdx h) parity) s

/-- LOAD of a half ends (R367). -/
def execBootLoadDone (h : Side) (cyc : Nat) (parity : Bool) (s : State) : Host.Outcome State Fault Refusal :=
  act true (loadDone (sideIdx h) cyc parity) s

/-- Bytes are written to the image store by BAR4 or SYS_IMGW (R372). -/
def execImageWindowWrite (w : ImgBy) (s : State) : Host.Outcome State Fault Refusal :=
  act true (imageBy w) s

/-- 1 is written to SYS_IMG_CTRL.SEAL (R372). -/
def execImageSeal (r : Req) (v : Nat) (s : State) : Host.Outcome State Fault Refusal :=
  act true (regWrite r F.SYS_IMG_CTRL.SEAL 1 v) s

/-- 1 is written to SYS_IMG_CTRL.OPEN (R372). -/
def execImageOpen (r : Req) (v : Nat) (s : State) : Host.Outcome State Fault Refusal :=
  act true (regWrite r F.SYS_IMG_CTRL.OPEN 1 v) s

/-- A second of link search ends; `ports` has a bit per port with block lock (R375). -/
def execEbootSpeedTry (ports : Nat) (s : State) : Host.Outcome State Fault Refusal :=
  act true (ebootTry ports) s

/-- A second of soliciting has passed (R375). -/
def execEbootSolicit (s : State) : Host.Outcome State Fault Refusal :=
  act true ebootSolicit s

/-- An OFFER of an image of `len` bytes (R375). -/
def execEbootOffer (f : BootFrom) (x : EthRx) (xid len : Nat) (s : State) : Host.Outcome State Fault Refusal :=
  act (decide (f.eth < 4)) (fun s => s |> ethIn f.eth x |> ebootOffer f xid len) s

/-- A DATA message (R375). -/
def execEbootData (f : BootFrom) (x : EthRx) (xid ofs : Nat) (bytes : List Byte) (s : State) : Host.Outcome State Fault Refusal :=
  act (decide (f.eth < 4)) (fun s => s |> ethIn f.eth x |> ebootData f xid ofs bytes) s

/-- 10 ms have passed since the READ of offset `ofs` (R375). -/
def execEbootReadTimeout (ofs : Nat) (s : State) : Host.Outcome State Fault Refusal :=
  act true (ebootTimeout ofs) s

end Sys2Proof.Machine
end

