-- ==== Sys2Proof/Machine/CmdPens.lean ====
section
/-!
DEFINITION. The meanings of the commands of the pen arbiter and the start of slots: one definition for each row of the table.
-/

namespace Sys2Proof.Machine

/-- An arbitration window ends on DCLK cycle `cyc` after the latest strike (R345). -/
def execArbitrationWindow (cyc : Nat) (s : State) : Host.Outcome State Fault Refusal :=
  act true (fun s => penWindow (s.strikeDclk + cyc) s) s

/-- HB_TIMEOUT_US have passed without a toggle of the holder's heartbeat (R346). -/
def execHeartbeatTimeout (cyc : Nat) (s : State) : Host.Outcome State Fault Refusal :=
  act true (fun s => heartbeatTimeout (s.strikeDclk + cyc) s) s

/-- The arbiter copies are found as given (R348). -/
def execPenCopyDisagree (a b c : PenCopy) (s : State) : Host.Outcome State Fault Refusal :=
  act true (penCompare a b c) s

/-- PEN_UNLOCK is written with KEY 0x3C5A and GO 0 (R350). -/
def execPenUnlockKey (r : Req) (who : Nat) (s : State) : Host.Outcome State Fault Refusal :=
  act true (unlockWord r 0x3C5A who 0) s

/-- PEN_UNLOCK is written with GO (R350). -/
def execPenUnlockGo (r : Req) (key who : Nat) (s : State) : Host.Outcome State Fault Refusal :=
  act true (unlockWord r key who 1) s

/-- PEN_XFER is written with TO and GO (R358). -/
def execPenXferArm (r : Req) (who : Nat) (s : State) : Host.Outcome State Fault Refusal :=
  act true (wideWrite r (regOff F.PEN_XFER.GO) (4 + who % 4)) s

/-- PEN_XFER is written with TO = 0 and GO (R358). -/
def execPenXferDisarm (r : Req) (s : State) : Host.Outcome State Fault Refusal :=
  act true (wideWrite r (regOff F.PEN_XFER.GO) 4) s

/-- A half's scribe starts its next slot; `bad`: the entry word fails its parity (R352). -/
def execSlotStart (h : Side) (bad : Bool) (s : State) : Host.Outcome State Fault Refusal :=
  act true (slotStart (sideIdx h) bad) s

/-- TIMER_US have passed on a half (R351). -/
def execScribeTimer (h : Side) (s : State) : Host.Outcome State Fault Refusal :=
  act true (scribeTimer (sideIdx h)) s

end Sys2Proof.Machine
end

