-- ==== Sys2Proof/Machine/CmdPower.lean ====
section
/-!
DEFINITION. The meanings of the commands of power, reset and the stroke PLL: one definition for each row of the table.
-/

namespace Sys2Proof.Machine

/-- PORST_N is pulled low for 10 µs or longer: the whole hub is reset and stays so until its release (R365). -/
def execPorstNAssert (s : State) : Host.Outcome State Fault Refusal :=
  .next (porstReset 1 0 s)

/-- PORST_N is released with the strap BOOT_NET as given (R366). -/
def execPorstNRelease (bootNet : Bool) (s : State) : Host.Outcome State Fault Refusal :=
  .next (keepRelease s (porstRelease bootNet s))

/-- A rail stays below 90 % of nominal for 1 µs with PORST_N high; `rails` has a bit per rail that fell (R365). -/
def execBrownoutReset (rails : Nat) (s : State) : Host.Outcome State Fault Refusal :=
  .next (if s.boot.held then s else porstReset 2 rails s)

/-- The stroke PLL locks, `us` microseconds after the release of PORST_N (R376). -/
def execPllLock (us : Nat) (s : State) : Host.Outcome State Fault Refusal :=
  act true (pllLock us) s

/-- REFIN is lost (R417). -/
def execRefinLoss (s : State) : Host.Outcome State Fault Refusal :=
  act true refinLoss s

/-- A valid REFIN returns (R417). -/
def execRefinReturn (s : State) : Host.Outcome State Fault Refusal :=
  act true refinReturn s

end Sys2Proof.Machine
end

