-- ==== Sys2Proof/Machine/CmdQueues.lean ====
section
/-!
DEFINITION. The meanings of the commands of the hardware queues: one definition for each row of the table.
-/

namespace Sys2Proof.Machine

/-- QUE_q_DATA of queue `q` is read; `bad`: the head word fails its parity (R256). -/
def execQuePop (r : Req) (q : Nat) (bad : Bool) (s : State) : Host.Outcome State Fault Refusal :=
  act (decide (q < 7)) (wideRead r (regOff (F.QUE_q_DATA.DATA q)) bad) s

/-- QUE_q_DATA_END of queue `q` is read (R256). -/
def execQuePeek (r : Req) (q : Nat) (s : State) : Host.Outcome State Fault Refusal :=
  act (decide (q < 7)) (wideRead r (regOff (F.QUE_q_DATA_END.DATA q)) false) s

/-- CMDQ's DATA is written (R249). -/
def execCmdqPush (r : Req) (v : Nat) (s : State) : Host.Outcome State Fault Refusal :=
  act true (wideWrite r (regOff (F.QUE_q_DATA.DATA qCMD)) v) s

/-- CMDQ's DATA_END is written (R250). -/
def execCmdqPushEnd (r : Req) (v : Nat) (s : State) : Host.Outcome State Fault Refusal :=
  act true (wideWrite r (regOff (F.QUE_q_DATA_END.DATA qCMD)) v) s

/-- 1 is written to FLUSH of queue `q` (R259). -/
def execQueFlush (r : Req) (q : Nat) (s : State) : Host.Outcome State Fault Refusal :=
  act (decide (q < 7)) (wideWrite r (regOff (F.QUE_q_CTRL.FLUSH q)) 1) s

/-- QUE_CTRL is written: bit q flushes queue `q` (R259). -/
def execQueFlushAll (r : Req) (m : Nat) (s : State) : Host.Outcome State Fault Refusal :=
  act true (wideWrite r (regOff F.QUE_CTRL.FLUSH_ALL) m) s

/-- The executor reaches a NOP (R254). -/
def execCmdqNop (s : State) : Host.Outcome State Fault Refusal :=
  act true cmdNop s

/-- The executor reaches a REPLAY (R254). -/
def execCmdqReplay (s : State) : Host.Outcome State Fault Refusal :=
  act true cmdReplay s

/-- The executor reaches a CANCEL (R254). -/
def execCmdqCancel (s : State) : Host.Outcome State Fault Refusal :=
  act true cmdCancel s

/-- The executor reaches a STATUS (R254). -/
def execCmdqStatus (s : State) : Host.Outcome State Fault Refusal :=
  act true cmdStatus s

/-- The executor reaches an item that is no command; `blot`: a word of it failed its parity (R254). -/
def execCmdqInvalid (blot : Bool) (s : State) : Host.Outcome State Fault Refusal :=
  act true (cmdInvalid blot) s

end Sys2Proof.Machine
end

