-- ==== Sys2Proof/Machine/CmdRecord.lean ====
section
/-!
DEFINITION. The meanings of the commands of triggers, captures, Ductus and Ethernet: one definition for each row of the table.
-/

namespace Sys2Proof.Machine

/-- TRG_ARM is written: bit n arms unit n (R194). -/
def execTrgArm (r : Req) (v : Nat) (s : State) : Host.Outcome State Fault Refusal :=
  act true (wideWrite r (regOff F.TRG_ARM.ARM) v) s

/-- TRG_DISARM is written (R194). -/
def execTrgDisarm (r : Req) (v : Nat) (s : State) : Host.Outcome State Fault Refusal :=
  act true (wideWrite r (regOff F.TRG_DISARM.DISARM) v) s

/-- 1 is written to CAP_RELEASE.GO with SLOT (R208). -/
def execCapRelease (r : Req) (slot : Nat) (s : State) : Host.Outcome State Fault Refusal :=
  act (decide (slot < 16)) (regWrite r F.CAP_RELEASE.GO 1 slot) s

/-- A SUBSCRIBE (R238). -/
def execSubscribe (q : DucReq) (x : EthRx) (cyc : Nat) (s : State) : Host.Outcome State Fault Refusal :=
  act (decide (q.eth < 4)) (ducIn q x (ducSubscribe q cyc)) s

/-- An UNSUBSCRIBE (R238). -/
def execUnsubscribe (q : DucReq) (x : EthRx) (cyc : Nat) (s : State) : Host.Outcome State Fault Refusal :=
  act (decide (q.eth < 4)) (ducIn q x (ducUnsubscribe q cyc)) s

/-- A KEEPALIVE (R238). -/
def execKeepalive (q : DucReq) (x : EthRx) (s : State) : Host.Outcome State Fault Refusal :=
  act (decide (q.eth < 4)) (ducIn q x (ducKeepalive q)) s

/-- A REPLAY of strokes ARG0 to ARG1 (R239). -/
def execReplay (q : DucReq) (x : EthRx) (s : State) : Host.Outcome State Fault Refusal :=
  act (decide (q.eth < 4)) (ducIn q x (ducReplay q)) s

/-- A CANCEL of the replay ARG0 (R240). -/
def execCancel (q : DucReq) (x : EthRx) (s : State) : Host.Outcome State Fault Refusal :=
  act (decide (q.eth < 4)) (ducIn q x (ducCancel q)) s

/-- A STATUS (R236). -/
def execStatus (q : DucReq) (x : EthRx) (s : State) : Host.Outcome State Fault Refusal :=
  act (decide (q.eth < 4)) (ducIn q x (ducStatus q)) s

/-- A request that R236 does not lay out, or that fails authentication or the rate (R243). -/
def execDuctusMalformed (q : DucReq) (x : EthRx) (op : Nat) (s : State) : Host.Outcome State Fault Refusal :=
  act (decide (q.eth < 4)) (ducIn q x (ducMalformed q op)) s

/-- The stroke of a binding or unbinding of session `n` (R238). -/
def execSessionBindApply (n : Nat) (s : State) : Host.Outcome State Fault Refusal :=
  act (decide (n < 256)) (bindApply n) s

/-- LEASE_S seconds have passed since the last request of session `n`'s subscriber (R238). -/
def execLeaseExpiry (n cyc : Nat) (s : State) : Host.Outcome State Fault Refusal :=
  act (decide (n < 256)) (leaseExpiry n cyc) s

/-- An active slot is free for the first queued replay of session `n` (R240). -/
def execReplayStart (n : Nat) (s : State) : Host.Outcome State Fault Refusal :=
  act (decide (n < 256)) (replayStart n) s

/-- The active replay of session `n` has sent its last item (R239). -/
def execReplayComplete (n : Nat) (s : State) : Host.Outcome State Fault Refusal :=
  act (decide (n < 256)) (replayComplete n) s

/-- Copy `k` of session `n`, which is behind, can be served (R241). -/
def execCopyCatchup (n k : Nat) (s : State) : Host.Outcome State Fault Refusal :=
  act (decide (n < 256) && decide (k < 2)) (copyCatchup n k) s

/-- The oldest item of the open frame of copy `k` of session `n` has waited MAXWAIT (R224). -/
def execMaxwaitExpiry (n k : Nat) (s : State) : Host.Outcome State Fault Refusal :=
  act (decide (n < 256) && decide (k < 2)) (maxwaitExpiry n k) s

/-- PERIOD_MS of stamps have passed for a tap in a stream (R151). -/
def execAnchorPeriod (n k chan tap : Nat) (s : State) : Host.Outcome State Fault Refusal :=
  act (decide (n < 256) && decide (k < 2)) (anchorPeriod n k chan tap) s

/-- PERIOD_MS have passed for coarse session `n` (R228). -/
def execMapFramePeriod (n : Nat) (s : State) : Host.Outcome State Fault Refusal :=
  act (decide (n < 256)) (mapPeriod n) s

/-- A frame that port `p` drops, from a source MAC address; `sess`: byte 1 of its payload (R243). -/
def execEthRxViolation (p : Nat) (bad : EthBad) (mac sess : Nat) (s : State) : Host.Outcome State Fault Refusal :=
  act (decide (p < 4)) (rxViolation p bad mac sess) s

/-- The link of port `p` goes down (0), trains (1) or is up (2) (R231). -/
def execEthLinkChange (p v : Nat) (fec : Bool) (s : State) : Host.Outcome State Fault Refusal :=
  act (decide (p < 4) && decide (v < 3)) (linkChange p v fec) s

/-- Port `p` loses block lock, or its bit error rate is high (R243). -/
def execPcsLockLoss (p : Nat) (hiBer : Bool) (errs : Nat) (s : State) : Host.Outcome State Fault Refusal :=
  act (decide (p < 4)) (pcsLoss p hiBer errs) s

/-- 802.3br verification of port `p` fails or lapses (R235). -/
def execPreemptVerifyFail (p : Nat) (s : State) : Host.Outcome State Fault Refusal :=
  act (decide (p < 4)) (verifyFail p) s

/-- 802.3br verification of port `p` succeeds (R235). -/
def execPreemptVerifyOk (p : Nat) (s : State) : Host.Outcome State Fault Refusal :=
  act (decide (p < 4)) (verifyOk p) s

/-- An ARP or neighbour message on port `p` (R231). -/
def execArpReceive (p : Nat) (m : ArpMsg) (x : EthRx) (s : State) : Host.Outcome State Fault Refusal :=
  act (decide (p < 4)) (fun s => s |> ethIn p x |> arpReceive p m) s

/-- A next hop has not answered for ARP_RETRY_S (R246). -/
def execArpRetry (p : Nat) (ipv6 : Bool) (addr : Nat) (s : State) : Host.Outcome State Fault Refusal :=
  act (decide (p < 4)) (arpRetry p ipv6 addr) s

/-- A resolved next hop is ARP_AGE_S old (R246). -/
def execArpAgeExpiry (ipv6 : Bool) (addr : Nat) (s : State) : Host.Outcome State Fault Refusal :=
  act true (arpAge ipv6 addr) s

end Sys2Proof.Machine
end

