-- ==== Sys2Proof/Machine/CmdScribes.lean ====
section
/-!
DEFINITION. The meanings of the commands of the scribes and their halves: one definition for each row of the table.
-/

namespace Sys2Proof.Machine

/-- The scribe carries out NOP (R353). -/
def execScrNop (a : ScrAt) (s : State) : Host.Outcome State Fault Refusal :=
  act true (scrDo 0x00 a scrNop) s

/-- The scribe carries out END (R353). -/
def execScrEnd (a : ScrAt) (s : State) : Host.Outcome State Fault Refusal :=
  act true (scrDo 0x01 a scrEnd) s

/-- The scribe carries out JMP (R353). -/
def execScrJmp (a : ScrAt) (s : State) : Host.Outcome State Fault Refusal :=
  act true (scrDo 0x02 a scrJmp) s

/-- The scribe carries out JCC (R353). -/
def execScrJcc (a : ScrAt) (s : State) : Host.Outcome State Fault Refusal :=
  act true (scrDo 0x03 a scrJcc) s

/-- The scribe carries out CALL (R353). -/
def execScrCall (a : ScrAt) (s : State) : Host.Outcome State Fault Refusal :=
  act true (scrDo 0x04 a scrCall) s

/-- The scribe carries out RET (R353). -/
def execScrRet (a : ScrAt) (s : State) : Host.Outcome State Fault Refusal :=
  act true (scrDo 0x05 a scrRet) s

/-- The scribe carries out LDI (R353). -/
def execScrLdi (a : ScrAt) (s : State) : Host.Outcome State Fault Refusal :=
  act true (scrDo 0x06 a scrLdi) s

/-- The scribe carries out LDIH (R353). -/
def execScrLdih (a : ScrAt) (s : State) : Host.Outcome State Fault Refusal :=
  act true (scrDo 0x07 a scrLdih) s

/-- The scribe carries out ALU (R353). -/
def execScrAlu (a : ScrAt) (s : State) : Host.Outcome State Fault Refusal :=
  act true (scrDo 0x08 a scrAlu) s

/-- The scribe carries out ADDI (R353). -/
def execScrAddi (a : ScrAt) (s : State) : Host.Outcome State Fault Refusal :=
  act true (scrDo 0x09 a scrAddi) s

/-- The scribe carries out RD (R353). -/
def execScrRd (a : ScrAt) (s : State) : Host.Outcome State Fault Refusal :=
  act true (scrDo 0x10 a (scrRd a)) s

/-- The scribe carries out WR (R353). -/
def execScrWr (a : ScrAt) (s : State) : Host.Outcome State Fault Refusal :=
  act true (scrDo 0x11 a (scrWr a)) s

/-- The scribe carries out WRI (R353). -/
def execScrWri (a : ScrAt) (s : State) : Host.Outcome State Fault Refusal :=
  act true (scrDo 0x12 a (scrWri a)) s

/-- The scribe carries out RMW (R353). -/
def execScrRmw (a : ScrAt) (s : State) : Host.Outcome State Fault Refusal :=
  act true (scrDo 0x13 a (scrRmw a)) s

/-- The scribe carries out the first read of POLL (R353). -/
def execScrPoll (a : ScrAt) (s : State) : Host.Outcome State Fault Refusal :=
  act true (scrDo 0x14 a (scrPoll a)) s

/-- The scribe carries out LDM (R353). -/
def execScrLdm (a : ScrAt) (s : State) : Host.Outcome State Fault Refusal :=
  act true (scrDo 0x18 a scrLdm) s

/-- The scribe carries out STM (R353). -/
def execScrStm (a : ScrAt) (s : State) : Host.Outcome State Fault Refusal :=
  act true (scrDo 0x19 a scrStm) s

/-- The scribe carries out LDX (R353). -/
def execScrLdx (a : ScrAt) (s : State) : Host.Outcome State Fault Refusal :=
  act true (scrDo 0x1A a scrLdx) s

/-- The scribe carries out STX (R353). -/
def execScrStx (a : ScrAt) (s : State) : Host.Outcome State Fault Refusal :=
  act true (scrDo 0x1B a scrStx) s

/-- The scribe carries out WAITS (R353). -/
def execScrWaits (a : ScrAt) (s : State) : Host.Outcome State Fault Refusal :=
  act true (scrDo 0x20 a scrWaits) s

/-- The stroke mirror has reached the value that a WAITS waits for (R353). -/
def execScrWaitsDone (h : Side) (s : State) : Host.Outcome State Fault Refusal :=
  act true (waitsDone (sideIdx h)) s

/-- The scribe carries out WAITT (R353). -/
def execScrWaitt (a : ScrAt) (s : State) : Host.Outcome State Fault Refusal :=
  act true (scrDo 0x21 a scrWaitt) s

/-- The MCLK cycles of a WAITT have passed (R353). -/
def execScrWaittDone (h : Side) (s : State) : Host.Outcome State Fault Refusal :=
  act true (waittDone (sideIdx h)) s

/-- The scribe carries out WAITE (R353). -/
def execScrWaite (a : ScrAt) (s : State) : Host.Outcome State Fault Refusal :=
  act true (scrDo 0x22 a scrWaite) s

/-- The source of a WAITE is up, or its limit has passed (R353). -/
def execScrWaiteDone (h : Side) (s : State) : Host.Outcome State Fault Refusal :=
  act true (waiteDone (sideIdx h)) s

/-- The scribe carries out MBXS (R353). -/
def execScrMbxs (a : ScrAt) (s : State) : Host.Outcome State Fault Refusal :=
  act true (scrDo 0x28 a scrMbxs) s

/-- The scribe carries out MBXG (R353). -/
def execScrMbxg (a : ScrAt) (s : State) : Host.Outcome State Fault Refusal :=
  act true (scrDo 0x29 a scrMbxg) s

/-- The scribe carries out HBEAT (R353). -/
def execScrHbeat (a : ScrAt) (s : State) : Host.Outcome State Fault Refusal :=
  act true (scrDo 0x30 a (scrHbeat a)) s

/-- The scribe carries out CLAIM (R353). -/
def execScrClaim (a : ScrAt) (s : State) : Host.Outcome State Fault Refusal :=
  act true (scrDo 0x31 a scrClaim) s

/-- The scribe carries out RELEASE (R353). -/
def execScrRelease (a : ScrAt) (s : State) : Host.Outcome State Fault Refusal :=
  act true (scrDo 0x32 a scrRelease) s

/-- The scribe carries out EVT (R353). -/
def execScrEvt (a : ScrAt) (s : State) : Host.Outcome State Fault Refusal :=
  act true (scrDo 0x33 a scrEvt) s

/-- The scribe carries out FAULT, or meets an undefined OP (R353, R355). -/
def execScrFault (a : ScrAt) (s : State) : Host.Outcome State Fault Refusal :=
  act true (scrWhere (fun op => op == 0x34 || !opDefined op) a scrFault) s

/-- The scribe carries out HALT (R353). -/
def execScrHalt (a : ScrAt) (s : State) : Host.Outcome State Fault Refusal :=
  act true (scrDo 0x3F a scrHalt) s

/-- WD_MS have passed on a half without HBEAT (R356). -/
def execWatchdogExpiry (h : Side) (cyc : Nat) (s : State) : Host.Outcome State Fault Refusal :=
  act true (fun s => watchdogExpiry (sideIdx h) (s.strikeDclk + cyc) s) s

/-- 1 is written to SCRx_CTRL.BOOT (R356). -/
def execHalfBoot (r : Req) (h : Side) (v : Nat) (s : State) : Host.Outcome State Fault Refusal :=
  act true (regWrite r (sf (sideIdx h) F.SCRR_CTRL.BOOT) 1 v) s

/-- SCRx_MBIN_DATA is written (R357). -/
def execMbinPush (r : Req) (h : Side) (v : Nat) (s : State) : Host.Outcome State Fault Refusal :=
  act true (wideWrite r (regOff (sf (sideIdx h) F.SCRR_MBIN_DATA.DATA)) v) s

/-- 1 is written to SCRx_MBIN_CTRL.SEND (R357). -/
def execMbinSend (r : Req) (h : Side) (s : State) : Host.Outcome State Fault Refusal :=
  act true (wideWrite r (regOff (sf (sideIdx h) F.SCRR_MBIN_CTRL.SEND)) (2 ^ 8)) s

/-- 1 is written to SCRx_MBIN_CTRL.CLEAR (R357). -/
def execMbinClear (r : Req) (h : Side) (s : State) : Host.Outcome State Fault Refusal :=
  act true (wideWrite r (regOff (sf (sideIdx h) F.SCRR_MBIN_CTRL.CLEAR)) (2 ^ 10)) s

/-- A POLL ends after `n` further reads, or by POLL_US (R353). -/
def execScrPollDone (n : Nat) (a : ScrAt) (s : State) : Host.Outcome State Fault Refusal :=
  act true (pollDone n a) s

end Sys2Proof.Machine
end

