-- ==== Sys2Proof/Machine/CmdStroke.lean ====
section
/-!
DEFINITION. The meanings of the commands of the strike and what follows it within the stroke: one definition for each row of the table.
-/

namespace Sys2Proof.Machine

/-- The strike: every track-and-hold closes and the next stroke begins (R45). -/
def execStrike (e : StrikeEnv) (s : State) : Host.Outcome State Fault Refusal :=
  actIn keepStrike true (strike e) s

/-- The sensor line of AC channel `c` has stood at `mV` outside its window for 4 µs (R56). -/
def execAcOpenTrip (c mV : Nat) (s : State) : Host.Outcome State Fault Refusal :=
  act (decide (c < 512)) (acOpenTrip c mV) s

/-- Channel `c` has been inside its window for 16 strikes in a row (R56). -/
def execOpenClear (c : Nat) (s : State) : Host.Outcome State Fault Refusal :=
  act (decide (c < 512)) (openClear c) s

/-- The acquisition window opens, 16 DCLK cycles before a strike (R45, R54, R100). -/
def execAcquisitionWindow (s : State) : Host.Outcome State Fault Refusal :=
  act true acquisitionWindow s

/-- The last 64 DCLK cycles before the armed commit of set `k` begin (R39). -/
def execCommitSeal (k : Nat) (s : State) : Host.Outcome State Fault Refusal :=
  act (decide (k < 8)) (sealSet k) s

/-- Nib `nib` ends slot `k` of the stroke with the decisions `d` (22 bits, the first on top); `rdo`: they left the redundancy range; `parity`: its weights failed their parity; `uv`: VREFG in µV of the group concerned, held on the same strike (R48, R79, R84). -/
def execConversionEnd (nib k d : Nat) (rdo parity : Bool) (uv : Nat) (s : State) : Host.Outcome State Fault Refusal :=
  act (decide (nib < 72)) (conversionEnd nib k d rdo parity uv) s

/-- DCLK cycle 32 + 32R: the coarse stroke frames leave (R229). -/
def execStrokeFrameLaunch (s : State) : Host.Outcome State Fault Refusal :=
  act true strokeFrames s

/-- The mean of 2^AVG conversions of a DX channel is in, and the trigger units have compared it on cycle `cyc` (R93). -/
def execDxResult (cyc : Nat) (s : State) : Host.Outcome State Fault Refusal :=
  act true (dxResult cyc) s

/-- DCLK cycle 64 of the next stroke: the oldest stroke not closed is closed; `full`: the DDR4 channels whose queue cannot take it, `held`: the Ethernet ports whose fine queue is full (R199, R274). -/
def execStrokeClosure (full held : List Nat) (s : State) : Host.Outcome State Fault Refusal :=
  act true (strokeClosure full held) s

end Sys2Proof.Machine
end

