-- ==== Sys2Proof/Machine/CmdTime.lean ====
section
/-!
DEFINITION. The meanings of the commands of time: PTP, the TSU, the bridge and the time outputs: one definition for each row of the table.
-/

namespace Sys2Proof.Machine

/-- A PTP Sync, with its originTimestamp `t1` in 2⁻¹⁶ ns (R143). -/
def execSyncReceive (h : PtpHdr) (a : PtpAt) (x : EthRx) (twoStep : Bool) (t1 : Int) (s : State) : Host.Outcome State Fault Refusal :=
  act (decide (h.port < 4)) (ptpIn h x (ptpReceive 0 h a.timed false false true (ptpSync h a twoStep t1))) s

/-- A Follow_Up, with its preciseOriginTimestamp (R143). -/
def execFollowUpReceive (h : PtpHdr) (a : PtpAt) (x : EthRx) (t1 : Int) (s : State) : Host.Outcome State Fault Refusal :=
  act (decide (h.port < 4)) (ptpIn h x (ptpReceive 8 h true false false true (ptpFollowUp h a t1))) s

/-- A Delay_Resp, with its receiveTimestamp (R143). -/
def execDelayRespReceive (h : PtpHdr) (q : PtpReq) (x : EthRx) (t4 : Int) (s : State) : Host.Outcome State Fault Refusal :=
  act (decide (h.port < 4)) (ptpIn h x (ptpReceive 9 h true false false true (delayResp h q t4))) s

/-- An Announce: the grandmaster's data set, stepsRemoved, the UTC offset and the leap, UTC-valid and two-step flags (R142). -/
def execAnnounceReceive (h : PtpHdr) (x : EthRx) (gm : GmData) (steps utc : Nat) (l61 l59 uv two : Bool) (cyc : Nat) (s : State) : Host.Outcome State Fault Refusal :=
  act (decide (h.port < 4)) (ptpIn h x (ptpReceive 11 h true false (decide (255 ≤ steps)) false (announce h gm steps utc l61 l59 uv two cyc))) s

/-- A Pdelay_Req, answered on `tx` (R154). -/
def execPdelayReqReceive (h : PtpHdr) (x : EthRx) (rx tx : PtpAt) (s : State) : Host.Outcome State Fault Refusal :=
  act (decide (h.port < 4)) (ptpIn h x (ptpReceive 2 h rx.timed false false false (pdelayReq h rx tx))) s

/-- A Pdelay_Resp, with its requestReceiptTimestamp (R143). -/
def execPdelayRespReceive (h : PtpHdr) (a : PtpAt) (q : PtpReq) (x : EthRx) (twoStep : Bool) (t2 : Int) (s : State) : Host.Outcome State Fault Refusal :=
  act (decide (h.port < 4)) (ptpIn h x (ptpReceive 3 h a.timed false false false (pdelayResp h a q twoStep t2))) s

/-- A Pdelay_Resp_Follow_Up, with its responseOriginTimestamp (R143). -/
def execPdelayRespFollowUpReceive (h : PtpHdr) (q : PtpReq) (x : EthRx) (t3 : Int) (s : State) : Host.Outcome State Fault Refusal :=
  act (decide (h.port < 4)) (ptpIn h x (ptpReceive 10 h true false false false (pdelayFollowUp h q t3))) s

/-- A management, signalling or unknown PTP message (R141). -/
def execPtpOtherMessage (h : PtpHdr) (x : EthRx) (typ : Nat) (s : State) : Host.Outcome State Fault Refusal :=
  act (decide (h.port < 4)) (ptpIn h x (ptpReceive typ h true true false false id)) s

/-- A Delay_Req is due (R143). -/
def execDelayReqSend (a : PtpAt) (s : State) : Host.Outcome State Fault Refusal :=
  act true (delayReqSend a) s

/-- A Pdelay_Req is due (R154). -/
def execPdelayReqSend (a : PtpAt) (s : State) : Host.Outcome State Fault Refusal :=
  act true (pdelayReqSend a) s

/-- ANN_TIMEOUT intervals have passed without an Announce of foreign master `k` (R142). -/
def execForeignMasterTimeout (k cyc : Nat) (s : State) : Host.Outcome State Fault Refusal :=
  act (decide (k < 8)) (fmTimeout k cyc) s

/-- Four Sync intervals have passed without a Sync (R145). -/
def execSyncTimeout (cyc : Nat) (s : State) : Host.Outcome State Fault Refusal :=
  act true (syncTimeout cyc) s

/-- 1 is written to TSU_STEP_CTRL.ACCEPT (R147). -/
def execTsuStepAccept (r : Req) (v : Nat) (s : State) : Host.Outcome State Fault Refusal :=
  act true (regWrite r F.TSU_STEP_CTRL.ACCEPT 1 v) s

/-- 1 is written to TSU_STEP_CTRL.REJECT (R147). -/
def execTsuStepReject (r : Req) (v : Nat) (s : State) : Host.Outcome State Fault Refusal :=
  act true (regWrite r F.TSU_STEP_CTRL.REJECT 1 v) s

/-- A frame received on E2 or E3, for the other of the two; `fits`: its queue has room, `window`: a window of the stroke fits it (R15, R153). -/
def execBridgeForward (p : Nat) (ptp : Option PtpBridged) (x : EthRx) (fits window : Bool) (s : State) : Host.Outcome State Fault Refusal :=
  act (p == 2 || p == 3) (fun s => s |> ethIn p x |> bridgeForward p ptp fits window) s

/-- The leading edge of time output `n` falls due (R155). -/
def execToutEdge (n : Nat) (s : State) : Host.Outcome State Fault Refusal :=
  act (decide (n < 8)) (toutEdge n) s

/-- The pulse of time output `n` has lasted WIDTH (R155). -/
def execToutPulseEnd (n : Nat) (s : State) : Host.Outcome State Fault Refusal :=
  act (decide (n < 8)) (toutPulseEnd n) s

/-- Launch entry `e` falls due, and leaves `late` 2⁻¹⁶ ns after its time; `behind`: a coarse round frame was on the wire (R158). -/
def execScheduledLaunch (e late : Nat) (behind : Bool) (s : State) : Host.Outcome State Fault Refusal :=
  act (decide (e < 16)) (scheduledLaunch e late behind) s

/-- 1 is written to TSU_LQ_CTRL.FLUSH (R161). -/
def execLqFlush (r : Req) (v : Nat) (s : State) : Host.Outcome State Fault Refusal :=
  act true (regWrite r F.TSU_LQ_CTRL.FLUSH 1 v) s

end Sys2Proof.Machine
end

