-- ==== Sys2Proof/Machine/Dispatch.lean ====
section
/-! DEFINITION. What each command does: one arm for each constructor of `Instr`, each a call of its meaning. -/

namespace Sys2Proof.Machine

def exec (i : Instr) (s : State) : Host.Outcome State Fault Refusal :=
  match i with
  | .porstNAssert => Sys2Proof.Machine.execPorstNAssert s
  | .porstNRelease bootNet => Sys2Proof.Machine.execPorstNRelease bootNet s
  | .brownoutReset rails => Sys2Proof.Machine.execBrownoutReset rails s
  | .pllLock us => Sys2Proof.Machine.execPllLock us s
  | .refinLoss => Sys2Proof.Machine.execRefinLoss s
  | .refinReturn => Sys2Proof.Machine.execRefinReturn s
  | .strike e => Sys2Proof.Machine.execStrike e s
  | .acOpenTrip c mV => Sys2Proof.Machine.execAcOpenTrip c mV s
  | .openClear c => Sys2Proof.Machine.execOpenClear c s
  | .acquisitionWindow => Sys2Proof.Machine.execAcquisitionWindow s
  | .commitSeal k => Sys2Proof.Machine.execCommitSeal k s
  | .conversionEnd nib k d rdo parity uv => Sys2Proof.Machine.execConversionEnd nib k d rdo parity uv s
  | .strokeFrameLaunch => Sys2Proof.Machine.execStrokeFrameLaunch s
  | .dxResult cyc => Sys2Proof.Machine.execDxResult cyc s
  | .strokeClosure full held => Sys2Proof.Machine.execStrokeClosure full held s
  | .halfWriteLow off v => Sys2Proof.Machine.execHalfWriteLow off v s
  | .halfWriteHigh cyc off v => Sys2Proof.Machine.execHalfWriteHigh cyc off v s
  | .halfReadLow cyc off bad => Sys2Proof.Machine.execHalfReadLow cyc off bad s
  | .halfReadHigh cyc off bad => Sys2Proof.Machine.execHalfReadHigh cyc off bad s
  | .halfDiscardTimeout => Sys2Proof.Machine.execHalfDiscardTimeout s
  | .registerWrite r off v => Sys2Proof.Machine.execRegisterWrite r off v s
  | .spiWriteFrame off v crcOk served cyc => Sys2Proof.Machine.execSpiWriteFrame off v crcOk served cyc s
  | .spiReadFrame off crcOk bad cyc => Sys2Proof.Machine.execSpiReadFrame off crcOk bad cyc s
  | .spiStatusFrame crcOk cyc => Sys2Proof.Machine.execSpiStatusFrame crcOk cyc s
  | .spiCsReleasedMidFrame cmd => Sys2Proof.Machine.execSpiCsReleasedMidFrame cmd s
  | .clrStatus r p v => Sys2Proof.Machine.execClrStatus r p v s
  | .evtPendClear r p v => Sys2Proof.Machine.execEvtPendClear r p v s
  | .evtForce r p v => Sys2Proof.Machine.execEvtForce r p v s
  | .shadowDiscard r p v => Sys2Proof.Machine.execShadowDiscard r p v s
  | .commitNext r p v => Sys2Proof.Machine.execCommitNext r p v s
  | .commitStrokeArm r p n => Sys2Proof.Machine.execCommitStrokeArm r p n s
  | .commitDisarm r p => Sys2Proof.Machine.execCommitDisarm r p s
  | .lockSet r p => Sys2Proof.Machine.execLockSet r p s
  | .lockKey r p => Sys2Proof.Machine.execLockKey r p s
  | .lockClear r p => Sys2Proof.Machine.execLockClear r p s
  | .windowRead r w => Sys2Proof.Machine.execWindowRead r w s
  | .windowWrite r w => Sys2Proof.Machine.execWindowWrite r w s
  | .windowInvalidate r w => Sys2Proof.Machine.execWindowInvalidate r w s
  | .windowOpDone w => Sys2Proof.Machine.execWindowOpDone w s
  | .slowMuxStepEnd k => Sys2Proof.Machine.execSlowMuxStepEnd k s
  | .slowOpenCheckEnd k mOhm => Sys2Proof.Machine.execSlowOpenCheckEnd k mOhm s
  | .slowSettleEnd k => Sys2Proof.Machine.execSlowSettleEnd k s
  | .slowWindow1End k => Sys2Proof.Machine.execSlowWindow1End k s
  | .slowSenseSwitchEnd k => Sys2Proof.Machine.execSlowSenseSwitchEnd k s
  | .slowWindow2End k => Sys2Proof.Machine.execSlowWindow2End k s
  | .excComplianceLoss src => Sys2Proof.Machine.execExcComplianceLoss src s
  | .nibRetireEffect nib => Sys2Proof.Machine.execNibRetireEffect nib s
  | .ledgerWriteDone stored => Sys2Proof.Machine.execLedgerWriteDone stored s
  | .nibRetire r nib key => Sys2Proof.Machine.execNibRetire r nib key s
  | .nibPark r nib key => Sys2Proof.Machine.execNibPark r nib key s
  | .nibUnpark r nib key => Sys2Proof.Machine.execNibUnpark r nib key s
  | .trimGo r v => Sys2Proof.Machine.execTrimGo r v s
  | .trimSchedule => Sys2Proof.Machine.execTrimSchedule s
  | .trimMinGapExpiry => Sys2Proof.Machine.execTrimMinGapExpiry s
  | .trimInitialRun => Sys2Proof.Machine.execTrimInitialRun s
  | .trimRunStart => Sys2Proof.Machine.execTrimRunStart s
  | .laneCalWindowEnd k => Sys2Proof.Machine.execLaneCalWindowEnd k s
  | .trimFePartEnd => Sys2Proof.Machine.execTrimFePartEnd s
  | .trimRunEnd => Sys2Proof.Machine.execTrimRunEnd s
  | .trimSolverDone v cyc => Sys2Proof.Machine.execTrimSolverDone v cyc s
  | .trimAbort r v => Sys2Proof.Machine.execTrimAbort r v s
  | .fltSyncArm r n => Sys2Proof.Machine.execFltSyncArm r n s
  | .fltSyncDisarm r => Sys2Proof.Machine.execFltSyncDisarm r s
  | .syncNext r v => Sys2Proof.Machine.execSyncNext r v s
  | .syncNEdge cyc => Sys2Proof.Machine.execSyncNEdge cyc s
  | .flrRequest r v => Sys2Proof.Machine.execFlrRequest r v s
  | .flourishDone c => Sys2Proof.Machine.execFlourishDone c s
  | .peekArm r v => Sys2Proof.Machine.execPeekArm r v s
  | .peekCapture => Sys2Proof.Machine.execPeekCapture s
  | .syncReceive h a x twoStep t1 => Sys2Proof.Machine.execSyncReceive h a x twoStep t1 s
  | .followUpReceive h a x t1 => Sys2Proof.Machine.execFollowUpReceive h a x t1 s
  | .delayRespReceive h q x t4 => Sys2Proof.Machine.execDelayRespReceive h q x t4 s
  | .announceReceive h x gm steps utc l61 l59 uv two cyc => Sys2Proof.Machine.execAnnounceReceive h x gm steps utc l61 l59 uv two cyc s
  | .pdelayReqReceive h x rx tx => Sys2Proof.Machine.execPdelayReqReceive h x rx tx s
  | .pdelayRespReceive h a q x twoStep t2 => Sys2Proof.Machine.execPdelayRespReceive h a q x twoStep t2 s
  | .pdelayRespFollowUpReceive h q x t3 => Sys2Proof.Machine.execPdelayRespFollowUpReceive h q x t3 s
  | .ptpOtherMessage h x typ => Sys2Proof.Machine.execPtpOtherMessage h x typ s
  | .delayReqSend a => Sys2Proof.Machine.execDelayReqSend a s
  | .pdelayReqSend a => Sys2Proof.Machine.execPdelayReqSend a s
  | .foreignMasterTimeout k cyc => Sys2Proof.Machine.execForeignMasterTimeout k cyc s
  | .syncTimeout cyc => Sys2Proof.Machine.execSyncTimeout cyc s
  | .tsuStepAccept r v => Sys2Proof.Machine.execTsuStepAccept r v s
  | .tsuStepReject r v => Sys2Proof.Machine.execTsuStepReject r v s
  | .bridgeForward p ptp x fits window => Sys2Proof.Machine.execBridgeForward p ptp x fits window s
  | .toutEdge n => Sys2Proof.Machine.execToutEdge n s
  | .toutPulseEnd n => Sys2Proof.Machine.execToutPulseEnd n s
  | .scheduledLaunch e late behind => Sys2Proof.Machine.execScheduledLaunch e late behind s
  | .lqFlush r v => Sys2Proof.Machine.execLqFlush r v s
  | .markReceive k sn hold phase mistimed => Sys2Proof.Machine.execMarkReceive k sn hold phase mistimed s
  | .markMissed k came => Sys2Proof.Machine.execMarkMissed k came s
  | .ackReceive k express seq nak => Sys2Proof.Machine.execAckReceive k express seq nak s
  | .ackTimeout k express seq => Sys2Proof.Machine.execAckTimeout k express seq s
  | .helloSend k => Sys2Proof.Machine.execHelloSend k s
  | .helloReceive x h => Sys2Proof.Machine.execHelloReceive x h s
  | .joinReceive x j => Sys2Proof.Machine.execJoinReceive x j s
  | .joinAckReceive x hub result => Sys2Proof.Machine.execJoinAckReceive x hub result s
  | .joinRetry => Sys2Proof.Machine.execJoinRetry s
  | .delaySend k => Sys2Proof.Machine.execDelaySend k s
  | .delayReceive x phi carry path strokeLo => Sys2Proof.Machine.execDelayReceive x phi carry path strokeLo s
  | .ilkLockAcquired => Sys2Proof.Machine.execIlkLockAcquired s
  | .ilkMeasureDone => Sys2Proof.Machine.execIlkMeasureDone s
  | .placementUpdate => Sys2Proof.Machine.execPlacementUpdate s
  | .slewStep cyc => Sys2Proof.Machine.execSlewStep cyc s
  | .laneDown k => Sys2Proof.Machine.execLaneDown k s
  | .laneUp k => Sys2Proof.Machine.execLaneUp k s
  | .laneRetrain r k v => Sys2Proof.Machine.execLaneRetrain r k v s
  | .revertTimer => Sys2Proof.Machine.execRevertTimer s
  | .backupTakeover => Sys2Proof.Machine.execBackupTakeover s
  | .timeSend ahead => Sys2Proof.Machine.execTimeSend ahead s
  | .timeReceive x f => Sys2Proof.Machine.execTimeReceive x f s
  | .timeFrameTimeout => Sys2Proof.Machine.execTimeFrameTimeout s
  | .bcastReceive x b cyc => Sys2Proof.Machine.execBcastReceive x b cyc s
  | .trigReceive x f => Sys2Proof.Machine.execTrigReceive x f s
  | .testFrameReceive x crcOk words => Sys2Proof.Machine.execTestFrameReceive x crcOk words s
  | .testFrameSend k => Sys2Proof.Machine.execTestFrameSend k s
  | .trgArm r v => Sys2Proof.Machine.execTrgArm r v s
  | .trgDisarm r v => Sys2Proof.Machine.execTrgDisarm r v s
  | .capRelease r slot => Sys2Proof.Machine.execCapRelease r slot s
  | .subscribe q x cyc => Sys2Proof.Machine.execSubscribe q x cyc s
  | .unsubscribe q x cyc => Sys2Proof.Machine.execUnsubscribe q x cyc s
  | .keepalive q x => Sys2Proof.Machine.execKeepalive q x s
  | .replay q x => Sys2Proof.Machine.execReplay q x s
  | .cancel q x => Sys2Proof.Machine.execCancel q x s
  | .status q x => Sys2Proof.Machine.execStatus q x s
  | .ductusMalformed q x op => Sys2Proof.Machine.execDuctusMalformed q x op s
  | .sessionBindApply n => Sys2Proof.Machine.execSessionBindApply n s
  | .leaseExpiry n cyc => Sys2Proof.Machine.execLeaseExpiry n cyc s
  | .replayStart n => Sys2Proof.Machine.execReplayStart n s
  | .replayComplete n => Sys2Proof.Machine.execReplayComplete n s
  | .copyCatchup n k => Sys2Proof.Machine.execCopyCatchup n k s
  | .maxwaitExpiry n k => Sys2Proof.Machine.execMaxwaitExpiry n k s
  | .anchorPeriod n k chan tap => Sys2Proof.Machine.execAnchorPeriod n k chan tap s
  | .mapFramePeriod n => Sys2Proof.Machine.execMapFramePeriod n s
  | .ethRxViolation p bad mac sess => Sys2Proof.Machine.execEthRxViolation p bad mac sess s
  | .ethLinkChange p v fec => Sys2Proof.Machine.execEthLinkChange p v fec s
  | .pcsLockLoss p hiBer errs => Sys2Proof.Machine.execPcsLockLoss p hiBer errs s
  | .preemptVerifyFail p => Sys2Proof.Machine.execPreemptVerifyFail p s
  | .preemptVerifyOk p => Sys2Proof.Machine.execPreemptVerifyOk p s
  | .arpReceive p m x => Sys2Proof.Machine.execArpReceive p m x s
  | .arpRetry p ipv6 addr => Sys2Proof.Machine.execArpRetry p ipv6 addr s
  | .quePop r q bad => Sys2Proof.Machine.execQuePop r q bad s
  | .quePeek r q => Sys2Proof.Machine.execQuePeek r q s
  | .cmdqPush r v => Sys2Proof.Machine.execCmdqPush r v s
  | .cmdqPushEnd r v => Sys2Proof.Machine.execCmdqPushEnd r v s
  | .queFlush r q => Sys2Proof.Machine.execQueFlush r q s
  | .queFlushAll r m => Sys2Proof.Machine.execQueFlushAll r m s
  | .cmdqNop => Sys2Proof.Machine.execCmdqNop s
  | .cmdqReplay => Sys2Proof.Machine.execCmdqReplay s
  | .cmdqCancel => Sys2Proof.Machine.execCmdqCancel s
  | .cmdqStatus => Sys2Proof.Machine.execCmdqStatus s
  | .cmdqInvalid blot => Sys2Proof.Machine.execCmdqInvalid blot s
  | .dramRefresh c => Sys2Proof.Machine.execDramRefresh c s
  | .mprTempRead c r0 r1 => Sys2Proof.Machine.execMprTempRead c r0 r1 s
  | .powerDownEntry c rank => Sys2Proof.Machine.execPowerDownEntry c rank s
  | .selfRefreshEntry c => Sys2Proof.Machine.execSelfRefreshEntry c s
  | .selfRefreshEntryDone c => Sys2Proof.Machine.execSelfRefreshEntryDone c s
  | .selfRefreshExit c delay => Sys2Proof.Machine.execSelfRefreshExit c delay s
  | .rowHammer c addr req => Sys2Proof.Machine.execRowHammer c addr req s
  | .refreshWindowEnd c => Sys2Proof.Machine.execRefreshWindowEnd c s
  | .patrolScrub c addr dev ce wrap => Sys2Proof.Machine.execPatrolScrub c addr dev ce wrap s
  | .uncorrectableError e => Sys2Proof.Machine.execUncorrectableError e s
  | .ddrAlert c wcrc same sec req addr => Sys2Proof.Machine.execDdrAlert c wcrc same sec req addr s
  | .freezeResume r v => Sys2Proof.Machine.execFreezeResume r v s
  | .freezeRetire r v => Sys2Proof.Machine.execFreezeRetire r v s
  | .freezeHardRepair r v => Sys2Proof.Machine.execFreezeHardRepair r v s
  | .freezeTimeout => Sys2Proof.Machine.execFreezeTimeout s
  | .rtGo r v => Sys2Proof.Machine.execRtGo r v s
  | .hpprGo r v => Sys2Proof.Machine.execHpprGo r v s
  | .retrainPeriod c => Sys2Proof.Machine.execRetrainPeriod c s
  | .ddrRetrainDone c result rd wr vref => Sys2Proof.Machine.execDdrRetrainDone c result rd wr vref s
  | .ddrRetrainTimeout c pass => Sys2Proof.Machine.execDdrRetrainTimeout c pass s
  | .ddrRetryTimer c => Sys2Proof.Machine.execDdrRetryTimer c s
  | .hpprDone c src => Sys2Proof.Machine.execHpprDone c src s
  | .channelCopyDone c => Sys2Proof.Machine.execChannelCopyDone c s
  | .ddrTrainDone c => Sys2Proof.Machine.execDdrTrainDone c s
  | .bar2Read ofs len bad ce => Sys2Proof.Machine.execBar2Read ofs len bad ce s
  | .bar2Write ofs len v rid => Sys2Proof.Machine.execBar2Write ofs len v rid s
  | .dmaTailWrite r k v => Sys2Proof.Machine.execDmaTailWrite r k v s
  | .descriptorReadDone k buf len irq => Sys2Proof.Machine.execDescriptorReadDone k buf len irq s
  | .recordPlace k pre => Sys2Proof.Machine.execRecordPlace k pre s
  | .closeUsExpiry k => Sys2Proof.Machine.execCloseUsExpiry k s
  | .descriptorComplete k => Sys2Proof.Machine.execDescriptorComplete k s
  | .ringEnable r k v => Sys2Proof.Machine.execRingEnable r k v s
  | .ringDisable r k v => Sys2Proof.Machine.execRingDisable r k v s
  | .pageWalkRead entry ns => Sys2Proof.Machine.execPageWalkRead entry ns s
  | .dmaFault bad site ring rid => Sys2Proof.Machine.execDmaFault bad site ring rid s
  | .resumeRetry r cls id => Sys2Proof.Machine.execResumeRetry r cls id s
  | .resumeDrop r cls id => Sys2Proof.Machine.execResumeDrop r cls id s
  | .parkTimeout c => Sys2Proof.Machine.execParkTimeout c s
  | .pcieLinkDown => Sys2Proof.Machine.execPcieLinkDown s
  | .pcieLinkUp speed width => Sys2Proof.Machine.execPcieLinkUp speed width s
  | .pcieHotReset => Sys2Proof.Machine.execPcieHotReset s
  | .pcieFlr => Sys2Proof.Machine.execPcieFlr s
  | .pcieD3hotEntry => Sys2Proof.Machine.execPcieD3hotEntry s
  | .bmeClear rid => Sys2Proof.Machine.execBmeClear rid s
  | .dmaLinkResume r v => Sys2Proof.Machine.execDmaLinkResume r v s
  | .atuInvalidate r scope => Sys2Proof.Machine.execAtuInvalidate r scope s
  | .atuInvalidateDone => Sys2Proof.Machine.execAtuInvalidateDone s
  | .atuProbe r v => Sys2Proof.Machine.execAtuProbe r v s
  | .atuEnableChange r en => Sys2Proof.Machine.execAtuEnableChange r en s
  | .imageFetchGo r len => Sys2Proof.Machine.execImageFetchGo r len s
  | .imageFetchAbort r v => Sys2Proof.Machine.execImageFetchAbort r v s
  | .imageFetchDone bytes => Sys2Proof.Machine.execImageFetchDone bytes s
  | .imageFetchParkTimeout => Sys2Proof.Machine.execImageFetchParkTimeout s
  | .pcieTlpViolation bad rid => Sys2Proof.Machine.execPcieTlpViolation bad rid s
  | .pcieCompletionTimeout site ring rid => Sys2Proof.Machine.execPcieCompletionTimeout site ring rid s
  | .pcieRetrain r v => Sys2Proof.Machine.execPcieRetrain r v s
  | .lduPturnArm r v => Sys2Proof.Machine.execLduPturnArm r v s
  | .lduSlotCompute l turn => Sys2Proof.Machine.execLduSlotCompute l turn s
  | .lduSlotStart l => Sys2Proof.Machine.execLduSlotStart l s
  | .lduOnTimeEnd n => Sys2Proof.Machine.execLduOnTimeEnd n s
  | .lduObserve n code v reg => Sys2Proof.Machine.execLduObserve n code v reg s
  | .overcurrent n => Sys2Proof.Machine.execOvercurrent n s
  | .cellRetry e => Sys2Proof.Machine.execCellRetry e s
  | .starveTimeout e => Sys2Proof.Machine.execStarveTimeout e s
  | .diagPulse e code v reg => Sys2Proof.Machine.execDiagPulse e code v reg s
  | .tinStaleTimeout k => Sys2Proof.Machine.execTinStaleTimeout k s
  | .stringClear r n v => Sys2Proof.Machine.execStringClear r n v s
  | .stringRetireHost r n key => Sys2Proof.Machine.execStringRetireHost r n key s
  | .arbitrationWindow cyc => Sys2Proof.Machine.execArbitrationWindow cyc s
  | .heartbeatTimeout cyc => Sys2Proof.Machine.execHeartbeatTimeout cyc s
  | .penCopyDisagree a b c => Sys2Proof.Machine.execPenCopyDisagree a b c s
  | .penUnlockKey r who => Sys2Proof.Machine.execPenUnlockKey r who s
  | .penUnlockGo r key who => Sys2Proof.Machine.execPenUnlockGo r key who s
  | .penXferArm r who => Sys2Proof.Machine.execPenXferArm r who s
  | .penXferDisarm r => Sys2Proof.Machine.execPenXferDisarm r s
  | .slotStart h bad => Sys2Proof.Machine.execSlotStart h bad s
  | .scribeTimer h => Sys2Proof.Machine.execScribeTimer h s
  | .scrNop a => Sys2Proof.Machine.execScrNop a s
  | .scrEnd a => Sys2Proof.Machine.execScrEnd a s
  | .scrJmp a => Sys2Proof.Machine.execScrJmp a s
  | .scrJcc a => Sys2Proof.Machine.execScrJcc a s
  | .scrCall a => Sys2Proof.Machine.execScrCall a s
  | .scrRet a => Sys2Proof.Machine.execScrRet a s
  | .scrLdi a => Sys2Proof.Machine.execScrLdi a s
  | .scrLdih a => Sys2Proof.Machine.execScrLdih a s
  | .scrAlu a => Sys2Proof.Machine.execScrAlu a s
  | .scrAddi a => Sys2Proof.Machine.execScrAddi a s
  | .scrRd a => Sys2Proof.Machine.execScrRd a s
  | .scrWr a => Sys2Proof.Machine.execScrWr a s
  | .scrWri a => Sys2Proof.Machine.execScrWri a s
  | .scrRmw a => Sys2Proof.Machine.execScrRmw a s
  | .scrPoll a => Sys2Proof.Machine.execScrPoll a s
  | .scrLdm a => Sys2Proof.Machine.execScrLdm a s
  | .scrStm a => Sys2Proof.Machine.execScrStm a s
  | .scrLdx a => Sys2Proof.Machine.execScrLdx a s
  | .scrStx a => Sys2Proof.Machine.execScrStx a s
  | .scrWaits a => Sys2Proof.Machine.execScrWaits a s
  | .scrWaitsDone h => Sys2Proof.Machine.execScrWaitsDone h s
  | .scrWaitt a => Sys2Proof.Machine.execScrWaitt a s
  | .scrWaittDone h => Sys2Proof.Machine.execScrWaittDone h s
  | .scrWaite a => Sys2Proof.Machine.execScrWaite a s
  | .scrWaiteDone h => Sys2Proof.Machine.execScrWaiteDone h s
  | .scrMbxs a => Sys2Proof.Machine.execScrMbxs a s
  | .scrMbxg a => Sys2Proof.Machine.execScrMbxg a s
  | .scrHbeat a => Sys2Proof.Machine.execScrHbeat a s
  | .scrClaim a => Sys2Proof.Machine.execScrClaim a s
  | .scrRelease a => Sys2Proof.Machine.execScrRelease a s
  | .scrEvt a => Sys2Proof.Machine.execScrEvt a s
  | .scrFault a => Sys2Proof.Machine.execScrFault a s
  | .scrHalt a => Sys2Proof.Machine.execScrHalt a s
  | .watchdogExpiry h cyc => Sys2Proof.Machine.execWatchdogExpiry h cyc s
  | .halfBoot r h v => Sys2Proof.Machine.execHalfBoot r h v s
  | .mbinPush r h v => Sys2Proof.Machine.execMbinPush r h v s
  | .mbinSend r h => Sys2Proof.Machine.execMbinSend r h s
  | .mbinClear r h => Sys2Proof.Machine.execMbinClear r h s
  | .bootSelftestDone h bad => Sys2Proof.Machine.execBootSelftestDone h bad s
  | .bootLedgerDone h => Sys2Proof.Machine.execBootLedgerDone h s
  | .bootVerifyDone h parity => Sys2Proof.Machine.execBootVerifyDone h parity s
  | .bootApplyDone h parity => Sys2Proof.Machine.execBootApplyDone h parity s
  | .bootLoadDone h cyc parity => Sys2Proof.Machine.execBootLoadDone h cyc parity s
  | .imageWindowWrite w => Sys2Proof.Machine.execImageWindowWrite w s
  | .imageSeal r v => Sys2Proof.Machine.execImageSeal r v s
  | .imageOpen r v => Sys2Proof.Machine.execImageOpen r v s
  | .ebootSpeedTry ports => Sys2Proof.Machine.execEbootSpeedTry ports s
  | .ebootSolicit => Sys2Proof.Machine.execEbootSolicit s
  | .ebootOffer f x xid len => Sys2Proof.Machine.execEbootOffer f x xid len s
  | .ebootData f x xid ofs bytes => Sys2Proof.Machine.execEbootData f x xid ofs bytes s
  | .ebootReadTimeout ofs => Sys2Proof.Machine.execEbootReadTimeout ofs s
  | .evaSourceRise n => Sys2Proof.Machine.execEvaSourceRise n s
  | .vecGapExpiry v => Sys2Proof.Machine.execVecGapExpiry v s
  | .evaPendClear r j m => Sys2Proof.Machine.execEvaPendClear r j m s
  | .evaForce r j m => Sys2Proof.Machine.execEvaForce r j m s
  | .evaVecWrite r en j v => Sys2Proof.Machine.execEvaVecWrite r en j v s
  | .monSecond => Sys2Proof.Machine.execMonSecond s
  | .testGo r n v => Sys2Proof.Machine.execTestGo r n v s
  | .testStop r n v bits errs => Sys2Proof.Machine.execTestStop r n v bits errs s
  | .stopAll r v => Sys2Proof.Machine.execStopAll r v s
  | .testDurationEnd n bits errs => Sys2Proof.Machine.execTestDurationEnd n bits errs s
  | .eyeScanGo r v => Sys2Proof.Machine.execEyeScanGo r v s
  | .eyeScanDone mismatch => Sys2Proof.Machine.execEyeScanDone mismatch s
  | .jtagInstruction ins ir => Sys2Proof.Machine.execJtagInstruction ins ir s
  | .spiUnknownCommand cmd => Sys2Proof.Machine.execSpiUnknownCommand cmd s
  | .tsuNowRead r => Sys2Proof.Machine.execTsuNowRead r s
  | .codeViolation k span idle => Sys2Proof.Machine.execCodeViolation k span idle s
  | .crcFailure k express seq reason => Sys2Proof.Machine.execCrcFailure k express seq reason s
  | .scrPollDone n a => Sys2Proof.Machine.execScrPollDone n a s
  | .checkerLock n => Sys2Proof.Machine.execCheckerLock n s
  | .checkerLockLoss n bits errs => Sys2Proof.Machine.execCheckerLockLoss n bits errs s
  | .errStop n bits errs => Sys2Proof.Machine.execErrStop n bits errs s
  | .loopbackFollowerEntry => Sys2Proof.Machine.execLoopbackFollowerEntry s
  | .loopbackFollowerExit => Sys2Proof.Machine.execLoopbackFollowerExit s
  | .pcieRecovery rid => Sys2Proof.Machine.execPcieRecovery rid s
  | .msixUnmask vec => Sys2Proof.Machine.execMsixUnmask vec s
  | .bmeSet => Sys2Proof.Machine.execBmeSet s
  | .conventionalReset => Sys2Proof.Machine.execConventionalReset s
  | .arpAgeExpiry ipv6 addr => Sys2Proof.Machine.execArpAgeExpiry ipv6 addr s

end Sys2Proof.Machine
end

