-- ==== Sys2Proof/WellFormed.lean ====
section
/-!
DEFINITION. The checks on a command's operands: every unit it names exists, every register offset is one of BAR0 (R23), every value fits its
width. A command that fails them is none that can reach the hub.
-/

namespace Sys2Proof

/-- The page numbers of BAR0 (R44). -/
def isPage (p : Nat) : Bool := decide (p < 10) || (decide (16 ≤ p) && decide (p < 37))

/-- A register offset: 8-byte aligned, within BAR0's 256 KB. -/
def isOffset (off : Nat) : Bool := off % 8 == 0 && decide (off < 2 ^ 18)

/-- A register word, and half of one. -/
def isWord (v : Nat) : Bool := decide (v < 2 ^ 64)
def isHalf (v : Nat) : Bool := decide (v < 2 ^ 32)

/-- The checks of one command. -/
def wellFormed (i : Instr) : Bool :=
  match i with
  | .porstNAssert => true
  | .porstNRelease _ => true
  | .brownoutReset rails => decide (rails < 256)
  | .pllLock _ => true
  | .refinLoss => true
  | .refinReturn => true
  | .strike _ => true
  | .acOpenTrip c _ => decide (c < 512)
  | .openClear c => decide (c < 512)
  | .acquisitionWindow => true
  | .commitSeal k => decide (k < 8)
  | .conversionEnd nib _ d _ _ _ => decide (nib < 72) && decide (d < 2 ^ 22)
  | .strokeFrameLaunch => true
  | .dxResult _ => true
  | .strokeClosure _ _ => true
  | .halfWriteLow off v => isOffset off && isHalf v
  | .halfWriteHigh _ off v => isOffset off && isHalf v
  | .halfReadLow _ off _ => isOffset off
  | .halfReadHigh _ off _ => isOffset off
  | .halfDiscardTimeout => true
  | .registerWrite _ off v => isOffset off && isWord v
  | .spiWriteFrame _ _ _ _ _ => true
  | .spiReadFrame _ _ _ _ => true
  | .spiStatusFrame _ _ => true
  | .spiCsReleasedMidFrame cmd => decide (cmd < 256)
  | .clrStatus _ p v => isPage p && isWord v
  | .evtPendClear _ p v => isPage p && isWord v
  | .evtForce _ p v => isPage p && isWord v
  | .shadowDiscard _ p v => isPage p && isWord v
  | .commitNext _ p v => isPage p && isWord v
  | .commitStrokeArm _ p n => isPage p && isWord n
  | .commitDisarm _ p => isPage p
  | .lockSet _ p => isPage p
  | .lockKey _ p => isPage p
  | .lockClear _ p => isPage p
  | .windowRead _ w => decide (w < 14)
  | .windowWrite _ w => decide (w < 14)
  | .windowInvalidate _ w => decide (w < 14)
  | .windowOpDone w => decide (w < 14)
  | .slowMuxStepEnd k => decide (k < 4)
  | .slowOpenCheckEnd k _ => decide (k < 4)
  | .slowSettleEnd k => decide (k < 4)
  | .slowWindow1End k => decide (k < 4)
  | .slowSenseSwitchEnd k => decide (k < 4)
  | .slowWindow2End k => decide (k < 4)
  | .excComplianceLoss src => decide (src < 16)
  | .nibRetireEffect nib => decide (nib < 72)
  | .ledgerWriteDone stored => isWord stored
  | .nibRetire _ nib key => decide (nib < 128) && decide (key < 2 ^ 16)
  | .nibPark _ nib key => decide (nib < 128) && decide (key < 2 ^ 16)
  | .nibUnpark _ nib key => decide (nib < 128) && decide (key < 2 ^ 16)
  | .trimGo _ v => isWord v
  | .trimSchedule => true
  | .trimMinGapExpiry => true
  | .trimInitialRun => true
  | .trimRunStart => true
  | .laneCalWindowEnd k => decide (k < 4)
  | .trimFePartEnd => true
  | .trimRunEnd => true
  | .trimSolverDone _ _ => true
  | .trimAbort _ v => isWord v
  | .fltSyncArm _ n => isWord n
  | .fltSyncDisarm _ => true
  | .syncNext _ v => isWord v
  | .syncNEdge _ => true
  | .flrRequest _ v => isWord v
  | .flourishDone c => decide (c < 512)
  | .peekArm _ v => isWord v
  | .peekCapture => true
  | .syncReceive h _ _ _ _ => decide (h.port < 4)
  | .followUpReceive h _ _ _ => decide (h.port < 4)
  | .delayRespReceive h _ _ _ => decide (h.port < 4)
  | .announceReceive h _ _ _ _ _ _ _ _ _ => decide (h.port < 4)
  | .pdelayReqReceive h _ _ _ => decide (h.port < 4)
  | .pdelayRespReceive h _ _ _ _ _ => decide (h.port < 4)
  | .pdelayRespFollowUpReceive h _ _ _ => decide (h.port < 4)
  | .ptpOtherMessage h _ _ => decide (h.port < 4)
  | .delayReqSend _ => true
  | .pdelayReqSend _ => true
  | .foreignMasterTimeout k _ => decide (k < 8)
  | .syncTimeout _ => true
  | .tsuStepAccept _ v => isWord v
  | .tsuStepReject _ v => isWord v
  | .bridgeForward p _ _ _ _ => p == 2 || p == 3
  | .toutEdge n => decide (n < 8)
  | .toutPulseEnd n => decide (n < 8)
  | .scheduledLaunch e _ _ => decide (e < 16)
  | .lqFlush _ v => isWord v
  | .markReceive k sn _ _ _ => decide (k < 4) && decide (sn < 2 ^ 20)
  | .markMissed k _ => decide (k < 4)
  | .ackReceive k _ seq _ => decide (k < 4) && decide (seq < 16)
  | .ackTimeout k _ seq => decide (k < 4) && decide (seq < 16)
  | .helloSend k => decide (k < 4)
  | .helloReceive x _ => decide (x.lane < 4)
  | .joinReceive x _ => decide (x.lane < 4)
  | .joinAckReceive x _ _ => decide (x.lane < 4)
  | .joinRetry => true
  | .delaySend k => decide (k < 4)
  | .delayReceive x _ _ _ _ => decide (x.lane < 4)
  | .ilkLockAcquired => true
  | .ilkMeasureDone => true
  | .placementUpdate => true
  | .slewStep _ => true
  | .laneDown k => decide (k < 4)
  | .laneUp k => decide (k < 4)
  | .laneRetrain _ k v => decide (k < 4) && isWord v
  | .revertTimer => true
  | .backupTakeover => true
  | .timeSend _ => true
  | .timeReceive x _ => decide (x.lane < 4)
  | .timeFrameTimeout => true
  | .bcastReceive x _ _ => decide (x.lane < 4)
  | .trigReceive x _ => decide (x.lane < 4)
  | .testFrameReceive x _ _ => decide (x.lane < 4)
  | .testFrameSend k => decide (k < 4)
  | .trgArm _ v => isWord v
  | .trgDisarm _ v => isWord v
  | .capRelease _ slot => decide (slot < 16)
  | .subscribe q _ _ => decide (q.eth < 4)
  | .unsubscribe q _ _ => decide (q.eth < 4)
  | .keepalive q _ => decide (q.eth < 4)
  | .replay q _ => decide (q.eth < 4)
  | .cancel q _ => decide (q.eth < 4)
  | .status q _ => decide (q.eth < 4)
  | .ductusMalformed q _ _ => decide (q.eth < 4)
  | .sessionBindApply n => decide (n < 256)
  | .leaseExpiry n _ => decide (n < 256)
  | .replayStart n => decide (n < 256)
  | .replayComplete n => decide (n < 256)
  | .copyCatchup n k => decide (n < 256) && decide (k < 2)
  | .maxwaitExpiry n k => decide (n < 256) && decide (k < 2)
  | .anchorPeriod n k _ _ => decide (n < 256) && decide (k < 2)
  | .mapFramePeriod n => decide (n < 256)
  | .ethRxViolation p _ _ _ => decide (p < 4)
  | .ethLinkChange p v _ => decide (p < 4) && decide (v < 3)
  | .pcsLockLoss p _ _ => decide (p < 4)
  | .preemptVerifyFail p => decide (p < 4)
  | .preemptVerifyOk p => decide (p < 4)
  | .arpReceive p _ _ => decide (p < 4)
  | .arpRetry p _ _ => decide (p < 4)
  | .quePop _ q _ => decide (q < 7)
  | .quePeek _ q => decide (q < 7)
  | .cmdqPush _ v => isWord v
  | .cmdqPushEnd _ v => isWord v
  | .queFlush _ q => decide (q < 7)
  | .queFlushAll _ m => isWord m
  | .cmdqNop => true
  | .cmdqReplay => true
  | .cmdqCancel => true
  | .cmdqStatus => true
  | .cmdqInvalid _ => true
  | .dramRefresh c => decide (c < 2)
  | .mprTempRead c _ _ => decide (c < 2)
  | .powerDownEntry c rank => decide (c < 2) && decide (rank < 2)
  | .selfRefreshEntry c => decide (c < 2)
  | .selfRefreshEntryDone c => decide (c < 2)
  | .selfRefreshExit c _ => decide (c < 2)
  | .rowHammer c _ _ => decide (c < 2)
  | .refreshWindowEnd c => decide (c < 2)
  | .patrolScrub c _ _ _ _ => decide (c < 2)
  | .uncorrectableError e => decide (e.ch < 2)
  | .ddrAlert c _ _ _ _ _ => decide (c < 2)
  | .freezeResume _ v => isWord v
  | .freezeRetire _ v => isWord v
  | .freezeHardRepair _ v => isWord v
  | .freezeTimeout => true
  | .rtGo _ v => isWord v
  | .hpprGo _ v => isWord v
  | .retrainPeriod c => decide (c < 2)
  | .ddrRetrainDone c result _ _ _ => decide (c < 2) && decide (1 ≤ result) && decide (result ≤ 3)
  | .ddrRetrainTimeout c _ => decide (c < 2)
  | .ddrRetryTimer c => decide (c < 2)
  | .hpprDone c _ => decide (c < 2)
  | .channelCopyDone c => decide (c < 2)
  | .ddrTrainDone c => decide (c < 2)
  | .bar2Read _ _ _ _ => true
  | .bar2Write _ _ _ _ => true
  | .dmaTailWrite _ k v => decide (k < 32) && isWord v
  | .descriptorReadDone k _ _ _ => decide (k < 32)
  | .recordPlace k _ => decide (k < 32)
  | .closeUsExpiry k => decide (k < 32)
  | .descriptorComplete k => decide (k < 32)
  | .ringEnable _ k v => decide (k < 32) && decide (v < 2 ^ 128)
  | .ringDisable _ k v => decide (k < 32) && decide (v < 2 ^ 128)
  | .pageWalkRead entry _ => isWord entry
  | .dmaFault _ _ ring _ => decide (ring < 32)
  | .resumeRetry _ _ _ => true
  | .resumeDrop _ _ _ => true
  | .parkTimeout c => decide (c < 4)
  | .pcieLinkDown => true
  | .pcieLinkUp _ _ => true
  | .pcieHotReset => true
  | .pcieFlr => true
  | .pcieD3hotEntry => true
  | .bmeClear _ => true
  | .dmaLinkResume _ v => isWord v
  | .atuInvalidate _ scope => decide (scope < 4)
  | .atuInvalidateDone => true
  | .atuProbe _ v => isWord v
  | .atuEnableChange _ _ => true
  | .imageFetchGo _ len => decide (len < 2 ^ 24)
  | .imageFetchAbort _ v => isWord v
  | .imageFetchDone _ => true
  | .imageFetchParkTimeout => true
  | .pcieTlpViolation _ _ => true
  | .pcieCompletionTimeout _ ring _ => decide (ring < 32)
  | .pcieRetrain _ v => isWord v
  | .lduPturnArm _ v => isWord v
  | .lduSlotCompute l _ => decide (l < 8)
  | .lduSlotStart l => decide (l < 8)
  | .lduOnTimeEnd n => decide (n < 16)
  | .lduObserve n _ _ _ => decide (n < 16)
  | .overcurrent n => decide (n < 16)
  | .cellRetry e => decide (e < 256)
  | .starveTimeout e => decide (e < 256)
  | .diagPulse e _ _ _ => decide (e < 256)
  | .tinStaleTimeout k => decide (k < 16)
  | .stringClear _ n v => decide (n < 16) && isWord v
  | .stringRetireHost _ n key => decide (n < 16) && decide (key < 2 ^ 16)
  | .arbitrationWindow _ => true
  | .heartbeatTimeout _ => true
  | .penCopyDisagree _ _ _ => true
  | .penUnlockKey _ who => decide (who < 4)
  | .penUnlockGo _ key who => decide (key < 2 ^ 16) && decide (who < 4)
  | .penXferArm _ who => decide (who < 4)
  | .penXferDisarm _ => true
  | .slotStart _ _ => true
  | .scribeTimer _ => true
  | .scrNop _ => true
  | .scrEnd _ => true
  | .scrJmp _ => true
  | .scrJcc _ => true
  | .scrCall _ => true
  | .scrRet _ => true
  | .scrLdi _ => true
  | .scrLdih _ => true
  | .scrAlu _ => true
  | .scrAddi _ => true
  | .scrRd _ => true
  | .scrWr _ => true
  | .scrWri _ => true
  | .scrRmw _ => true
  | .scrPoll _ => true
  | .scrLdm _ => true
  | .scrStm _ => true
  | .scrLdx _ => true
  | .scrStx _ => true
  | .scrWaits _ => true
  | .scrWaitsDone _ => true
  | .scrWaitt _ => true
  | .scrWaittDone _ => true
  | .scrWaite _ => true
  | .scrWaiteDone _ => true
  | .scrMbxs _ => true
  | .scrMbxg _ => true
  | .scrHbeat _ => true
  | .scrClaim _ => true
  | .scrRelease _ => true
  | .scrEvt _ => true
  | .scrFault _ => true
  | .scrHalt _ => true
  | .watchdogExpiry _ _ => true
  | .halfBoot _ _ v => isWord v
  | .mbinPush _ _ v => isWord v
  | .mbinSend _ _ => true
  | .mbinClear _ _ => true
  | .bootSelftestDone _ _ => true
  | .bootLedgerDone _ => true
  | .bootVerifyDone _ _ => true
  | .bootApplyDone _ _ => true
  | .bootLoadDone _ _ _ => true
  | .imageWindowWrite _ => true
  | .imageSeal _ v => isWord v
  | .imageOpen _ v => isWord v
  | .ebootSpeedTry _ => true
  | .ebootSolicit => true
  | .ebootOffer f _ _ len => decide (f.eth < 4) && decide (len < 2 ^ 24)
  | .ebootData f _ _ _ _ => decide (f.eth < 4)
  | .ebootReadTimeout _ => true
  | .evaSourceRise n => decide (n < 128)
  | .vecGapExpiry v => decide (v < 32)
  | .evaPendClear _ j m => decide (j < 2) && isWord m
  | .evaForce _ j m => decide (j < 2) && isWord m
  | .evaVecWrite _ en j v => (if en then decide (j < 2) else decide (j < 16)) && isWord v
  | .monSecond => true
  | .testGo _ n v => decide (n < 18) && isWord v
  | .testStop _ n v _ _ => decide (n < 18) && isWord v
  | .stopAll _ v => isWord v
  | .testDurationEnd n _ _ => decide (n < 18)
  | .eyeScanGo _ v => isWord v
  | .eyeScanDone mismatch => decide (mismatch < 2 ^ 48)
  | .jtagInstruction _ _ => true
  | .spiUnknownCommand cmd => cmd != 2 && cmd != 3 && cmd != 5 && decide (cmd < 256)
  | .tsuNowRead _ => true
  | .codeViolation k _ _ => decide (k < 4)
  | .crcFailure k _ seq reason => decide (k < 4) && decide (1 ≤ reason) && decide (reason ≤ 3) && decide (seq < 16)
  | .scrPollDone _ _ => true
  | .checkerLock n => decide (n < 18)
  | .checkerLockLoss n _ _ => decide (n < 18)
  | .errStop n _ _ => decide (n < 18)
  | .loopbackFollowerEntry => true
  | .loopbackFollowerExit => true
  | .pcieRecovery _ => true
  | .msixUnmask _ => true
  | .bmeSet => true
  | .conventionalReset => true
  | .arpAgeExpiry _ _ => true

end Sys2Proof
end

