-- ==== Sys2Proof/Safety.lean ====
section
/-!
DEFINITION. The terms in which statements about the hub are put: that a command completes, that PORST_N is high, that the spine serves a write,
what a command leaves alone, and the invariant of every step.
-/

namespace Sys2Proof.Machine

/-! ### Completion -/

/-- The command completes at `s`: `exec` answers a next state, and `P` holds of it. -/
def Runs (c : Instr) (s : State) (P : State → Prop) : Prop := ∃ t, exec c s = .next t ∧ P t

/-- PORST_N is high (R365). -/
def Up (s : State) : Prop := s.boot.held = false

/-- The spine serves a write of requester `w` to a register: the register exists, OWNER accepts the requester and no LOCK stands in the way
(R26, R34 to R36, R344). -/
def Served (w : Requester) (off : Nat) (s : State) : Prop :=
  Up s ∧ isReg off = true ∧ mayWrite w off s = true ∧ (isLocked off && on s (F.LOCK.LOCKED (pageAt off))) = false

/-! ### Frames -/

/-- The parts of the state beside the live values of the register fields. -/
inductive Part where
  | pending | shad | out | free | time | spine | sets | chanFe | groupFe | acq | lanes | nibs | trim | filt | queues | tsu | ptp
  | touts | lq | eva | mon | trg | caps | ink | duc | dma | ldu | pcie | halves | pen | tst | boot | eth | ilk
  deriving DecidableEq, Repr

/-- A part is in `t` what it is in `s`. -/
def Part.same (s t : State) : Part → Prop
  | .pending => t.pending = s.pending
  | .shad => t.shad = s.shad
  | .out => t.out = s.out
  | .free => t.free = s.free
  | .time => t.struck = s.struck ∧ t.strikeDclk = s.strikeDclk
  | .spine => t.spine = s.spine
  | .sets => t.sets = s.sets
  | .chanFe => t.chanFe = s.chanFe
  | .groupFe => t.groupFe = s.groupFe
  | .acq => t.acq = s.acq
  | .lanes => t.lanes = s.lanes
  | .nibs => t.nibs = s.nibs
  | .trim => t.trim = s.trim
  | .filt => t.filt = s.filt
  | .queues => t.queues = s.queues
  | .tsu => t.tsu = s.tsu
  | .ptp => t.ptp = s.ptp
  | .touts => t.touts = s.touts
  | .lq => t.lq = s.lq
  | .eva => t.eva = s.eva
  | .mon => t.mon = s.mon
  | .trg => t.trg = s.trg
  | .caps => t.caps = s.caps
  | .ink => t.ink = s.ink
  | .duc => t.duc = s.duc
  | .dma => t.dma = s.dma
  | .ldu => t.ldu = s.ldu
  | .pcie => t.pcie = s.pcie
  | .halves => t.halves = s.halves
  | .pen => t.pen = s.pen
  | .tst => t.tst = s.tst
  | .boot => t.boot = s.boot
  | .eth => t.eth = s.eth
  | .ilk => t.ilk = s.ilk

/-- From `s` to `t` nothing has changed but the parts `ps` and the fields `rs`: every other part, and every other field of every register, is
as it was. -/
def Only (ps : List Part) (rs : List Fld) (s t : State) : Prop :=
  (∀ p, p ∉ ps → p.same s t) ∧ ∀ f : Fld, f.key ∉ rs.map (·.key) → rget t f = rget s f

/-- The page of a field. -/
def pageOf (f : Fld) : Nat := f.key % strokeBase / 32768

/-- From `s` to `t` nothing has changed but the parts `ps` and fields of the pages `pgs`. -/
def Within (ps : List Part) (pgs : List Nat) (s t : State) : Prop :=
  (∀ p, p ∉ ps → p.same s t) ∧ ∀ f : Fld, pageOf f ∉ pgs → rget t f = rget s f

/-- A page source is pending (R29). -/
def Pends (p b : Nat) (s : State) : Prop := bitSet (rget s (F.EVT_PEND.PEND p)) b = true

/-! ### Register writes -/

/-- Whether a register write stores something in a field: not in a read-only one, an action bit, a write-only word or one that only the image
gives (R7, R8). -/
def isStored (f : FieldRow) : Bool :=
  match f.access, f.commit with
  | .ro, _ => false
  | .w1s, _ => false
  | .wo, _ => false
  | _, .boot => false
  | _, _ => true

/-- The fields of the register at an offset that a write stores. -/
def rowFields (off : Nat) : List Fld :=
  match findRow (off % 4096) (pageRows (off / 4096)) with
  | none => []
  | some r => (r.fields.filter isStored).map (fieldOf off)

/-- From `s` to `u` nothing has changed but what a served write of the register at `off` stores: its own fields, the shadows, the half that
BAR0 held and a page's count of dropped halves (R9, R25). -/
def Stored (off : Nat) (s u : State) : Prop :=
  u.live = s.live ∧ (∀ f : Fld, f.key % 32768 ≠ 243 → f.key ∉ (rowFields off).map (·.key) → rget u f = rget s f)
    ∧ ∀ p : Part, p ≠ .spine → p ≠ .shad → p.same s u

/-- The register at `off` has been written, and beside what that stores nothing has changed but the parts `ps` and the fields `rs`. -/
def Wrote (off : Nat) (ps : List Part) (rs : List Fld) (s t : State) : Prop := ∃ u, Stored off s u ∧ Only ps rs u t

/-! ### Scribes -/

/-- The word at the PC of the half that a scribe command names. -/
def wordOf (a : ScrAt) (s : State) : Nat := scrWord s (sideIdx a.side)

/-- A scribe command with code `op` is due at the half that it names: PORST_N is high, a slot runs there and waits for nothing, and the word at its
PC has that OP and passes its parity (R352, R353, R355). -/
def AtCommand (op : Nat) (a : ScrAt) (s : State) : Prop :=
  Up s ∧ a.bad = false ∧ scrReady s (sideIdx a.side) = true ∧ wOp (wordOf a s) = op

/-- The half's PC has gone on by one word. -/
def StepsOn (h : Nat) (s t : State) : Prop := scrPc t h = (scrPc s h + 1) % 32768

/-- Nothing has changed but the PC of half `h`, which is `pc`. -/
def PcOnly (h pc : Nat) (s t : State) : Prop := scrPc t h = pc ∧ Only [] [sf h F.SCRR_STATE.PC] s t

/-- Half `h` has stepped on with `v` in tablet `i`, and nothing else has changed. -/
def TabletOnly (h i v : Nat) (s t : State) : Prop :=
  tbGet t h i = v ∧ (∀ j, j ≠ i → tbGet t h j = tbGet s h j) ∧ { half t h with tb := (half s h).tb } = half s h
    ∧ (∀ k, k ≠ h → half t k = half s k) ∧ StepsOn h s t ∧ Only [.halves] [sf h F.SCRR_STATE.PC] s t

/-- Half `h` has stepped on with `v` in the word of its memory at `x`, and nothing else has changed. -/
def WordOnly (h x v : Nat) (s t : State) : Prop :=
  memGet t h x = v ∧ (∀ j, j % 32768 ≠ x % 32768 → memGet t h j = memGet s h j) ∧ { half t h with mem := (half s h).mem } = half s h
    ∧ (∀ k, k ≠ h → half t k = half s k) ∧ StepsOn h s t ∧ Only [.halves] [sf h F.SCRR_STATE.PC] s t

/-- Half `h` has ended a wait and stepped on with `v` in tablet `i`. -/
def WokeWith (h i v : Nat) (s t : State) : Prop :=
  tbGet t h i = v ∧ (∀ j, j ≠ i → tbGet t h j = tbGet s h j) ∧ { half t h with tb := (half s h).tb } = { half s h with wait := .none }
    ∧ (∀ k, k ≠ h → half t k = half s k) ∧ StepsOn h s t ∧ Only [.halves] [sf h F.SCRR_STATE.PC] s t

/-- The fields that the fault of a slot writes: SCRx_FAULT, FAULTS, the page's EVT_PEND, the tablets shown, and PC, SLOT and IDLE. -/
def faultFields (h : Nat) : List Fld :=
  [sf h F.SCRR_FAULT.CODE, sf h F.SCRR_FAULT.SLOT, sf h F.SCRR_FAULT.PC, sf h F.SCRR_FAULT.STROKE_LO, sf h F.SCRR_COUNT.FAULTS,
    F.EVT_PEND.PEND (halfPage h), sf h F.SCRR_STATE.PC, sf h F.SCRR_STATE.SLOT, sf h F.SCRR_STATE.IDLE]
    ++ (List.range 16).map (fun i => sf h (F.SCRR_TB.VALUE i))

/-- The slot of half `h` has ended with fault `code` (R355): SCRx_FAULT holds CODE, SLOT, the PC of the command and the stroke, FAULTS has counted,
SRC[1] is pending, no slot runs, and nothing else has changed. -/
def Faulted (h code : Nat) (s t : State) : Prop :=
  rget t (sf h F.SCRR_FAULT.CODE) = code ∧ rget t (sf h F.SCRR_FAULT.SLOT) = rget s (sf h F.SCRR_STATE.SLOT) % 16
    ∧ rget t (sf h F.SCRR_FAULT.PC) = scrPc s h % 32768 ∧ rget t (sf h F.SCRR_FAULT.STROKE_LO) = strokeNow s % 2 ^ 32
    ∧ rget t (sf h F.SCRR_COUNT.FAULTS) = min 65535 (rget s (sf h F.SCRR_COUNT.FAULTS) + 1) ∧ Pends (halfPage h) 1 t
    ∧ half t h = { half s h with run := none, wait := .none, stack := [] } ∧ Only [.halves, .eva] (faultFields h) s t

/-- The command of each OP of R353. -/
def scribeRows (a : ScrAt) : List (Nat × Instr) :=
  [(0x00, .scrNop a), (0x01, .scrEnd a), (0x02, .scrJmp a), (0x03, .scrJcc a), (0x04, .scrCall a), (0x05, .scrRet a), (0x06, .scrLdi a),
    (0x07, .scrLdih a), (0x08, .scrAlu a), (0x09, .scrAddi a), (0x10, .scrRd a), (0x11, .scrWr a), (0x12, .scrWri a), (0x13, .scrRmw a),
    (0x14, .scrPoll a), (0x18, .scrLdm a), (0x19, .scrStm a), (0x1A, .scrLdx a), (0x1B, .scrStx a), (0x20, .scrWaits a),
    (0x21, .scrWaitt a), (0x22, .scrWaite a), (0x28, .scrMbxs a), (0x29, .scrMbxg a), (0x30, .scrHbeat a), (0x31, .scrClaim a),
    (0x32, .scrRelease a), (0x33, .scrEvt a), (0x34, .scrFault a), (0x3F, .scrHalt a)]

/-- The fields of QUE_q_TAG and the counters that a pop of queue `q` writes (R256). -/
def popFields (q : Nat) : List Fld :=
  [F.QUE_q_TAG.FIRST q, F.QUE_q_TAG.END q, F.QUE_q_TAG.BLOT q, F.QUE_q_TAG.UNDERRUN q, F.QUE_q_TAG.FLUSHED q, F.QUE_q_TAG.LOST q,
    F.QUE_q_TAG.LEFT q, F.QUE_q_COUNT.UNDERRUNS q, F.QUE_q_COUNT.BLOTS q, F.EVT_PEND.PEND pQUE]

/-- The fields that a read of TSU_NOW_S latches (R161). -/
def nowFields : List Fld :=
  [F.TSU_NOW_S.SECONDS, F.TSU_NOW_NS.NS, F.TSU_NOW_NS.FRAC, F.TSU_NOW_STROKE.STROKE, F.TSU_STRIKE_S.SECONDS, F.TSU_STRIKE_NS.NS,
    F.TSU_STRIKE_NS.FRAC]

/-- All that a register read can write (R26, R161, R256). -/
def readFields : List Fld := nowFields ++ (List.range 7).flatMap popFields

/-- The scribe of half `h` waits at its command, and nothing else has changed. -/
def WaitsOnly (h : Nat) (x : Wait) (s t : State) : Prop :=
  half t h = { half s h with wait := x } ∧ (∀ k, k ≠ h → half t k = half s k) ∧ Only [.halves] [] s t

/-! ### The slow scan -/

/-- What the end of slow lane `k`'s step leaves (R59, R60, R62, R70): the word of its channel with value and flags `x`, the check that it
carries, the result count and the source off. -/
def SlowStepEnds (k check : Nat) (x : Samp) (centre : Nat) (s t : State) : Prop :=
  let c := laneChan s k
  t.filt.words = s.filt.words ++ [⟨512 + c, 0, rget s (F.SLOW_STATUS.COUNT c), x, strikeTime s - (strokeNow s - centre) * 64000000 * mLive s⟩]
    ∧ rget t (F.SLOW_STATUS.VALUE c) = ofInt 32 x.v ∧ rget t (F.SLOW_STATUS.FLAGS c) = x.fl % 2 ^ 6 ∧ rget t (F.SLOW_STATUS.CHECK c) = check
    ∧ rget t (F.SLOW_STATUS.COUNT c) = (rget s (F.SLOW_STATUS.COUNT c) + 1) % 256
    ∧ (needsExc (wiring s c) = true → rget t (F.EXC_STATUS.IN_USE (slowSrc s c)) = 0)
    ∧ Only [.lanes, .filt, .trim, .eva] [F.SLOW_STATUS.VALUE c, F.SLOW_STATUS.FLAGS c, F.SLOW_STATUS.CHECK c, F.SLOW_STATUS.COUNT c,
        F.SLOW_STATUS.LEAD_MILLI c, F.EXC_STATUS.IN_USE (slowSrc s c), F.EVT_PEND.PEND pSLOW, F.TRIM_STATUS.PENDING] s t

/-! ### The invariant of every step -/

/-- The wear ledger is in canonical form, in slots 0 to 511, each with an entry of 64 bits that is not 0 (R88, R89). -/
def WearOk (s : State) : Prop := mwf zeroAt s.nibs.ledger = true ∧ ∀ e ∈ s.nibs.ledger, e.1 < 512 ∧ e.2 < 2 ^ 64

/-- The live copies of all that commits on a stroke: register fields, filter descriptors, sessions and keys, record rings and trim (R9, R37, R43,
R107). -/
def LiveSame (s t : State) : Prop :=
  t.live = s.live ∧ t.filt.desc = s.filt.desc ∧ t.duc.sess = s.duc.sess ∧ t.duc.keys = s.duc.keys ∧ t.ink.rsel = s.ink.rsel
    ∧ t.trim.wt = s.trim.wt ∧ t.trim.feOfs = s.trim.feOfs ∧ t.trim.feGain = s.trim.feGain

end Sys2Proof.Machine
end

