-- ==== Sys2Proof/Certificates/Slice0/Obligations.lean ====
section
/-!
DEFINITION. The statements for the provers. Each docstring names the rules of the spec that it formalises, or says that it is the model's choice.
-/

open Sys2Proof Sys2Proof.Machine

/-- A step takes the command at the front of the queue and runs it on the state with the rest of the queue. -/
def Obligations.StepRunsFront : Prop :=
  ∀ (c : Instr) (q : List Instr) (s : State), step { s with pending := c :: q } = exec c { s with pending := q }

/-- On an empty queue the block idles (the model's choice, log entry 63). -/
def Obligations.StepIdle : Prop :=
  ∀ s : State, s.pending = [] → step s = .next s

/-- Every command completes at every state, and leaves the queue behind it as it is: the model has no fault and no refusal. -/
def Obligations.EveryCommandCompletes : Prop :=
  ∀ (c : Instr) (s : State), ∃ t, exec c s = .next t ∧ t.pending = s.pending

/-- R365: while PORST_N is low nothing acts but its release and its assertion. -/
def Obligations.HeldUntilRelease : Prop :=
  ∀ (c : Instr) (s : State), s.boot.held = true → c ≠ .porstNAssert → (∀ b, c ≠ .porstNRelease b) → exec c s = .next s

/-- R9, R37: the live values that commit on a stroke change on a strike only, but for the end of a flourish and a nib's change of state (R92, R434), the
boot's APPLY (R376), and a reset (R365). -/
def Obligations.LiveChangesOnStrike : Prop :=
  ∀ (c : Instr) (s t : State), exec c s = .next t → (∀ e, c ≠ .strike e) → (∀ h b, c ≠ .bootApplyDone h b) → c ≠ .porstNAssert → (∀ r, c ≠ .brownoutReset r) →
    (∀ k, c ≠ .flourishDone k) → (∀ n, c ≠ .nibRetireEffect n) → LiveSame s t

/-- R45, R365: only a strike moves the time of the latest strike, and only a reset makes the hub unstruck. -/
def Obligations.StrikeTimeOnStrike : Prop :=
  ∀ (c : Instr) (s t : State), exec c s = .next t → (∀ e, c ≠ .strike e) → c ≠ .porstNAssert → (∀ r, c ≠ .brownoutReset r) →
    t.struck = s.struck ∧ t.strikeDclk = s.strikeDclk

/-- The reset state's wear ledger has its form. -/
def Obligations.WearOkAtReset : Prop := WearOk State.reset

/-- R88, R89: every step keeps the wear ledger's form, from every state that has it. -/
def Obligations.WearOkKept : Prop :=
  ∀ s t : State, WearOk s → step s = .next t → WearOk t

/-- R88, R89, R397: no step changes or clears a ledger entry that has been written, and no step clears a fuse, whatever the command, PORST_N
included. -/
def Obligations.WearOnlyGrows : Prop :=
  ∀ s t : State, WearOk s → step s = .next t →
    (∀ k v, mget zeroAt s.nibs.ledger k = v → v ≠ 0 → mget zeroAt t.nibs.ledger k = v) ∧ s.boot.fuses ||| t.boot.fuses = t.boot.fuses

/-- R26: an access to an offset that holds no register completes; a read of it returns 0, and a write is ignored and counted in UNIMPL of its page, or
of SYS where it lies in no page. -/
def Obligations.UnimplementedSlots : Prop :=
  ∀ (s : State) (r : Req) (off v cyc : Nat) (bad : Bool), Up s → isReg off = false →
    let a := accessBegins r.who s
    let page := if allPages.contains (pageAt off) then pageAt off else pSYS
    Runs (.registerWrite r off v) s (fun t =>
        rget t (F.PAGE_STATUS.UNIMPL page) = min 65535 (rget a (F.PAGE_STATUS.UNIMPL page) + 1) ∧ Only [] [F.PAGE_STATUS.UNIMPL page] a t)
    ∧ (s.spine.hold = none → Runs (.halfReadLow cyc off bad) s (fun t =>
        t.out = s.out ++ [.read .bar0 off 0] ∧ t.spine.latch = some (off, 0) ∧ Only [.spine, .out] [] s t))

/-- R225: a coarse value is VALUE / 2^CSHIFT rounded half to even and limited to ±32,767; 0x8000 stands for SKIP and OPEN alone; a CSHIFT outside 10 to 16
is stored as the nearer end. -/
def Obligations.CoarseCode : Prop :=
  ∀ (k w : Nat) (x : Samp),
    ((bitSet x.fl flSKIP = true ∨ bitSet x.fl flOPEN = true) → coarseCode k (some x) = 0x8000)
    ∧ (bitSet x.fl flSKIP = false → bitSet x.fl flOPEN = false → coarseCode k (some x) ≠ 0x8000 ∧ ∃ q : Int,
        2 * |q * 2 ^ k - x.v| ≤ 2 ^ k ∧ (2 * |q * 2 ^ k - x.v| = 2 ^ k → q % 2 = 0)
          ∧ asInt 16 (coarseCode k (some x)) = max (-32767) (min 32767 q))
    ∧ slice 19 5 (sessStore 0 w) = max 10 (min 16 (slice 19 5 w))

/-- R365, R366, R380: PORST_N low resets the hub but for its fuses and its ledger, with CAUSE 1, and a brownout does so with CAUSE 2 and the rails;
the release starts both boot ROMs and samples BOOT_NET; the stroke PLL locks in STAGE 1, and after STRIKING it loses and regains REFIN. -/
def Obligations.PowerAndPll : Prop :=
  ∀ (s : State) (b : Bool) (us rails : Nat),
    let isReset (cause fell : Nat) (t : State) : Prop := t.boot.held = true ∧ t.struck = false ∧ t.live = [] ∧ t.shad = [] ∧ t.queues = []
      ∧ t.halves = [] ∧ t.caps = [] ∧ t.boot.fuses = s.boot.fuses ∧ t.nibs.ledger = s.nibs.ledger ∧ t.pending = s.pending
      ∧ rget t F.SYS_RST.CAUSE = cause ∧ rget t F.SYS_RST.RAILS = fell
      ∧ ∀ f : Fld, f.key ∉ [F.SYS_RST.CAUSE.key, F.SYS_RST.RAILS.key] → rget t f = rget State.reset f
    Runs .porstNAssert s (isReset 1 0)
    ∧ (Up s → rails < 256 → Runs (.brownoutReset rails) s (isReset 2 rails))
    ∧ (s.boot.held = true → halfState s 0 = 0 → halfState s 1 = 0 → Runs (.porstNRelease b) s (fun t => t.boot.held = false
        ∧ rget t F.SYS_FUSE.BOOT_NET = b.toNat ∧ halfState t 0 = 1 ∧ halfState t 1 = 1 ∧ rget t F.MON_WEAR.PEN_OK = 1 ∧ t.boot.fuses = s.boot.fuses))
    ∧ (Up s → rget s F.SYS_STAGE.STAGE = 1 → us < 2 ^ 32 → Runs (.pllLock us) s (fun t => rget t F.SYS_CLK.LOCKED = 1
        ∧ rget t F.SYS_CLK.LOCK_US = us ∧ rget t F.SYS_STAGE.STAGE = 2 ∧ rget t F.SYS_CLK.SRC = (if rget s F.ILK_CFG.ROLE = 0 then 1 else 0) ∧ Pends pSYS 0 t))
    ∧ (Up s → 3 ≤ rget s F.SYS_STAGE.STAGE → on s F.SYS_CLK.REF_PRESENT = true → Runs .refinLoss s (fun t => rget t F.SYS_CLK.REF_PRESENT = 0
        ∧ rget t F.SYS_CLK.LOCKED = 0 ∧ Pends pSYS 5 t ∧ Only [.eva] [F.SYS_CLK.REF_PRESENT, F.SYS_CLK.LOCKED, F.EVT_PEND.PEND pSYS] s t))
    ∧ (Up s → 3 ≤ rget s F.SYS_STAGE.STAGE → on s F.SYS_CLK.REF_PRESENT = false → Runs .refinReturn s (fun t => rget t F.SYS_CLK.REF_PRESENT = 1
        ∧ rget t F.SYS_CLK.LOCKED = 1 ∧ Only [] [F.SYS_CLK.REF_PRESENT, F.SYS_CLK.LOCKED] s t))

/-- R45, R376: the first strike strikes the stroke that the counter stands at and makes the hub strike; every later one takes the counter to the next
stroke, 500 M DCLK cycles on. A hub that may not strike yet does not. -/
def Obligations.StrikesFollow : Prop :=
  ∀ (s : State) (e : StrikeEnv), Up s →
    (mayStrike s = true → s.struck = true → Runs (.strike e) s (fun t => strokeNow t = (strokeNow s + 1) % 2 ^ 64
        ∧ t.strikeDclk = s.strikeDclk + 500 * (rget s F.SYS_STROKE_CFG.M_MINUS1 + 1) ∧ t.struck = true))
    ∧ (mayStrike s = true → s.struck = false → strokeNow s < 2 ^ 64 → Runs (.strike e) s (fun t => strokeNow t = strokeNow s
        ∧ t.strikeDclk = 512 * e.us ∧ t.struck = true))
    ∧ (mayStrike s = false → Runs (.strike e) s (· = s))

/-- R54, R56, R100: an AC channel whose sensor line leaves its window is OPEN from the coming stroke on, its cause by the side it left; 16 strikes inside end it,
with SETTLE for three strokes. In the acquisition window the PGAs take the ranges that hold on the coming stroke. -/
def Obligations.FrontEndMonitors : Prop :=
  ∀ (s : State) (c mV : Nat), Up s → c < 512 → let g := c / 16
    (rget s (fcMode c) = 2 → on s (fcOpen c) = false → (mV < 10 * rget s (F.FEGRP_CFG.AC_LO g) ∨ 10 * rget s (F.FEGRP_CFG.AC_HI g) < mV) →
      Runs (.acOpenTrip c mV) s (fun t => rget t (fcOpen c) = 1
        ∧ rget t (fcFault c) = (if mV < 10 * rget s (F.FEGRP_CFG.AC_LO g) then 1 else 2)
        ∧ bitSet (rget t (F.FEGRP_STATUS.OPEN_NOW g)) (c % 16) = true ∧ (chanFe t c).openFrom = nextStroke s ∧ Pends (fechPage c) 0 t
        ∧ Only [.chanFe, .eva] [fcOpen c, fcFault c, F.FEGRP_STATUS.OPEN_NOW g, F.EVT_PEND.PEND (fechPage c)] s t))
    ∧ (on s (fcOpen c) = true → 16 ≤ (chanFe s c).inRun → Runs (.openClear c) s (fun t => rget t (fcOpen c) = 0 ∧ rget t (fcFault c) = 0
        ∧ Pends (fechPage c) 1 t ∧ strokeNow s + 3 ≤ (chanFe t c).settleUntil
        ∧ Only [.chanFe, .eva] [fcOpen c, fcFault c, F.FEGRP_STATUS.OPEN_NOW g, F.EVT_PEND.PEND (fechPage c)] s t))
    ∧ Runs .acquisitionWindow s (fun t => Only [.acq] [] s t
        ∧ ∀ d, d < 512 → mget zeroAt t.acq.gains d
            = (if (committing (nextStroke s) s).contains (fechPage d) then sget s (fcRange d) else rget s (fcRange d)))

/-- R48, R93, R199, R229: a nib that ends the slot it has no claim in does nothing; a reference claim gives its group's VREFG and passes on to the next group.
A DX channel's result passes the turn on; a stroke's closure takes the oldest stroke that waits for it; a session's stroke frame leaves on a
port at 10GBASE-R in place of its rounds. -/
def Obligations.ConversionsAndClosure : Prop :=
  ∀ (s : State) (nib k d uv cyc g p addr udp : Nat) (v6 : Bool) (rdo parity : Bool) (full held ps : List Nat) (c : Cfg), Up s → nib < 72 →
    (claimOf s nib k = .idle → Runs (.conversionEnd nib k d rdo parity uv) s (· = s))
    ∧ (s.struck = true → claimOf s nib k = .refg g → g < 32 → 500000 ≤ uv → uv ≤ 5000000 → Runs (.conversionEnd nib k d false false uv) s (fun t =>
        rget t (F.FEGRP_REF.REFG_UV g) = uv ∧ rget t (F.FEGRP_REF.REFG_OK g) = 1 ∧ rget t (F.FEGRP_REF.AGE g) = 0
          ∧ (groupFe t g).refgStroke = strokeNow s ∧ t.nibs.refgNext = (g + 1) % 32 ∧ (nibSt t nib).convs = (nibSt s nib).convs + 1
          ∧ Only [.nibs, .groupFe] [F.FEGRP_REF.REFG_UV g, F.FEGRP_REF.REFG_OK g, F.FEGRP_REF.AGE g] s t))
    ∧ (s.nibs.dxN ≠ 0 → 2 ^ rget s F.NIB_DX.AVG ≤ s.nibs.dxN → Runs (.dxResult cyc) s (fun t => t.nibs.dxN = 0 ∧ t.nibs.dxSum = 0))
    ∧ (∀ r rest, s.trg.closing = r :: rest → Runs (.strokeClosure full held) s (fun t => t.trg.closing = rest))
    ∧ (coarseSessions s = [] → Runs .strokeFrameLaunch s (· = s))
    ∧ (coarseSessions s = [c] → coarseList s c ≠ [] → cCmode c = false → cDest2 c = false → cAuth c = false →
        destOf s c 0 = .net (destPorts (destOf s c 0)) v6 addr udp → dealPorts s (destPorts (destOf s c 0)) true = p :: ps → p < 4 →
        resolved s v6 addr = true → Runs .strokeFrameLaunch s (fun t =>
          t.out = s.out ++ [.datagram p v6 addr udp (strokeFrame s c 0 (coarseList s c))]
            ∧ rget t (F.ETH_TXDROP.ROUND_AS_STROKE p) = min (2 ^ 32 - 1) (rget s (F.ETH_TXDROP.ROUND_AS_STROKE p) + 1) ∧ Pends pETH 8 t
            ∧ Only [.out, .duc, .eva] [F.ETH_TXDROP.ROUND_AS_STROKE p, F.ETH_TXF.FRAMES p, F.ETH_TXB.BYTES p, F.EVT_PEND.PEND pETH] s t))

/-- R25: a low half that BAR0 writes is held, and a write of the same register's high half completes the pair (here to SCRATCH); a held half that is
given up is counted. A low half read latches the high half, which a read of it returns. -/
def Obligations.Bar0Halves : Prop :=
  ∀ (s : State) (cyc off v lo hi p : Nat) (bad : Bool), Up s →
    (s.spine.hold = none → Runs (.halfWriteLow off v) s (fun t => t.spine.hold = some (off, v % 2 ^ 32) ∧ Only [.spine] [] s t))
    ∧ (p ∈ allPages → s.spine.hold = some (p * 4096 + 0x68, lo) → lo < 2 ^ 32 → v < 2 ^ 32 →
        Runs (.halfWriteHigh cyc (p * 4096 + 0x68) v) s (fun t => rget t (F.SCRATCH.SCRATCH p) = v * 2 ^ 32 + lo ∧ t.spine.hold = none
          ∧ Only [.spine] [F.SCRATCH.SCRATCH p] s t))
    ∧ (pageAt off ∈ allPages → s.spine.hold = some (off, lo) → Runs .halfDiscardTimeout s (fun t => t.spine.hold = none
        ∧ rget t (F.PAGE_STATUS.HALF_DROPPED (pageAt off)) = min 255 (rget s (F.PAGE_STATUS.HALF_DROPPED (pageAt off)) + 1)
        ∧ Only [.spine] [F.PAGE_STATUS.HALF_DROPPED (pageAt off)] s t))
    ∧ (s.spine.hold = none → queueAt 0 off = none → queueAt 8 off = none → off ≠ 0x5088 → Runs (.halfReadLow cyc off bad) s (fun t =>
        t.spine.latch = some (off, regView s off / 2 ^ 32) ∧ t.out = s.out ++ [.read .bar0 off (regView s off % 2 ^ 32)] ∧ Only [.spine, .out] [] s t))
    ∧ (s.spine.hold = none → s.spine.latch = some (off, hi) → Runs (.halfReadHigh cyc off bad) s (fun t =>
        t.spine.latch = none ∧ t.out = s.out ++ [.read .bar0 off hi] ∧ Only [.spine, .out] [] s t))

/-- R26, R29, R30, R34, R36: a 64-bit write that OWNER and LOCK let through writes the register (here SCRATCH, which every requester may write); one that
they refuse changes nothing but the page's counter, LAST_REQ and HDR; one to no register only counts in UNIMPL. A read of TSU_NOW_S latches the time
registers (R161). -/
def Obligations.SpineWrites : Prop :=
  ∀ (s : State) (r : Req) (off v p : Nat), Up s → let a := accessBegins r.who s; let q := pageAt off
    (p ∈ allPages → Runs (.registerWrite r (p * 4096 + 0x68) v) s (fun t => rget t (F.SCRATCH.SCRATCH p) = v % 2 ^ 64
        ∧ Only [] [F.SCRATCH.SCRATCH p] a t))
    ∧ (isReg off = true → mayWrite r.who off s = false → penHolder s ≠ 3 → Runs (.registerWrite r off v) s (fun t =>
        rget t (F.PAGE_STATUS.OWN_DENIED q) = min 65535 (rget a (F.PAGE_STATUS.OWN_DENIED q) + 1)
          ∧ rget t (F.PAGE_STATUS.LAST_REQ q) = reqCode r.who ∧ Pends q 16 t
          ∧ Only [.eva, .spine] [F.PAGE_STATUS.OWN_DENIED q, F.PAGE_STATUS.LAST_REQ q, F.EVT_PEND.PEND q] a t))
    ∧ (isReg off = true → mayWrite r.who off s = true → isLocked off = true → on s (F.LOCK.LOCKED q) = true → Runs (.registerWrite r off v) s (fun t =>
        rget t (F.PAGE_STATUS.LOCK_DENIED q) = min 65535 (rget a (F.PAGE_STATUS.LOCK_DENIED q) + 1)
          ∧ rget t (F.PAGE_STATUS.LAST_REQ q) = reqCode r.who ∧ Pends q 16 t
          ∧ Only [.eva, .spine] [F.PAGE_STATUS.LOCK_DENIED q, F.PAGE_STATUS.LAST_REQ q, F.EVT_PEND.PEND q] a t))
    ∧ (isReg off = false → q ∈ allPages → Runs (.registerWrite r off v) s (fun t =>
        rget t (F.PAGE_STATUS.UNIMPL q) = min 65535 (rget a (F.PAGE_STATUS.UNIMPL q) + 1) ∧ Only [] [F.PAGE_STATUS.UNIMPL q] a t))
    ∧ Runs (.tsuNowRead r) s (fun t => rget t F.TSU_NOW_STROKE.STROKE = strokeNow s % 2 ^ F.TSU_NOW_STROKE.STROKE.width
        ∧ t.out = s.out ++ [.read r.who 0x5088 (rget t F.TSU_NOW_S.SECONDS)] ∧ Only [.out] nowFields a t)

/-- R28: an SPI write frame with a fitting CRC and an aligned address joins the four that wait; a read frame and a status frame are answered at once when
none waits; a frame cut short and an unknown command byte are answered with NAK 5 and 3 and counted. -/
def Obligations.SpiFrames : Prop :=
  ∀ (s : State) (off v cmd cyc : Nat) (bad : Bool), Up s →
    let counted (nak : Nat) (t : State) : Prop := t.out = s.out ++ [.spi [] nak]
      ∧ rget t F.MON_COUNT.SPI_VIOL = min 65535 (rget s F.MON_COUNT.SPI_VIOL + 1)
      ∧ Only [.eva, .out] (F.MON_COUNT.SPI_VIOL :: F.EVT_PEND.PEND pMON :: (List.range 8).map F.MON_SPI_VLOG.ENTRY) s t
    (off % 8 = 0 → s.spine.spiQueue.length < 4 → Runs (.spiWriteFrame off v true false cyc) s (fun t =>
        t.spine.spiQueue = s.spine.spiQueue ++ [(off, v)] ∧ t.out = s.out ++ [.spi [] 0] ∧ Only [.spine, .out] [] s t))
    ∧ (off % 8 = 0 → s.spine.spiQueue = [] → queueAt 0 off = none → queueAt 8 off = none → off ≠ 0x5088 →
        Runs (.spiReadFrame off true bad cyc) s (fun t => t.out = s.out ++ [.spi [regView s off] 0] ∧ Only [.out] [] s t))
    ∧ (s.spine.spiQueue = [] → Runs (.spiStatusFrame true cyc) s (fun t =>
        t.out = s.out ++ [.spi [s.spine.served + s.spine.refused * 2 ^ 32] (if s.spine.refusedSeen < s.spine.refused then 6 else 0)]
          ∧ t.spine.refusedSeen = s.spine.refused ∧ Only [.spine, .out] [] s t))
    ∧ Runs (.spiCsReleasedMidFrame cmd) s (counted 5) ∧ (cmd ≠ 2 → cmd ≠ 3 → cmd ≠ 5 → Runs (.spiUnknownCommand cmd) s (counted 3))

/-- R29, R30, R36: a write to EVT_PEND clears the bits that are 1 in it; EVT_FORCE makes its sources pending; CLR_STATUS clears the page's counters. LOCK is
set by 1 and opens on CLEAR within 1,024 DCLK cycles of its key from the same requester. -/
def Obligations.PageHeaders : Prop :=
  ∀ (s : State) (r : Req) (p v b : Nat), p ∈ allPages → b < 17 → let a := accessBegins r.who s; let now := s.strikeDclk + r.cyc
    (Up s → Runs (.evtPendClear r p v) s (fun t => bitSet (rget t (F.EVT_PEND.PEND p)) b = (bitSet (rget s (F.EVT_PEND.PEND p)) b && !bitSet v b)
        ∧ Only [] [F.EVT_PEND.PEND p] a t))
    ∧ (Up s → bitSet v b = true → Runs (.evtForce r p v) s (fun t => Pends p b t ∧ Only [.eva] [F.EVT_PEND.PEND p] a t))
    ∧ (Up s → Runs (.clrStatus r p v) s (fun t => (∀ f ∈ counterFlds p, rget t f = 0) ∧ rget t (F.PAGE_STATUS.OWN_DENIED p) = 0
        ∧ rget t (F.PAGE_STATUS.LOCK_DENIED p) = 0 ∧ rget t (F.PAGE_STATUS.UNIMPL p) = 0 ∧ rget t (F.PAGE_STATUS.HALF_DROPPED p) = 0))
    ∧ (Served r.who (p * 4096 + 0x58) s →
        Runs (.lockSet r p) s (fun t => rget t (F.LOCK.LOCKED p) = 1 ∧ Only [] [F.LOCK.LOCKED p] a t)
        ∧ Runs (.lockKey r p) s (fun t => (∀ c, keyOpen p r.who c t = decide (c ≤ now + 1024)) ∧ Only [.spine] [] a t)
        ∧ (on s (F.LOCK.LOCKED p) = true → keyOpen p r.who now s = true → Runs (.lockClear r p) s (fun t =>
            rget t (F.LOCK.LOCKED p) = 0 ∧ (∀ w c, keyOpen p w c t = false) ∧ Only [.spine] [F.LOCK.LOCKED p] a t)))

/-- R31, R37 to R40: a commit set is armed for the stroke that a write of COMMIT_STROKE names, for the first that meets the commit rule on COMMIT_NEXT, and
disarmed by all ones; 64 DCLK cycles before its strike it is sealed; DISCARD puts the live values back into the page's shadows. -/
def Obligations.CommitSetsArmed : Prop :=
  ∀ (s : State) (r : Req) (p n m v k : Nat), p ∈ allPages → let a := accessBegins r.who s; let c := setOf s p
    (Served r.who (p * 4096 + 0x48) s → (commitSet s c).isSealed = false →
      (n < 2 ^ 64 - 1 → penHolder s ≠ 3 → on s (F.COMMIT_SET.DOMAIN p) = false → armOutcome s n (r.cyc + 6) = .on m →
        Runs (.commitStrokeArm r p n) s (fun t => (commitSet t c).armed = some m ∧ (∀ j, j ≠ c → commitSet t j = commitSet s j) ∧ Only [.sets] [] a t))
      ∧ Runs (.commitDisarm r p) s (fun t => (commitSet t c).armed = none ∧ (∀ j, j ≠ c → commitSet t j = commitSet s j) ∧ Only [.sets] [] a t))
    ∧ (Served r.who (p * 4096 + 0x40) s → bitSet v 1 = false → (commitSet s c).isSealed = false → penHolder s ≠ 3 →
        on s (F.COMMIT_SET.DOMAIN p) = false → firstMeeting s (r.cyc + 6) < 2 ^ 64 - 1 → Runs (.commitNext r p v) s (fun t =>
          (commitSet t c).armed = some (firstMeeting s (r.cyc + 6)) ∧ Only [.sets] [F.SHADOW_CTRL.READ_SHADOW p] a t))
    ∧ (Served r.who (p * 4096 + 0x40) s → bitSet v 2 = false → (commitSet s c).isSealed = false →
        (∀ f ∈ strokeKeys p, rget s f < 2 ^ f.width) → Runs (.shadowDiscard r p v) s (fun t => ∀ f ∈ strokeKeys p, sget t f = rget s f))
    ∧ (Up s → k < 8 → (commitSet s k).armed = some (nextStroke s) → Runs (.commitSeal k) s (fun t =>
        commitSet t k = { commitSet s k with isSealed := true } ∧ (∀ j, j ≠ k → commitSet t j = commitSet s j) ∧ Only [.sets] [] s t))

/-- R43: GO on a window. OP read brings the entry's word into DATA_LO and DATA_HI and OP write takes it from there, here through the windows of the
scribe memories; OP invalidate drops an entry of the TLB; BUSY is 1 until the operation ends, which advances WORD where AUTOINC is 1. -/
def Obligations.WindowOperations : Prop :=
  ∀ (s : State) (r : Req) (w h : Nat), h < 2 →
    let off (w : Nat) : Nat := winOff w + 24
    let at' (w e : Nat) : Prop := rget s (wBUSY w) = 0 ∧ rget s (wENTRY w) = e ∧ rget s (wWORD w) = 0
    (∀ e, e < 16384 → Served r.who (off (10 + h)) s → at' (10 + h) e →
      Runs (.windowRead r (10 + h)) s (fun t => rget t (wBUSY (10 + h)) = 1 ∧ rget t (wLO (10 + h)) = memGet s h (2 * e)
          ∧ rget t (wHI (10 + h)) = memGet s h (2 * e + 1))
      ∧ (halfState s h = 5 → rget s (wLO (10 + h)) < 2 ^ 64 → Runs (.windowWrite r (10 + h)) s (fun t => rget t (wBUSY (10 + h)) = 1
          ∧ memGet t h (2 * e) = rget s (wLO (10 + h)) % 2 ^ 64 ∧ memGet t h (2 * e + 1) = rget s (wHI (10 + h)) % 2 ^ 64)))
    ∧ (∀ e, e < 1024 → Served r.who (off 7) s → at' 7 e → Runs (.windowInvalidate r 7) s (fun t => rget t (wBUSY 7) = 1
        ∧ t.dma.tlb = s.dma.tlb.filter (fun x => x.slot != e)))
    ∧ (Up s → w < 14 → rget s (wBUSY w) = 1 →
        (rget s (wAUTOINC w) = 0 → Runs (.windowOpDone w) s (fun t => rget t (wBUSY w) = 0 ∧ Only [] [wBUSY w] s t))
        ∧ (rget s (wAUTOINC w) = 1 → rget s (wWORD w) + 1 < (winDims w).2 → Runs (.windowOpDone w) s (fun t => rget t (wBUSY w) = 0
            ∧ rget t (wWORD w) = rget s (wWORD w) + 1 ∧ rget t (wENTRY w) = rget s (wENTRY w) ∧ Only [] [wBUSY w, wWORD w] s t)))

/-- R59 to R63: each event of slow lane `k` is the end of the stage that the lane is in. The mux step is followed by the open check or, with the
excitation on, by the settle time; the check is judged by the two thresholds; a window begins with its integrators at zero; window 1 is followed
by the sense switch for the wirings that have a second window, and by the end of the step for the others. -/
def Obligations.SlowLaneStages : Prop :=
  ∀ (s : State) (k ohm : Nat), Up s → k < 4 → (lane s k).ch < 16 →
    let c := laneChan s k
    rget s (F.SLOW_CFG.SRC c) < 4 →
    ((lane s k).stage = .mux → on s (F.SLOW_CFG.CHECK_EN c) = true → Runs (.slowMuxStepEnd k) s (fun t =>
        lane t k = { lane s k with stage := .check } ∧ (∀ j, j ≠ k → lane t j = lane s j) ∧ Only [.lanes] [] s t))
    ∧ ((lane s k).stage = .mux → on s (F.SLOW_CFG.CHECK_EN c) = false → Runs (.slowMuxStepEnd k) s (fun t =>
        lane t k = { lane s k with stage := .settle } ∧ (∀ j, j ≠ k → lane t j = lane s j)
          ∧ (needsExc (wiring s c) = true → rget t (F.EXC_STATUS.IN_USE (slowSrc s c)) = 1)
          ∧ Only [.lanes] (if needsExc (wiring s c) then [F.EXC_STATUS.IN_USE (slowSrc s c)] else []) s t))
    ∧ ((lane s k).stage = .check → Runs (.slowOpenCheckEnd k ohm) s (fun t =>
        rget t (F.SLOW_STATUS.CHECK c) = (if rget s (F.SLOW_CFG.OPEN_KOHM c) * 1000000 < ohm then 1 else if ohm < rget s (F.SLOW_CFG.SHORT_MILLI c) then 2 else 0)
          ∧ lane t k = { lane s k with stage := .settle, chk := rget t (F.SLOW_STATUS.CHECK c) }
          ∧ (needsExc (wiring s c) = true → rget t (F.EXC_STATUS.IN_USE (slowSrc s c)) = 1)
          ∧ Only [.lanes] (F.SLOW_STATUS.CHECK c :: if needsExc (wiring s c) then [F.EXC_STATUS.IN_USE (slowSrc s c)] else []) s t))
    ∧ ((lane s k).stage = .settle → Runs (.slowSettleEnd k) s (fun t =>
        lane t k = { lane s k with stage := .window1, ints := [], prevs := [], convs := 0, sum := 0, sat := false, w1Start := strokeNow s } ∧ Only [.lanes] [] s t))
    ∧ ((lane s k).stage = .window1 → windowFull s k = true → twoWindows (wiring s c) = true → Runs (.slowWindow1End k) s (fun t =>
        lane t k = { lane s k with stage := .sense, w1 := windowValue s k, w1End := strokeNow s } ∧ Only [.lanes] [] s t))
    ∧ ((lane s k).stage = .sense → Runs (.slowSenseSwitchEnd k) s (fun t =>
        lane t k = { lane s k with stage := .window2, ints := [], prevs := [], convs := 0, sum := 0, sat := false } ∧ Only [.lanes] [] s t))

/-- R59, R60, R62, R63, R104: the last window of a step gives its channel's result by R59; a failed check, or a source that left compliance, gives an
OPEN word of value 0; a source of ICODE 0 gives a SKIP word. A source's loss of compliance is shown and counted once for the step that it
drives. A calibration step counts down its windows and the lane then scans on. -/
def Obligations.SlowStepResults : Prop :=
  ∀ (s : State) (k src : Nat), Up s → k < 4 → (lane s k).ch < 16 → rget s (F.SLOW_CFG.SRC (laneChan s k)) < 4 →
    let c := laneChan s k
    let l := lane s k
    let driven := needsExc (wiring s c) = true → rget s (F.EXC_CFG.ICODE (slowSrc s c)) ≠ 0
    let w2 := windowValue s k
    let w1 := windowValue s k
    let none : Samp := { v := 0, fl := 0, rng := 0 }
    (l.stage = .window1 → windowFull s k = true → (wiring s c = 1 ∨ wiring s c = 3 ∨ wiring s c = 5) → nServ s ≠ 0 → driven → l.chk = 0 → l.compl = false →
        Runs (.slowWindow1End k) s (SlowStepEnds k 0 (slowValue s c w1 none).1 ((l.w1Start + strokeNow s) / 2) s))
    ∧ (l.stage = .window2 → windowFull s k = true → wiring s c = 2 → nServ s ≠ 0 → driven → l.chk = 0 → l.compl = false →
        Runs (.slowWindow2End k) s (fun t => SlowStepEnds k 0 (slowValue s c l.w1 w2).1 ((l.w1Start + l.w1End) / 2) s t
          ∧ rget t (F.SLOW_STATUS.LEAD_MILLI c) = (slowValue s c l.w1 w2).2.1 % 2 ^ 16))
    ∧ (l.stage = .window2 → windowFull s k = true → nServ s ≠ 0 → driven → (l.chk = 1 ∨ l.chk = 2) →
        Runs (.slowWindow2End k) s (fun t => SlowStepEnds k l.chk { v := 0, fl := 2 ^ flOPEN, rng := 0 } ((l.w1Start + l.w1End) / 2) s t ∧ Pends pSLOW 0 t))
    ∧ (l.stage = .window2 → windowFull s k = true → nServ s ≠ 0 → driven → l.chk = 0 → l.compl = true →
        Runs (.slowWindow2End k) s (fun t => SlowStepEnds k 3 { v := 0, fl := 2 ^ flOPEN, rng := 0 } ((l.w1Start + l.w1End) / 2) s t ∧ Pends pSLOW 0 t))
    ∧ (l.stage = .window2 → windowFull s k = true → needsExc (wiring s c) = true → rget s (F.EXC_CFG.ICODE (slowSrc s c)) = 0 → l.chk < 4 →
        Runs (.slowWindow2End k) s (SlowStepEnds k l.chk { v := 0, fl := 2 ^ flSKIP, rng := 0 } ((l.w1Start + l.w1End) / 2) s))
    ∧ (src < 16 → src / 4 = k → (l.stage = .window1 ∨ l.stage = .window2) → needsExc (wiring s c) = true → slowSrc s c = src → l.compl = false →
        Runs (.excComplianceLoss src) s (fun t => lane t k = { l with compl := true } ∧ rget t (F.EXC_STATUS.COMPL src) = 1
          ∧ rget t (F.EXC_STATUS.COMPL_CNT src) = min 65535 (rget s (F.EXC_STATUS.COMPL_CNT src) + 1) ∧ Pends pEXC 0 t
          ∧ Only [.lanes, .eva] [F.EXC_STATUS.COMPL src, F.EXC_STATUS.COMPL_CNT src, F.EVT_PEND.PEND pEXC] s t))
    ∧ (l.stage = .cal → 1 < l.calLeft → Runs (.laneCalWindowEnd k) s (fun t => lane t k = { l with calLeft := l.calLeft - 1 } ∧ Only [.lanes] [] s t))
    ∧ (l.stage = .cal → l.calLeft = 1 → l.calDue = false → Runs (.laneCalWindowEnd k) s (fun t =>
        (lane t k).calLeft = 0 ∧ ((lane t k).stage = .mux ∨ (lane t k).stage = .idle) ∧ Only [.lanes] [] s t))

/-- R87: NIB_RETIRE written with its key decides a retirement (reason 6, by the host), a parking or an unparking of a nib whose state allows it; any
other write of it with an operation is refused and counted, and nothing else comes of it. -/
def Obligations.NibRequests : Prop :=
  ∀ (s : State) (r : Req) (nib key : Nat), Served r.who (regOff F.NIB_RETIRE.OP) s → nib < 72 → (∀ x ∈ s.nibs.retiring, x.1 ≠ nib) →
    let off := regOff F.NIB_RETIRE.OP
    let decided (op reason : Nat) (t : State) : Prop := t.nibs.retiring = s.nibs.retiring ++ [(nib, op, reason)] ∧ Wrote off [.nibs] [] s t
    let refused (t : State) : Prop := rget t F.NIB_COUNT.RETIRE_REFUSED = min 255 (rget s F.NIB_COUNT.RETIRE_REFUSED + 1)
      ∧ Wrote off [] [F.NIB_COUNT.RETIRE_REFUSED] s t
    (nibState s nib ≠ 3 → Runs (.nibRetire r nib 0x9B1D) s (decided 1 6))
    ∧ (nibState s nib < 2 → Runs (.nibPark r nib 0x9B1D) s (decided 2 0))
    ∧ (nibState s nib = 2 → Runs (.nibUnpark r nib 0x9B1D) s (decided 3 0))
    ∧ (nibState s nib = 3 → Runs (.nibRetire r nib 0x9B1D) s refused)
    ∧ (2 ≤ nibState s nib → Runs (.nibPark r nib 0x9B1D) s refused)
    ∧ (nibState s nib ≠ 2 → Runs (.nibUnpark r nib 0x9B1D) s refused)
    ∧ (key % 2 ^ 16 ≠ 0x9B1D → Runs (.nibRetire r nib key) s refused ∧ Runs (.nibPark r nib key) s refused ∧ Runs (.nibUnpark r nib key) s refused)

/-- R85, R88, R89: a decided change of a nib takes effect between two strokes: a retired nib leaves the pool for good, with its reason, and its entry
goes on its way to the ledger; a parked one leaves it; an unparked one is a reserve that may join at once. The end of a ledger write puts what the
array holds into the ledger's next empty slot, shows the slots used, and takes the entry off the queue; one that does not read back as written
is written once more, into the slot after it. -/
def Obligations.NibEffects : Prop :=
  ∀ (s : State) (nib reason v : Nat), Up s → nib < 72 → reason < 16 →
    (s.nibs.retiring.find? (fun x => x.1 == nib) = some (nib, 1, reason) → nibState s nib ≠ 3 → Runs (.nibRetireEffect nib) s (fun t =>
        nibState t nib = 3 ∧ rget t (F.NIB_STAT.REASON nib) = reason ∧ t.nibs.retiring = s.nibs.retiring.filter (fun x => x.1 != nib)
          ∧ t.nibs.ledgerQ = s.nibs.ledgerQ ++ [{ entry := ledgerEntry 1 nib reason s }]
          ∧ Within [.nibs, .filt, .trim, .eva, .shad] [pNIB, pTRIM, pFLT, pMON] s t))
    ∧ (s.nibs.retiring.find? (fun x => x.1 == nib) = some (nib, 2, 0) → nibState s nib < 2 → Runs (.nibRetireEffect nib) s (fun t =>
        nibState t nib = 2 ∧ t.nibs.retiring = s.nibs.retiring.filter (fun x => x.1 != nib) ∧ t.nibs.ledgerQ = s.nibs.ledgerQ
          ∧ Within [.nibs, .filt, .trim, .eva, .shad] [pNIB, pTRIM, pFLT, pMON] s t))
    ∧ (s.nibs.retiring.find? (fun x => x.1 == nib) = some (nib, 3, 0) → nibState s nib = 2 → Runs (.nibRetireEffect nib) s (fun t =>
        nibState t nib < 2 ∧ t.nibs.retiring = s.nibs.retiring.filter (fun x => x.1 != nib) ∧ t.nibs.ledgerQ = s.nibs.ledgerQ
          ∧ Within [.nibs, .filt, .trim, .eva, .shad] [pNIB, pTRIM, pFLT, pMON] s t))
    ∧ (∀ q rest, s.nibs.ledgerQ = q :: rest → ledgerNext s.nibs.ledger < 512 → q.entry ≠ 0 → q.entry < 2 ^ 64 →
        Runs (.ledgerWriteDone q.entry) s (fun t => t.nibs.ledger = mput zeroAt (ledgerNext s.nibs.ledger) q.entry s.nibs.ledger ∧ t.nibs.ledgerQ = rest
          ∧ rget t F.NIB_LEDGER_SEL.USED = ledgerNext t.nibs.ledger % 2 ^ 10
          ∧ Only [.nibs, .eva] [F.NIB_LEDGER_SEL.USED, F.NIB_LEDGER_SEL.FULL, F.MON_WEAR.LEDGER_USED, F.MON_WEAR.LEDGER_FULL, F.EVT_PEND.PEND pMON, F.EVT_PEND.PEND pNIB] s t))
    ∧ (∀ q rest, s.nibs.ledgerQ = q :: rest → ledgerNext s.nibs.ledger < 512 → v % 2 ^ 64 ≠ 0 → v ≠ q.entry → q.retry = false →
        Runs (.ledgerWriteDone v) s (fun t => t.nibs.ledger = mput zeroAt (ledgerNext s.nibs.ledger) (v % 2 ^ 64) s.nibs.ledger
          ∧ t.nibs.ledgerQ = { q with retry := true } :: rest
          ∧ Only [.nibs, .eva] [F.NIB_LEDGER_SEL.USED, F.NIB_LEDGER_SEL.FULL, F.MON_WEAR.LEDGER_USED, F.MON_WEAR.LEDGER_FULL, F.EVT_PEND.PEND pMON, F.EVT_PEND.PEND pNIB] s t))

/-- R98, R377: a trigger is held while a run is in progress, and otherwise starts a run on the next stroke: on request, on schedule, at power-up, and
when the time that holds a kept one back is over. A held trigger shows in PENDING, the first cause stays, and PENDING clears when it is taken up. -/
def Obligations.TrimTriggers : Prop :=
  ∀ (s : State) (r : Req) (v : Nat), Up s →
    let off := regOff F.TRIM_CTRL.GO
    let taken (cause : Nat) (t : State) : Prop := t.trim.due = some cause ∧ rget t F.TRIM_STATUS.PENDING = 0
    let held (cause : Nat) (t : State) : Prop := t.trim.held = cause ∧ rget t F.TRIM_STATUS.PENDING = 1 ∧ t.trim.due = s.trim.due
    let frame (t : State) : Prop := Only [.trim] [F.TRIM_STATUS.PENDING] s t
    (Served r.who off s → bitSet v 1 = false →
        (trimBusy s = false → s.trim.due = none → Runs (.trimGo r v) s (fun t => taken 4 t ∧ Wrote off [.trim] [F.TRIM_STATUS.PENDING] s t))
        ∧ (trimBusy s = true → on s F.TRIM_STATUS.PENDING = false → Runs (.trimGo r v) s (fun t => held 4 t ∧ Wrote off [.trim] [F.TRIM_STATUS.PENDING] s t))
        ∧ (trimBusy s = true → on s F.TRIM_STATUS.PENDING = true → Runs (.trimGo r v) s (fun t => held s.trim.held t ∧ Wrote off [.trim] [F.TRIM_STATUS.PENDING] s t)))
    ∧ (∀ n, s.trim.schedFrom = some n → rget s F.TRIM_SCHED.PERIOD_S ≠ 0 → n + strokesOfSec (rget s F.TRIM_SCHED.PERIOD_S) s ≤ nextStroke s →
        (trimBusy s = false → trimGap s = false → s.trim.due = none → Runs .trimSchedule s (fun t => taken 3 t ∧ frame t))
        ∧ ((trimBusy s = true ∨ trimGap s = true) → on s F.TRIM_STATUS.PENDING = false → Runs .trimSchedule s (fun t => held 3 t ∧ frame t)))
    ∧ (s.struck = true → trimBusy s = false → s.trim.due = none → Runs .trimInitialRun s (fun t => taken 6 t ∧ frame t))
    ∧ (on s F.TRIM_STATUS.PENDING = true → trimGap s = false → Runs .trimMinGapExpiry s (fun t => taken s.trim.held t ∧ frame t))
    ∧ (on s F.TRIM_STATUS.PENDING = true → trimGap s = true → s.trim.held ≤ 3 → Runs .trimMinGapExpiry s (· = s))

/-- R98, R99, R100, R106, R107, R110: a due run starts with its cause and is counted; its front-end part ends after its strokes; with both parts done the
run goes on to the solver; the solver's outcome goes into TRIM_HIST, a passing run leaves its results staged, and a rejected one leaves what was
staged before. ABORT ends a run with outcome 6 and discards what is staged. -/
def Obligations.TrimRuns : Prop :=
  ∀ (s : State) (r : Req) (w cyc cause : Nat) (v : Solved), Up s →
    let off := regOff F.TRIM_CTRL.ABORT
    let rests (o : Nat) (t : State) : Prop := rget t (F.TRIM_HIST.OUTCOME 0) = o ∧ rget t F.TRIM_LAST.OUTCOME = o
      ∧ rget t (F.TRIM_HIST.CAUSE 0) = rget s F.TRIM_STATUS.CAUSE % 2 ^ 3 ∧ t.trim.lastEnd = some (strokeNow s) ∧ t.trim.feOn = false
    let o := (verdict s v).outcome
    (s.trim.due = some cause → cause < 8 → Runs .trimRunStart s (fun t => trimState t = 1 ∧ rget t F.TRIM_STATUS.CAUSE = cause ∧ t.trim.due = none ∧ t.trim.start = strokeNow s
        ∧ t.trim.runNo = s.trim.runNo + 1 ∧ t.trim.corr = [] ∧ t.trim.feOn = on s F.TRIM_CTRL.FE_EN ∧ t.trim.hold = on s F.TRIM_CTRL.HOLD
        ∧ rget t F.TRIM_COUNT.RUNS = min 65535 (rget s F.TRIM_COUNT.RUNS + 1) ∧ rget t F.TRIM_PROGRESS.NIB_DONE = 0 ∧ rget t F.TRIM_PROGRESS.FE_DONE = 0 ∧ Pends pTRIM 0 t
        ∧ Only [.trim, .lanes, .nibs, .eva] [F.TRIM_STATUS.STATE, F.TRIM_STATUS.CAUSE, F.TRIM_COUNT.RUNS, F.EVT_PEND.PEND pTRIM, F.TRIM_PROGRESS.NIB_DONE, F.TRIM_PROGRESS.FE_DONE] s t))
    ∧ (trimState s = 1 → s.trim.feOn = true → s.trim.feLen ≤ rget s F.TRIM_PROGRESS.FE_DONE → Runs .trimFePartEnd s (fun t => t.trim.feOn = false ∧ Only [.trim] [] s t))
    ∧ (trimState s = 1 → trimW ≤ rget s F.TRIM_PROGRESS.NIB_DONE → s.trim.feLen ≤ rget s F.TRIM_PROGRESS.FE_DONE → Runs .trimRunEnd s (fun t =>
        trimState t = 2 ∧ t.trim.feOn = false ∧ Only [.trim] [F.TRIM_STATUS.STATE] s t))
    ∧ (trimState s = 2 → o ≤ 2 → s.trim.hold = true → Runs (.trimSolverDone v cyc) s (fun t => rests o t ∧ trimState t = 3 ∧ t.trim.staged.isSome = true ∧ Pends pTRIM 1 t
        ∧ Within [.trim, .nibs, .queues, .eva] [pTRIM, pNIB, pEXC, pQUE] s t))
    ∧ (trimState s = 2 → 3 ≤ o → Runs (.trimSolverDone v cyc) s (fun t => rests o t ∧ trimState t = (if s.trim.staged.isSome then 3 else 0)
        ∧ t.trim.staged.isSome = s.trim.staged.isSome ∧ Pends pTRIM 4 t ∧ Within [.trim, .eva] [pTRIM, pEXC] s t))
    ∧ (Served r.who off s → bitSet w 0 = false → trimBusy s = true → pageSealed s pTRIM = false → Runs (.trimAbort r w) s (fun t =>
        t.trim.staged = none ∧ trimState t = 0 ∧ rests 6 t ∧ rget t F.TRIM_COUNT.ABORTED = min 65535 (rget s F.TRIM_COUNT.ABORTED + 1) ∧ Pends pTRIM 6 t
          ∧ ∃ u, Stored off s u ∧ Within [.trim, .eva] [pTRIM] u t))

/-- R125: a synchronising reset is armed under R38 by a write of FLT_SYNC for the stroke written (LATE slips one, a stroke already struck is refused and
leaves what was armed), by SYNC_NEXT and by an edge on SYNC_N for the first stroke that meets R38; all ones disarm it, and an edge while one
is armed is ignored. -/
def Obligations.SyncArming : Prop :=
  ∀ (s : State) (r : Req) (n m v cyc : Nat),
    let a := accessBegins r.who s
    let armed (x : Nat) (t : State) : Prop := t.filt = { s.filt with syncArmed := some x } ∧ rget t F.FLT_CTRL.SYNC_ARMED = 1 ∧ rget t F.FLT_SYNC.STROKE = x % 2 ^ 64
    let shown := [F.FLT_CTRL.SYNC_ARMED, F.FLT_SYNC.STROKE]
    (Served r.who (regOff F.FLT_SYNC.STROKE) s → syncSealed s (r.cyc + 6) = false →
        (n < 2 ^ 64 - 1 → penHolder s ≠ 3 → on s F.FLT_CTRL.SYNC_DOMAIN = false →
            (armOutcome s n (r.cyc + 6) = .on m → Runs (.fltSyncArm r n) s (fun t => armed m t ∧ Only [.filt] shown a t))
            ∧ (armOutcome s n (r.cyc + 6) = .late m → Runs (.fltSyncArm r n) s (fun t => armed m t ∧ rget t F.FLT_CTRL.SYNC_LATE = 1 ∧ Pends pFLT 1 t
                ∧ Only [.filt, .eva] (F.FLT_CTRL.SYNC_LATE :: F.EVT_PEND.PEND pFLT :: shown) a t))
            ∧ (armOutcome s n (r.cyc + 6) = .stale → Runs (.fltSyncArm r n) s (fun t => rget t F.FLT_CTRL.SYNC_STALE = 1 ∧ Pends pFLT 1 t
                ∧ Only [.eva] [F.FLT_CTRL.SYNC_STALE, F.EVT_PEND.PEND pFLT] a t)))
        ∧ Runs (.fltSyncDisarm r) s (fun t => t.filt = { s.filt with syncArmed := none } ∧ rget t F.FLT_CTRL.SYNC_ARMED = 0
            ∧ rget t F.FLT_SYNC.STROKE = 2 ^ 64 - 1 ∧ Only [.filt] shown a t))
    ∧ (Served r.who (regOff F.FLT_CTRL.SYNC_NEXT) s → bitSet v 1 = false → syncSealed s (r.cyc + 6) = false → penHolder s ≠ 3 →
        firstMeeting s (r.cyc + 6) < 2 ^ 64 - 1 → Runs (.syncNext r v) s (fun t => armed (firstMeeting s (r.cyc + 6)) t
          ∧ Wrote (regOff F.FLT_CTRL.SYNC_NEXT) [.filt] shown s t))
    ∧ (Up s → on s F.FLT_CTRL.SYNC_PIN_EN = true → on s F.FLT_CTRL.SYNC_DOMAIN = false → s.filt.syncArmed = none → penHolder s ≠ 3 →
        firstMeeting s cyc < 2 ^ 64 - 1 → Runs (.syncNEdge cyc) s (fun t => armed (firstMeeting s cyc) t ∧ Only [.filt] shown s t))
    ∧ (Up s → s.filt.syncArmed.isSome = true → Runs (.syncNEdge cyc) s (· = s))

/-- R129, R130, R133, R434: a flourish request goes into the shadows of FLT_FLR_REQ and is fresh; at the Done phase of a flourish its descriptor is the
channel's live one and its chain goes on alone; a peek is armed for the next stroke, and captures the fine sample and the coarse value of its
channel on the stroke. -/
def Obligations.FlourishAndPeek : Prop :=
  ∀ (s : State) (r : Req) (v c n : Nat) (f : Flourish) (w : TagWord),
    (Served r.who (regOff F.FLT_FLR_REQ.DESC) s → pageSealed s pFLT = false → Runs (.flrRequest r v) s (fun t =>
        t.filt = { s.filt with fresh := true } ∧ sget t F.FLT_FLR_REQ.CH_FIRST = slice 0 10 v ∧ sget t F.FLT_FLR_REQ.CH_LAST = slice 16 10 v
          ∧ sget t F.FLT_FLR_REQ.DESC = slice 32 6 v ∧ sget t F.FLT_FLR_REQ.LEN = slice 40 12 v ∧ Only [.filt, .shad] [] (accessBegins r.who s) t))
    ∧ (Up s → c < 512 → flourOf s c = some f → f.inc.desc < 64 → flrLast s f ≤ strokeNow s → queuedOf s c = none → Runs (.flourishDone c) s (fun t =>
        rget t (fltDesc c) = f.inc.desc ∧ chainOf t c = f.inc ∧ flourOf t c = none ∧ rget t F.FLT_COUNT.FLR_DONE = min 65535 (rget s F.FLT_COUNT.FLR_DONE + 1)
          ∧ (∀ d, d ≠ c → chainOf t d = chainOf s d ∧ flourOf t d = flourOf s d) ∧ Pends pFLT 3 t
          ∧ Only [.filt, .shad, .eva] [fltDesc c, F.FLT_PRIME.PRIME (c / 64), F.FLT_FADE.FADE (c / 64), F.FLT_COUNT.FLR_DONE, F.EVT_PEND.PEND pFLT] s t))
    ∧ (Up s → c < 512 → flourOf s c = none → Runs (.flourishDone c) s (· = s))
    ∧ (Served r.who (regOff F.FAST_PEEK_SEL.ARM) s → Runs (.peekArm r v) s (fun t => t.filt = { s.filt with peek := some (nextStroke s) }
        ∧ rget t F.FAST_PEEK_SEL.DONE = 0 ∧ Wrote (regOff F.FAST_PEEK_SEL.ARM) [.filt] [F.FAST_PEEK_SEL.DONE] s t))
    ∧ (Up s → s.filt.peek = some n → n ≤ strokeNow s → s.filt.words.find? (fun x => x.chan == rget s F.FAST_PEEK_SEL.CHAN && x.tap == 0) = some w →
        Runs .peekCapture s (fun t => t.filt = { s.filt with peek := none } ∧ rget t F.FAST_PEEK_FINE.VALUE = wordValue w.s % 2 ^ 32
          ∧ rget t F.FAST_PEEK_FINE.FLAGS = w.s.fl % 2 ^ 6 ∧ rget t F.FAST_PEEK_COARSE.VALUE = wordValue (coarseNow s (rget s F.FAST_PEEK_SEL.CHAN)) % 2 ^ 32
          ∧ rget t F.FAST_PEEK_STROKE.STROKE = strokeNow s % 2 ^ 64 ∧ rget t F.FAST_PEEK_SEL.DONE = 1 ∧ Pends pFAST 0 t
          ∧ Only [.filt, .eva] [F.FAST_PEEK_FINE.VALUE, F.FAST_PEEK_FINE.FLAGS, F.FAST_PEEK_FINE.RANGE, F.FAST_PEEK_COARSE.VALUE, F.FAST_PEEK_COARSE.FLAGS,
              F.FAST_PEEK_COARSE.RANGE, F.FAST_PEEK_STROKE.STROKE, F.FAST_PEEK_SEL.DONE, F.EVT_PEND.PEND pFAST] s t))

/-- R249, R250, R256, R259: a read of DATA pops the head word and latches its tags (a blot is counted; an empty queue gives the word popped last and only
UNDERRUN and its count); a read of DATA_END takes nothing off; words that the host writes to CMDQ become an item with the last one, and one that
does not fit is refused and counted; a flush discards what is visible and what the producer has begun. -/
def Obligations.QueueWords : Prop :=
  ∀ (s : State) (r : Req) (q m v : Nat) (bad : Bool), Up s → 1 ≤ q → q < 7 →
    let a := accessBegins r.who s
    let others (k : Nat) (t : State) : Prop := ∀ j, j ≠ k → queue t j = queue s j
    let given (off x : Nat) (t : State) : Prop := t.out = s.out ++ [.read r.who off x]
    let x := queue s qCMD
    (∀ w rest, (queue s q).words = w :: rest → Runs (.quePop r q bad) s (fun t =>
        given (regOff (F.QUE_q_DATA.DATA q)) w.data t ∧ queue t q = { queue s q with words := rest, lastPop := w.data, flushed := false, lost := false } ∧ others q t
          ∧ rget t (F.QUE_q_TAG.FIRST q) = w.first.toNat ∧ rget t (F.QUE_q_TAG.END q) = w.last.toNat ∧ rget t (F.QUE_q_TAG.BLOT q) = bad.toNat
          ∧ rget t (F.QUE_q_TAG.UNDERRUN q) = 0 ∧ rget t (F.QUE_q_TAG.FLUSHED q) = (queue s q).flushed.toNat ∧ rget t (F.QUE_q_TAG.LOST q) = (queue s q).lost.toNat
          ∧ (bad = true → rget t (F.QUE_q_COUNT.BLOTS q) = min 65535 (rget s (F.QUE_q_COUNT.BLOTS q) + 1) ∧ Pends pQUE 7 t)
          ∧ Only [.out, .queues, .eva] (popFields q) a t))
    ∧ ((queue s q).words = [] → (queue s q).flushed = false → Runs (.quePop r q bad) s (fun t =>
        given (regOff (F.QUE_q_DATA.DATA q)) (queue s q).lastPop t ∧ (∀ j, queue t j = queue s j) ∧ rget t (F.QUE_q_TAG.UNDERRUN q) = 1
          ∧ rget t (F.QUE_q_TAG.END q) = (on s (F.QUE_q_TAG.END q)).toNat
          ∧ rget t (F.QUE_q_COUNT.UNDERRUNS q) = min 65535 (rget s (F.QUE_q_COUNT.UNDERRUNS q) + 1)))
    ∧ Runs (.quePeek r q) s (fun t => given (regOff (F.QUE_q_DATA_END.DATA q)) (popValue s q) t ∧ Only [.out] [] a t)
    ∧ (Served r.who (regOff (F.QUE_q_DATA.DATA qCMD)) s → x.draining = false →
        (qFits s qCMD 1 = true → Runs (.cmdqPush r v) s (fun t => queue t qCMD = { x with pend := x.pend ++ [v % 2 ^ 64] } ∧ others qCMD t
            ∧ Wrote (regOff (F.QUE_q_DATA.DATA qCMD)) [.queues] [] s t))
        ∧ (qFits s qCMD 1 = false → Runs (.cmdqPush r v) s (fun t => queue t qCMD = { x with pend := [], draining := true } ∧ others qCMD t
            ∧ rget t (F.QUE_q_COUNT2.PUSH_REFUSED qCMD) = min (2 ^ 32 - 1) (rget s (F.QUE_q_COUNT2.PUSH_REFUSED qCMD) + 1) ∧ Pends pQUE 9 t
            ∧ Wrote (regOff (F.QUE_q_DATA.DATA qCMD)) [.queues, .eva] [F.QUE_q_COUNT2.PUSH_REFUSED qCMD, F.EVT_PEND.PEND pQUE] s t)))
    ∧ (Served r.who (regOff (F.QUE_q_DATA_END.DATA qCMD)) s →
        (x.draining = false → qFits s qCMD 1 = true → Runs (.cmdqPushEnd r v) s (fun t =>
            queue t qCMD = { x with words := x.words ++ tagItem (x.pend ++ [v % 2 ^ 64]), pend := [] } ∧ others qCMD t
            ∧ Wrote (regOff (F.QUE_q_DATA_END.DATA qCMD)) [.queues, .eva] [F.EVT_PEND.PEND pQUE] s t))
        ∧ (x.draining = true → Runs (.cmdqPushEnd r v) s (fun t => queue t qCMD = { x with draining := false } ∧ others qCMD t
            ∧ rget t (F.QUE_q_COUNT2.DRAINED qCMD) = min 65535 (rget s (F.QUE_q_COUNT2.DRAINED qCMD) + 1)
            ∧ Wrote (regOff (F.QUE_q_DATA_END.DATA qCMD)) [.queues] [F.QUE_q_COUNT2.DRAINED qCMD] s t)))
    ∧ (Served r.who (regOff (F.QUE_q_CTRL.FLUSH q)) s → Runs (.queFlush r q) s (fun t =>
        queue t q = { queue s q with words := [], pend := [], draining := (queue s q).draining || !(queue s q).pend.isEmpty, flushed := true } ∧ others q t
          ∧ rget t (F.QUE_q_COUNT2.FLUSHES q) = min 65535 (rget s (F.QUE_q_COUNT2.FLUSHES q) + 1)
          ∧ Wrote (regOff (F.QUE_q_CTRL.FLUSH q)) [.queues] [F.QUE_q_COUNT2.FLUSHES q] s t))
    ∧ (Served r.who (regOff F.QUE_CTRL.FLUSH_ALL) s → Runs (.queFlushAll r m) s (fun t =>
        (∀ k, k < 7 → bitSet m k = true → (queue t k).words = [] ∧ (queue t k).pend = [] ∧ (queue t k).flushed = true)
          ∧ (∀ k, k < 7 → bitSet m k = false → queue t k = queue s k)))

/-- R253, R254: the executor takes a command from CMDQ when its response fits into RSPQ, and answers it with its OP, SESSION, TAG and RESULT: NOP with 0
and no arguments; REPLAY, CANCEL and STATUS with what R236 to R240 say, 0x01 for a session that is off and 0x02 for one without DMA; any other
OP with 0x04. -/
def Obligations.QueueCommands : Prop :=
  ∀ (s : State) (w a b : Nat), Up s → headItem (queue s qCMD).words = [w, a, b] → slice 56 8 w = 2 → qFits s qRSP 3 = true →
    let op := slice 48 8 w
    let n := slice 40 8 w
    let c := cfgNow s n
    let answers (result a0 a1 : Nat) (t : State) : Prop :=
      (queue t qRSP).words = (queue s qRSP).words ++ tagItem (rspItem op n result (slice 0 32 w) a0 a1)
        ∧ (queue t qCMD).words = dropItem (queue s qCMD).words
    let only (rs : List Fld) (t : State) : Prop := Only [.queues, .duc, .eva] (F.EVT_PEND.PEND pQUE :: rs) s t
    (op = 0 → Runs .cmdqNop s (fun t => answers 0 0 0 t ∧ t.duc = s.duc ∧ only [] t))
    ∧ (op = 4 → cEN c = true → cDma c = true →
        (∀ low top, newestWritten s = some top → oldestHeld s c = some low → low ≤ a → a ≤ b → b ≤ top → cCoarse c = false → (sessSt s n).replays.length < 4 →
          Runs .cmdqReplay s (fun t => answers 0 (put 48 16 (sessSt s n).nextId + put 0 48 a) (put 0 48 b) t
            ∧ (sessSt t n).replays = (sessSt s n).replays ++ [⟨(sessSt s n).nextId, a, b, none, false⟩]
            ∧ rget t F.DUC_COUNT_REPLAY.ACCEPTED = min 65535 (rget s F.DUC_COUNT_REPLAY.ACCEPTED + 1)
            ∧ only [F.DUC_COUNT_REPLAY.ACCEPTED, F.DUC_REPLAY_STATE.ACTIVE, F.DUC_REPLAY_STATE.QUEUED] t))
        ∧ ((b < a ∨ ∃ top, newestWritten s = some top ∧ top < a) → Runs .cmdqReplay s (fun t => answers 0x07 0 0 t ∧ t.duc = s.duc
            ∧ rget t F.DUC_COUNT_REPLAY.REFUSED = min 65535 (rget s F.DUC_COUNT_REPLAY.REFUSED + 1) ∧ only [F.DUC_COUNT_REPLAY.REFUSED] t)))
    ∧ (op = 4 → cEN c = true → cDma c = false → Runs .cmdqReplay s (fun t => answers 0x02 0 0 t ∧ t.duc = s.duc ∧ only [F.DUC_COUNT_REPLAY.REFUSED] t))
    ∧ (op = 5 → cEN c = true → cDma c = true → a ≠ 0xFFFF →
        (∀ x, (sessSt s n).replays.filter (fun y => y.peer == none && (a == 0xFFFF || y.id == a)) = [x] → x.active = false → Runs .cmdqCancel s (fun t =>
            answers 0 1 0 t ∧ (sessSt t n).replays = (sessSt s n).replays.filter (fun y => y.id != x.id)
            ∧ rget t F.DUC_COUNT_REPLAY.CANCELLED = min 65535 (rget s F.DUC_COUNT_REPLAY.CANCELLED + 1) ∧ Pends pDUC 2 t
            ∧ only [F.DUC_COUNT_REPLAY.CANCELLED, F.DUC_REPLAY_STATE.ACTIVE, F.DUC_REPLAY_STATE.QUEUED, F.EVT_PEND.PEND pDUC] t))
        ∧ ((sessSt s n).replays.filter (fun y => y.peer == none && (a == 0xFFFF || y.id == a)) = [] → Runs .cmdqCancel s (fun t =>
            answers 0x0A 0 0 t ∧ t.duc = s.duc ∧ only [] t)))
    ∧ (op = 5 → cEN c = true → cDma c = false → Runs .cmdqCancel s (fun t => answers 0x02 0 0 t ∧ t.duc = s.duc ∧ only [] t))
    ∧ (op = 6 → cEN c = true → Runs .cmdqStatus s (fun t => answers 0 ((oldestHeld s c).getD 0) ((newestWritten s).getD 0) t ∧ t.duc = s.duc ∧ only [] t))
    ∧ (op = 6 → cEN c = false → Runs .cmdqStatus s (fun t => answers 0x01 0 0 t ∧ t.duc = s.duc ∧ only [] t))
    ∧ (op ≠ 0 → op ≠ 4 → op ≠ 5 → op ≠ 6 → Runs (.cmdqInvalid false) s (fun t => answers 0x04 0 0 t ∧ t.duc = s.duc ∧ only [] t))
    ∧ Runs (.cmdqInvalid true) s (fun t => answers 0x04 0 0 t ∧ t.duc = s.duc ∧ only [] t)

/-- R353, the commands that write a tablet: each completes when it is due, leaves its result in TBa, steps to the next word and changes nothing else;
NOP only steps. -/
def Obligations.ScribeTabletResults : Prop :=
  ∀ (a : ScrAt) (s : State), let h := sideIdx a.side; let w := wordOf a s
    (AtCommand 0x00 a s → Runs (.scrNop a) s (PcOnly h ((scrPc s h + 1) % 32768) s))
    ∧ (AtCommand 0x06 a s → Runs (.scrLdi a) s (TabletOnly h (wA w) ((BitVec.ofNat 32 (wImm w)).signExtend 64).toNat s))
    ∧ (AtCommand 0x07 a s → Runs (.scrLdih a) s (TabletOnly h (wA w) (wImm w * 2 ^ 32 + tbGet s h (wA w) % 2 ^ 32) s))
    ∧ (AtCommand 0x09 a s → Runs (.scrAddi a) s
        (TabletOnly h (wA w) (BitVec.ofNat 64 (tbGet s h (wA w)) + (BitVec.ofNat 32 (wImm w)).signExtend 64).toNat s))
    ∧ (AtCommand 0x18 a s → Runs (.scrLdm a) s (TabletOnly h (wA w) (memGet s h (wAddr w)) s))
    ∧ (AtCommand 0x1A a s → (wAddr w + tbGet s h (wB w)) % 2 ^ 64 < 32768 →
        Runs (.scrLdx a) s (TabletOnly h (wA w) (memGet s h (wAddr w + tbGet s h (wB w))) s))

/-- R353, ALU: with X up to 8 it completes, and TBa takes the 64-bit result of the operation on TBb and TBc; shifts count TBc[5:0]. -/
def Obligations.ScribeAluResults : Prop :=
  ∀ (a : ScrAt) (s : State), AtCommand 0x08 a s → let h := sideIdx a.side; let w := wordOf a s
    let x : Word := BitVec.ofNat 64 (tbGet s h (wB w)); let y : Word := BitVec.ofNat 64 (tbGet s h (wC w))
    let n := y.toNat % 64
    let gives (k : Nat) (v : Word) : Prop := wX w = k → Runs (.scrAlu a) s (TabletOnly h (wA w) v.toNat s)
    gives 0 (x + y) ∧ gives 1 (x - y) ∧ gives 2 (x &&& y) ∧ gives 3 (x ||| y) ∧ gives 4 (x ^^^ y) ∧ gives 5 (x <<< n)
      ∧ gives 6 (x >>> n) ∧ gives 7 (x.sshiftRight n) ∧ gives 8 (x * y)

/-- R353, the commands that write the scribe memory: STM and STX write one word and step on; MBXG without an item of the host (BUSY 0) leaves 0 in TBa,
and with one it copies the item from ADDR on, leaves its word count in TBa, ends BUSY and raises SRC[3] (R357). -/
def Obligations.ScribeMemoryWrites : Prop :=
  ∀ (a : ScrAt) (s : State), let h := sideIdx a.side; let w := wordOf a s
    (AtCommand 0x19 a s → Runs (.scrStm a) s (WordOnly h (wAddr w) (tbGet s h (wA w)) s))
    ∧ (AtCommand 0x1B a s → (wAddr w + tbGet s h (wB w)) % 2 ^ 64 < 32768 →
        Runs (.scrStx a) s (WordOnly h (wAddr w + tbGet s h (wB w)) (tbGet s h (wA w)) s))
    ∧ (AtCommand 0x29 a s → on s (sf h F.SCRR_MBIN_CTRL.BUSY) = false → Runs (.scrMbxg a) s (TabletOnly h (wA w) 0 s))
    ∧ (AtCommand 0x29 a s → on s (sf h F.SCRR_MBIN_CTRL.BUSY) = true → (half s h).inbox.length ≤ 64 → Runs (.scrMbxg a) s (fun t =>
        (∀ i, i < (half s h).inbox.length → memGet t h (wAddr w + i) = nth 0 (half s h).inbox i % 2 ^ 64)
          ∧ tbGet t h (wA w) = (half s h).inbox.length ∧ rget t (sf h F.SCRR_MBIN_CTRL.BUSY) = 0
          ∧ rget t (sf h F.SCRR_MBIN_CTRL.COUNT) = 0 ∧ (half t h).inbox = [] ∧ Pends (halfPage h) 3 t ∧ StepsOn h s t
          ∧ Only [.halves, .eva] [sf h F.SCRR_MBIN_CTRL.BUSY, sf h F.SCRR_MBIN_CTRL.COUNT, F.EVT_PEND.PEND (halfPage h), sf h F.SCRR_STATE.PC] s t))

/-- R353, the commands that move the PC: JMP, JCC on its condition, CALL with fewer than 8 return addresses held and RET with one; END ends the slot. -/
def Obligations.ScribeFlow : Prop :=
  ∀ (a : ScrAt) (s : State), let h := sideIdx a.side; let w := wordOf a s
    let x : Word := BitVec.ofNat 64 (tbGet s h (wA w)); let y : Word := BitVec.ofNat 64 (tbGet s h (wB w))
    let jumps : Prop := (wCond w = 0 ∧ x = y) ∨ (wCond w = 1 ∧ x ≠ y) ∨ (wCond w = 2 ∧ x.slt y = true) ∨ (wCond w = 3 ∧ x.slt y = false)
      ∨ (wCond w = 4 ∧ x.ult y = true) ∨ (wCond w = 5 ∧ x.ult y = false)
    (AtCommand 0x02 a s → Runs (.scrJmp a) s (PcOnly h (wAddr w) s))
    ∧ (AtCommand 0x03 a s → (jumps → Runs (.scrJcc a) s (PcOnly h (wAddr w) s))
        ∧ (¬jumps → Runs (.scrJcc a) s (PcOnly h ((scrPc s h + 1) % 32768) s)))
    ∧ (AtCommand 0x04 a s → (half s h).stack.length < 8 → Runs (.scrCall a) s (fun t =>
        half t h = { half s h with stack := (scrPc s h + 1) % 32768 :: (half s h).stack } ∧ (∀ k, k ≠ h → half t k = half s k)
          ∧ scrPc t h = wAddr w ∧ Only [.halves] [sf h F.SCRR_STATE.PC] s t))
    ∧ (AtCommand 0x05 a s → ∀ p rest, (half s h).stack = p :: rest → Runs (.scrRet a) s (fun t =>
        half t h = { half s h with stack := rest } ∧ (∀ k, k ≠ h → half t k = half s k) ∧ scrPc t h = p % 32768
          ∧ Only [.halves] [sf h F.SCRR_STATE.PC] s t))
    ∧ (AtCommand 0x01 a s → Runs (.scrEnd a) s (fun t =>
        half t h = { half s h with run := none, wait := .none, stack := [] } ∧ (∀ k, k ≠ h → half t k = half s k)
          ∧ rget t (sf h F.SCRR_STATE.SLOT) = 0 ∧ rget t (sf h F.SCRR_STATE.IDLE) = 1
          ∧ Only [.halves] [sf h F.SCRR_STATE.PC, sf h F.SCRR_STATE.SLOT, sf h F.SCRR_STATE.IDLE] s t))

/-- R355: a slot ends with a fault in each case of the table, with the record of the rule: an undefined OP, ALU with X above 8, EVT with X above 7,
CALL with 8 return addresses held, RET with none, LDX or STX outside the memory, a memory word that fails its parity, MBXS with LEN above
63, an access to a register whose offset is not a multiple of 8, and the FAULT command. -/
def Obligations.ScribeFaults : Prop :=
  ∀ (a : ScrAt) (s : State), let h := sideIdx a.side; let w := wordOf a s
    let ends (op : Nat) (c : Instr) (cond : Prop) (code : Nat) : Prop := AtCommand op a s → cond → Runs c s (Faulted h code s)
    let far : Prop := 32768 ≤ (wAddr w + tbGet s h (wB w)) % 2 ^ 64
    (opDefined (wOp w) = false → AtCommand (wOp w) a s → Runs (.scrFault a) s (Faulted h 0x01 s))
    ∧ ends 0x08 (.scrAlu a) (8 < wX w) 0x01 ∧ ends 0x33 (.scrEvt a) (7 < wX w) 0x01
    ∧ ends 0x04 (.scrCall a) (8 ≤ (half s h).stack.length) 0x02 ∧ ends 0x05 (.scrRet a) ((half s h).stack = []) 0x03
    ∧ ends 0x1A (.scrLdx a) far 0x04 ∧ ends 0x1B (.scrStx a) far 0x04
    ∧ ends 0x28 (.scrMbxs a) (63 < slice 56 8 (memGet s h (wAddr w))) 0x06
    ∧ ends 0x10 (.scrRd a) (wOff w % 8 ≠ 0) 0x07 ∧ ends 0x11 (.scrWr a) (wOff w % 8 ≠ 0) 0x07
    ∧ ends 0x12 (.scrWri a) (slice 32 24 w % 8 ≠ 0) 0x07 ∧ ends 0x13 (.scrRmw a) (wOff w % 8 ≠ 0) 0x07
    ∧ ends 0x14 (.scrPoll a) (wOff w % 8 ≠ 0) 0x07
    ∧ ends 0x34 (.scrFault a) True (0x80 + wX w % 128)
    ∧ (Up s → scrReady s h = true → a.bad = true → ∀ c ∈ scribeRows a, wOp w = c.1 → Runs c.2 s (Faulted h 0x05 s))

/-- R353, R354: RD leaves the register's value in TBa; POLL whose first value matches leaves it in TBc, and waits with it otherwise; POLL_DONE leaves the
last value read in TBc. WR and WRI do to the registers what the same half's REGISTER_WRITE does, and RMW what that write of the mixed word
does after its read, with the old value in TBc. -/
def Obligations.ScribeRegisterAccess : Prop :=
  ∀ (a : ScrAt) (s : State), let h := sideIdx a.side; let w := wordOf a s
    let x := readReg (wOff w) a.cyc a.blot s
    let hit : Prop := x.1 &&& tbGet s h (wA w) = tbGet s h (wB w)
    (AtCommand 0x10 a s → wOff w % 8 = 0 → Runs (.scrRd a) s (fun t =>
      tbGet t h (wA w) = x.1 % 2 ^ 64 ∧ (∀ j, j ≠ wA w → tbGet t h j = tbGet s h j) ∧ { half t h with tb := (half s h).tb } = half s h
        ∧ StepsOn h s t ∧ Only [.halves, .queues, .eva] (sf h F.SCRR_STATE.PC :: readFields) s t))
    ∧ (AtCommand 0x14 a s → wOff w % 8 = 0 → hit → Runs (.scrPoll a) s (fun t =>
        tbGet t h (wC w) = x.1 % 2 ^ 64 ∧ (half t h).wait = .none ∧ StepsOn h s t
          ∧ Only [.halves, .queues, .eva] (sf h F.SCRR_STATE.PC :: readFields) s t))
    ∧ (AtCommand 0x14 a s → wOff w % 8 = 0 → ¬hit → Runs (.scrPoll a) s (fun t =>
        half t h = { half s h with wait := .poll x.1 } ∧ Only [.halves, .queues, .eva] readFields s t))
    ∧ (∀ last n, Up s → (half s h).wait = .poll last → Runs (.scrPollDone n a) s (fun t =>
        tbGet t h (wC w) = (pollReads a h w n last s).1 % 2 ^ 64 ∧ (half t h).wait = .none ∧ StepsOn h s t
          ∧ Only [.halves, .queues, .eva] (sf h F.SCRR_STATE.PC :: readFields) s t))
    ∧ (AtCommand 0x11 a s → wOff w % 8 = 0 → Runs (.registerWrite ⟨halfReq h, a.cyc⟩ (wOff w) (tbGet s h (wA w))) s (fun u =>
        Runs (.scrWr a) s (fun t => t = scrNext h u)))
    ∧ (AtCommand 0x12 a s → slice 32 24 w % 8 = 0 → Runs (.registerWrite ⟨halfReq h, a.cyc⟩ (slice 32 24 w) (wImm w)) s (fun u =>
        Runs (.scrWri a) s (fun t => t = scrNext h u)))
    ∧ (AtCommand 0x13 a s → wOff w % 8 = 0 →
        Runs (.registerWrite ⟨halfReq h, a.cyc⟩ (wOff w) (maskMix x.1 (tbGet s h (wA w)) (tbGet s h (wB w)))) x.2 (fun u =>
          Runs (.scrRmw a) s (fun t => t = scrNext h (tbSet h (wC w) x.1 u))))

/-- R353, the waits: WAITS and WAITT wait for a later stroke and for IMM cycles, WAITE for its source; each ends with the scribe at the next word, WAITE
with 1 in TBc when the source came and 0 when its limit passed. -/
def Obligations.ScribeWaits : Prop :=
  ∀ (a : ScrAt) (s : State), let h := sideIdx a.side; let w := wordOf a s; let n := tbGet s h (wA w)
    let wakes (t : State) : Prop := half t h = { half s h with wait := .none } ∧ (∀ k, k ≠ h → half t k = half s k) ∧ StepsOn h s t
      ∧ Only [.halves] [sf h F.SCRR_STATE.PC] s t
    (AtCommand 0x20 a s → (n ≤ strokeNow s → Runs (.scrWaits a) s (PcOnly h ((scrPc s h + 1) % 32768) s))
        ∧ (strokeNow s < n → Runs (.scrWaits a) s (WaitsOnly h (.strokes n) s)))
    ∧ (∀ m, Up s → (half s h).wait = .strokes m → (m ≤ strokeNow s → Runs (.scrWaitsDone a.side) s wakes)
        ∧ (strokeNow s < m → Runs (.scrWaitsDone a.side) s (· = s)))
    ∧ (AtCommand 0x21 a s → (wImm w = 0 → Runs (.scrWaitt a) s (PcOnly h ((scrPc s h + 1) % 32768) s))
        ∧ (wImm w ≠ 0 → Runs (.scrWaitt a) s (WaitsOnly h .time s)))
    ∧ (Up s → (half s h).wait = .time → Runs (.scrWaittDone a.side) s wakes)
    ∧ (AtCommand 0x22 a s → (waitRaised s (wX w) = true → Runs (.scrWaite a) s (TabletOnly h (wC w) 1 s))
        ∧ (waitRaised s (wX w) = false → Runs (.scrWaite a) s (WaitsOnly h (.event (wX w)) s)))
    ∧ (∀ x, Up s → (half s h).wait = .event x →
        (waitRaised s x = true → Runs (.scrWaiteDone a.side) s (WokeWith h (wC w) 1 s))
        ∧ (waitRaised s x = false → wImm w ≠ 0 → Runs (.scrWaiteDone a.side) s (WokeWith h (wC w) 0 s)))
    ∧ (Up s → (half s h).wait = .raised → Runs (.scrWaiteDone a.side) s (WokeWith h (wC w) 1 s))

/-- R353, the commands that act past the scribe: HBEAT toggles the line and restarts the watchdog, CLAIM asserts the claim and waits (3 while the pen is
frozen), RELEASE gives up the pen or the claim, EVT raises SRC[8 + X], HALT stops every slot, and MBXS puts an item that fits into the
half's queue. -/
def Obligations.ScribeActions : Prop :=
  ∀ (a : ScrAt) (s : State), let h := sideIdx a.side; let w := wordOf a s; let q := mbxOf h
    (AtCommand 0x30 a s → Runs (.scrHbeat a) s (fun t =>
      rget t (sf h F.SCRR_STATE.HB) = 1 - rget s (sf h F.SCRR_STATE.HB) ∧ (half t h).hbAt = some (s.strikeDclk + a.cyc)
        ∧ (half t h).wdFrom = s.strikeDclk + a.cyc ∧ StepsOn h s t ∧ Only [.halves] [sf h F.SCRR_STATE.HB, sf h F.SCRR_STATE.PC] s t))
    ∧ (AtCommand 0x31 a s → penHolder s ≠ 3 → Runs (.scrClaim a) s (fun t =>
        rget t (sf h F.SCRR_STATE.CLAIM) = 1 ∧ half t h = { half s h with wait := .claim } ∧ Only [.halves] [sf h F.SCRR_STATE.CLAIM] s t))
    ∧ (AtCommand 0x31 a s → penHolder s = 3 → Runs (.scrClaim a) s (TabletOnly h (wA w) 3 s))
    ∧ (AtCommand 0x32 a s → penHolder s = h + 1 → Runs (.scrRelease a) s (fun t =>
        half t h = { half s h with drop := some 3 } ∧ StepsOn h s t ∧ Only [.halves] [sf h F.SCRR_STATE.PC] s t))
    ∧ (AtCommand 0x32 a s → penHolder s ≠ 3 → penHolder s ≠ h + 1 → Runs (.scrRelease a) s (fun t =>
        rget t (sf h F.SCRR_STATE.CLAIM) = 0 ∧ halfState t h = (if halfState s h = 3 then 2 else halfState s h) ∧ StepsOn h s t
          ∧ Only [.eva] [sf h F.SCRR_STATE.CLAIM, sf h F.SCRR_STATE.STATE, F.EVT_PEND.PEND (halfPage h), F.MON_WEAR.HALVES_OK,
            F.EVT_PEND.PEND pMON, sf h F.SCRR_STATE.PC] s t))
    ∧ (AtCommand 0x33 a s → wX w ≤ 7 → Runs (.scrEvt a) s (fun t =>
        Pends (halfPage h) (8 + wX w) t ∧ StepsOn h s t ∧ Only [.eva] [F.EVT_PEND.PEND (halfPage h), sf h F.SCRR_STATE.PC] s t))
    ∧ (AtCommand 0x3F a s → Runs (.scrHalt a) s (fun t =>
        halfState t h = 5 ∧ rget t (sf h F.SCRR_SLOTS.PEND) = 0 ∧ rget t (sf h F.SCRR_STATE.IDLE) = 1
          ∧ half t h = { half s h with run := none, wait := .none, stack := [], drop := some 5 } ∧ StepsOn h s t
          ∧ (∀ i, i < 16 → rget t (sf h (F.SCRR_TB.VALUE i)) = tbGet s h i)
          ∧ Only [.halves, .eva] (faultFields h ++ [sf h F.SCRR_SLOTS.PEND, sf h F.SCRR_STATE.STATE, F.MON_WEAR.HALVES_OK,
              F.EVT_PEND.PEND pMON]) s t))
    ∧ (AtCommand 0x28 a s → slice 56 8 (memGet s h (wAddr w)) ≤ 63 → (queue s q).draining = false → (queue s q).pend = [] →
        qFits s q (slice 56 8 (memGet s h (wAddr w)) + 1) = true → Runs (.scrMbxs a) s (fun t =>
          (queue t q).words = (queue s q).words ++ tagItem (mbxItem s h (wAddr w)) ∧ StepsOn h s t
            ∧ Only [.queues, .eva] [F.EVT_PEND.PEND pQUE, sf h F.SCRR_STATE.PC] s t))

/-- R345, R347: at the end of a window the one claim that counts for a free pen wins it: HOLDER names the half, EPOCH is its epoch, GEN has gone on by
one, every HOST_GRANT is 0, the claim has ended and SRC[0] is pending. A half that has let go leaves the pen free. -/
def Obligations.PenWindowGrants : Prop :=
  ∀ (s : State) (cyc h : Nat), Up s → h < 2 → (∀ k, k < 2 → (half s k).drop = none) →
    (penHolder s = 0 → on s (sf h F.SCRR_STATE.CLAIM) = true → on s (sf (1 - h) F.SCRR_STATE.CLAIM) = false →
      Runs (.arbitrationWindow cyc) s (fun t => penHolder t = h + 1
        ∧ rget t F.PEN_STATE.EPOCH = rget s (sf h F.SCRR_EPOCH.EPOCH) % 65536 ∧ rget t F.PEN_STATE.GEN = (rget s F.PEN_STATE.GEN + 1) % 65536
        ∧ rget t F.PEN_LAST.CAUSE = 1 ∧ rget t F.PEN_LAST.TO = h + 1 ∧ rget t (sf h F.SCRR_STATE.CLAIM) = 0
        ∧ (∀ p, p ∈ pPages → rget t (F.OWNER.HOST_GRANT p) = 0) ∧ Pends pPEN 0 t))
    ∧ (penHolder s = h + 1 → s.pen.withdraw = true → (∀ k, k < 2 → on s (sf k F.SCRR_STATE.CLAIM) = false) →
      Runs (.arbitrationWindow cyc) s (fun t => penHolder t = 0 ∧ rget t F.PEN_LAST.CAUSE = 4 ∧ Pends pPEN 0 t))

/-- R346, R348: a holder without a toggle for HB_TIMEOUT_US is counted and marked for the end of the window; of the three copies of the pen the
agreeing two win, and three that all differ freeze it. -/
def Obligations.PenLossAndVote : Prop :=
  ∀ (s : State) (cyc h : Nat) (a b c : PenCopy), Up s → h < 2 →
    (penHolder s = h + 1 → s.pen.withdraw = false →
      max s.pen.since ((half s h).hbAt.getD 0) + rget s F.PEN_CFG.HB_TIMEOUT_US * 512 ≤ s.strikeDclk + cyc →
      Runs (.heartbeatTimeout cyc) s (fun t => t.pen.withdraw = true
        ∧ rget t F.PEN_COUNT.HB_LOSSES = min (2 ^ F.PEN_COUNT.HB_LOSSES.width - 1) (rget s F.PEN_COUNT.HB_LOSSES + 1) ∧ Pends pPEN 3 t
        ∧ Only [.pen, .eva] [F.PEN_COUNT.HB_LOSSES, F.EVT_PEND.PEND pPEN] s t))
    ∧ (penHolder s ≠ 3 → a = b → b ≠ c → a.holder < 4 → Runs (.penCopyDisagree a b c) s (fun t => t.pen.copies = [a, a, a] ∧ penHolder t = a.holder
        ∧ Pends pPEN 4 t ∧ rget t F.PEN_VOTE.FIX_C = min (2 ^ F.PEN_VOTE.FIX_C.width - 1) (rget s F.PEN_VOTE.FIX_C + 1)))
    ∧ (penHolder s ≠ 3 → a ≠ b → b ≠ c → a ≠ c → Runs (.penCopyDisagree a b c) s (fun t => penHolder t = 3 ∧ rget t F.PEN_STATE.FROZEN = 1
        ∧ Pends pPEN 5 t ∧ t.pen.copies = [a, b, c]))

/-- R350, R358: the pen's registers as they are written: the unlock's key is held for its writer while the pen is frozen and refused with RESULT 2
otherwise; the second key and GO free a frozen pen with RESULT 1; a hand-over is armed for the stroke of PEN_XFER_STROKE, or disarmed. -/
def Obligations.PenRegisterCommands : Prop :=
  ∀ (s : State) (r : Req) (who t0 m : Nat),
    (Served r.who (regOff F.PEN_UNLOCK.GO) s →
      (penHolder s = 3 → Runs (.penUnlockKey r who) s (fun t => t.pen.key = some (r.who, s.strikeDclk + r.cyc)))
      ∧ (penHolder s ≠ 3 → Runs (.penUnlockKey r who) s (fun t => rget t F.PEN_UNLOCK.RESULT = 2 ∧ Pends pPEN 6 t))
      ∧ (penHolder s = 3 → s.pen.key = some (r.who, t0) → s.strikeDclk + r.cyc ≤ t0 + 1024 →
          Runs (.penUnlockGo r 0xA5C3 0) s (fun t => rget t F.PEN_UNLOCK.RESULT = 1 ∧ Pends pPEN 6 t)))
    ∧ (Served r.who (regOff F.PEN_XFER.GO) s →
      Runs (.penXferDisarm r) s (fun t => t.pen.xfer = none ∧ rget t F.PEN_XFER.ARMED = 0)
      ∧ (0 < who → who < 4 → penHolder s ≠ 3 → armOutcome s (rget s F.PEN_XFER_STROKE.STROKE) (r.cyc + 6) = .on m →
          Runs (.penXferArm r who) s (fun t => t.pen.xfer = some (who, m) ∧ rget t F.PEN_XFER.ARMED = 1)))

/-- R351, R352: a slot starts at the address in the memory word of its number when no slot runs; slot 1 goes first, then the lowest pending one. The timer
makes slot 2 pending. -/
def Obligations.SlotsStart : Prop :=
  ∀ (s : State) (x : Side) (k : Nat), Up s → let h := sideIdx x; let pend := rget s (sf h F.SCRR_SLOTS.PEND)
    (halfRuns s h = true → (half s h).run = none →
      ((k = 1 ∧ bitSet pend 1 = true) ∨ (bitSet pend 1 = false ∧ (indicesWhere 16 (bitSet pend)).head? = some k)) →
      Runs (.slotStart x false) s (fun t => (half t h).run = some k ∧ rget t (sf h F.SCRR_STATE.SLOT) = k ∧ rget t (sf h F.SCRR_STATE.IDLE) = 0
        ∧ bitSet (rget t (sf h F.SCRR_SLOTS.PEND)) k = false ∧ scrPc t h = memGet s h k % 32768
        ∧ Only [.halves] [sf h F.SCRR_SLOTS.PEND, sf h F.SCRR_STATE.SLOT, sf h F.SCRR_STATE.IDLE, sf h F.SCRR_COUNT.SLOTS_RUN,
            sf h F.SCRR_STATE.PC] s t))
    ∧ (rget s (sf h F.SCRR_WD.TIMER_US) ≠ 0 → halfRuns s h = true → bitSet (rget s (sf h F.SCRR_SLOTS.EN)) 2 = true →
        Runs (.scribeTimer x) s (fun t => bitSet (rget t (sf h F.SCRR_SLOTS.PEND)) 2 = true ∧ Only [] [sf h F.SCRR_SLOTS.PEND] s t))

/-- R356, R357: a half is reset when its watchdog's period ends or when BOOT is written, and enters BOOT; the host's mailbox takes words, SEND makes them
the item and slot 3 pending, and CLEAR empties it. -/
def Obligations.HalfResetAndMailbox : Prop :=
  ∀ (s : State) (r : Req) (x : Side) (v cyc : Nat), let h := sideIdx x
    let booted (t : State) : Prop := halfState t h = 1 ∧ (half t h).run = none ∧ (half t h).inbox = [] ∧ (half t h).drop = some 5
      ∧ rget t (sf h F.SCRR_BOOT.STATUS) = 0x0100
    (Up s → on s (sf h F.SCRR_CTRL.WD_EN) = true → halfRuns s h = true →
      rget s (sf h F.SCRR_WD.WD_MS) * 512000 ≤ s.strikeDclk + cyc - (half s h).wdFrom →
      Runs (.watchdogExpiry x cyc) s (fun t => booted t ∧ Pends (halfPage h) 2 t ∧ rget t (sf h F.SCRR_COUNT.WD_EXP) = min 255 (rget s (sf h F.SCRR_COUNT.WD_EXP) + 1)))
    ∧ (Served r.who (regOff (sf h F.SCRR_CTRL.BOOT)) s → Runs (.halfBoot r x v) s booted)
    ∧ (Served r.who (regOff (sf h F.SCRR_MBIN_DATA.DATA)) s → on s (sf h F.SCRR_MBIN_CTRL.BUSY) = false → (half s h).inbox.length < 64 →
        Runs (.mbinPush r x v) s (fun t => (half t h).inbox = (half s h).inbox ++ [v % 2 ^ 64] ∧ rget t (sf h F.SCRR_MBIN_CTRL.COUNT) = (half s h).inbox.length + 1))
    ∧ (Served r.who (regOff (sf h F.SCRR_MBIN_CTRL.SEND)) s →
        ((half s h).inbox ≠ [] → on s (sf h F.SCRR_MBIN_CTRL.BUSY) = false →
          Runs (.mbinSend r x) s (fun t => rget t (sf h F.SCRR_MBIN_CTRL.BUSY) = 1
            ∧ (halfRuns s h = true → bitSet (rget s (sf h F.SCRR_SLOTS.EN)) 3 = true → bitSet (rget t (sf h F.SCRR_SLOTS.PEND)) 3 = true)))
        ∧ Runs (.mbinClear r x) s (fun t => (half t h).inbox = [] ∧ rget t (sf h F.SCRR_MBIN_CTRL.BUSY) = 0 ∧ rget t (sf h F.SCRR_MBIN_CTRL.COUNT) = 0))

/-- R384, R385, R387, R388: EVA serves a source whose raw state is 1 and whose EVA_PEND bit is 0: the bit is set and shown in EVA_LAST, IRQ_N follows, and an
enabled source's message goes, or is held while its vector cannot send. The end of a vector's gap sends the one message of what was folded into it. A write of
1 to an EVA_PEND bit clears it unless the raw state is 1; a forced source becomes pending; the enables and the vectors are as written. -/
def Obligations.EventsServed : Prop :=
  ∀ (s : State) (r : Req) (n v j m : Nat), Up s →
    let irq (t : State) : Prop := on t F.EVA_IRQ.LEVEL = irqLow t
    let others (t : State) : Prop := ∀ k, k < 128 → k ≠ n → evPend t k = evPend s k
    (n < 128 → evRaw s n = true → evPend s n = false → Runs (.evaSourceRise n) s (fun t => evPend t n = true ∧ others t ∧ irq t
        ∧ rget t F.EVA_LAST.EV = n ∧ rget t F.EVA_LAST.STROKE_LO = strokeNow s % 2 ^ 32
        ∧ (on s F.EVA_CTRL.MSIX_EN = true → evEn s n = true → rget s F.EVA_CTRL.VEC_GAP_US = 0 →
            (vecBlocked s (evVec s n) = false → .msix (evVec s n) ∈ t.out)
            ∧ (vecBlocked s (evVec s n) = true → evVec s n < 32 → bitSet (rget t F.EVA_VPEND.HELD) (evVec s n) = true ∧ Pends pEVA 0 t))
        ∧ Within [.eva, .queues, .halves, .out] [pEVA, pQUE, pSCRR, pSCRV] s t))
    ∧ (n < 128 → evRaw s n = false → Runs (.evaSourceRise n) s (fun t => evPend t n = evPend s n ∧ others t ∧ irq t
        ∧ Within [.eva, .queues, .halves, .out] [pEVA, pQUE, pSCRR, pSCRV] s t))
    ∧ (v < 32 → s.eva.folded.contains v = true → vecBlocked s v = false → rget s F.EVA_CTRL.VEC_GAP_US ≠ 0 → Runs (.vecGapExpiry v) s (fun t =>
        t.out = s.out ++ [.msix v] ∧ rget t F.EVA_MSGS.SENT = min (2 ^ 32 - 1) (rget s F.EVA_MSGS.SENT + 1)
        ∧ t.eva.folded = s.eva.folded.filter (· != v) ∧ t.eva.inGap = s.eva.inGap.filter (· != v) ++ [v] ∧ Only [.eva, .out] [F.EVA_MSGS.SENT] s t))
    ∧ (v < 32 → s.eva.folded.contains v = false → Runs (.vecGapExpiry v) s (fun t => t.eva.inGap = s.eva.inGap.filter (· != v) ∧ Only [.eva] [] s t))
    ∧ (j < 2 → Served r.who (regOff (F.EVA_PEND.PEND j)) s → Runs (.evaPendClear r j m) s (fun t => irq t
        ∧ (∀ i, i < 64 → bitSet (rget t (F.EVA_PEND.PEND j)) i = (bitSet (rget s (F.EVA_PEND.PEND j)) i && (!bitSet m i || evRaw s (64 * j + i))))
        ∧ Only [.out] [F.EVA_PEND.PEND j, F.EVA_IRQ.LEVEL, F.EVA_IRQ.ASSERTS, F.EVA_VPEND.VPEND] (accessBegins r.who s) t))
    ∧ (j < 2 → Served r.who (regOff (F.EVA_FORCE.FORCE j)) s → Runs (.evaForce r j m) s (fun t =>
        (∀ i, i < 64 → bitSet m i = true → evReserved (64 * j + i) = false → evPend t (64 * j + i) = true)
        ∧ (∀ k, k < 128 → evPend s k = true → evPend t k = true)
        ∧ ∃ u, Stored (regOff (F.EVA_FORCE.FORCE j)) s u ∧ Within [.eva, .queues, .halves, .out] [pEVA, pQUE, pSCRR, pSCRV] u t))
    ∧ (j < 2 → Served r.who (regOff (F.EVA_EN.EN j)) s → Runs (.evaVecWrite r true j v) s (fun t => irq t
        ∧ (∀ i, i < 64 → bitSet (rget t (F.EVA_EN.EN j)) i = (bitSet v i && !evReserved (64 * j + i)))
        ∧ ∃ u, Stored (regOff (F.EVA_EN.EN j)) s u ∧ Within [.eva, .out] [pEVA] u t))
    ∧ (j < 16 → Served r.who (regOff (F.EVA_VEC.VECTOR j 0)) s → Runs (.evaVecWrite r false j v) s (fun t => irq t
        ∧ (∀ i, i < 8 → evReserved (8 * j + i) = false → rget t (F.EVA_VEC.VECTOR j i) = slice (8 * i) 5 v ∧ rget t (F.EVA_VEC.IRQ j i) = slice (8 * i + 5) 1 v)
        ∧ ∃ u, Stored (regOff (F.EVA_VEC.VECTOR j 0)) s u ∧ Within [.eva, .out] [pEVA] u t))

/-- R395: a second that passes adds 1 to the uptime and the acceleration factor, shown in AF_NOW, to the life used. R407: a JTAG instruction shows in
IR_LAST; one that takes balls from their functions acts with EXT_EN only, and is refused and counted without it; the others never affect the hub. -/
def Obligations.SecondsAndJtag : Prop :=
  ∀ (s : State) (ins : JtagIns) (ir : Nat), Up s → let af := arrhenius (rgetI s F.MON_TJ.TJ)
    Runs .monSecond s (fun t => rget t F.MON_UPTIME.UPTIME_S = min (2 ^ F.MON_UPTIME.UPTIME_S.width - 1) (rget s F.MON_UPTIME.UPTIME_S + 1)
        ∧ rget t F.MON_LIFE.AF_NOW = af ∧ t.mon.eqFrac = (s.mon.eqFrac + af) % 4096
        ∧ rget t F.MON_LIFE.EQ_S = min (2 ^ F.MON_LIFE.EQ_S.width - 1) (rget s F.MON_LIFE.EQ_S + (s.mon.eqFrac + af) / 4096)
        ∧ Only [.mon, .ptp] [F.MON_UPTIME.UPTIME_S, F.MON_LIFE.AF_NOW, F.MON_LIFE.EQ_S, F.TSU_HOLD_INFO.SINCE_S] s t)
    ∧ (jtagIntrusive ins = false → Runs (.jtagInstruction ins ir) s (fun t => rget t F.TEST_JTAG.IR_LAST = ir % 256 ∧ t.tst = { s.tst with scan := none }
        ∧ Only [.tst] [F.TEST_JTAG.IR_LAST] s t))
    ∧ (jtagIntrusive ins = true → on s F.TEST_JTAG.EXT_EN = true → Runs (.jtagInstruction ins ir) s (fun t => rget t F.TEST_JTAG.IR_LAST = ir % 256
        ∧ t.tst = { s.tst with scan := some ins } ∧ Only [.tst] [F.TEST_JTAG.IR_LAST] s t))
    ∧ (jtagIntrusive ins = true → on s F.TEST_JTAG.EXT_EN = false → Runs (.jtagInstruction ins ir) s (fun t => rget t F.TEST_JTAG.IR_LAST = ir % 256
        ∧ t.tst = { s.tst with scan := none } ∧ Pends pTEST 7 t
        ∧ rget t F.TEST_JTAG.EXT_REFUSED = min (2 ^ F.TEST_JTAG.EXT_REFUSED.width - 1) (rget s F.TEST_JTAG.EXT_REFUSED + 1)
        ∧ Only [.tst, .eva] [F.TEST_JTAG.IR_LAST, F.TEST_JTAG.EXT_REFUSED, F.EVT_PEND.PEND pTEST] s t))

/-- R300, R315, R317, R321, R385: the data link that goes down is counted and parks the DMA engine; as it comes up it shows its rate and width. Each reset of
the link counts and returns the configuration space to its reset values, and leaves every register page but PCIE's and DMA's own status as it is. Every
message held goes, in ascending vector order, once nothing holds its vector: with the link up, Bus Master Enable set, the vector unmasked. -/
def Obligations.PcieLinkEvents : Prop :=
  ∀ (s : State) (rid speed width v : Nat), Up s →
    let parked (t : State) : Prop := on t F.DMA_STATUS.LINK_PARK = true
    let released (t : State) : Prop :=
      t.out = s.out ++ ((List.range 32).filter (fun k => bitSet (rget s F.EVA_VPEND.HELD) k && !vecBlocked t k)).map Emit.msix
    let configured (t : State) : Prop := rget t F.PCIE_LINK.BME = 0 ∧ rget t F.DMA_STATUS.BME = 0 ∧ rget t F.PCIE_LINK.MSIX_EN = 0
      ∧ rget t F.PCIE_SIZES.MPS = 128 ∧ rget t F.PCIE_SIZES.MRRS = 512 ∧ t.pcie = { s.pcie with funcMask := false, vecMask := 0xFFFFFFFF } ∧ parked t
    (on s F.PCIE_LINK.DL_UP = true → Runs .pcieLinkDown s (fun t => rget t F.PCIE_LINK.DL_UP = 0 ∧ parked t
        ∧ rget t F.PCIE_LCNT.DOWNS = min 65535 (rget s F.PCIE_LCNT.DOWNS + 1) ∧ rget t F.PCIE_DOWN.STROKE = strokeNow s % 2 ^ 64 ∧ Pends pPCIE 0 t
        ∧ Within [.dma, .eva] [pPCIE, pDMA] s t))
    ∧ (on s F.PCIE_LINK.DL_UP = false → speed < 8 → width < 16 → Runs (.pcieLinkUp speed width) s (fun t => rget t F.PCIE_LINK.DL_UP = 1
        ∧ rget t F.PCIE_LINK.SPEED = speed ∧ rget t F.PCIE_LINK.WIDTH = width ∧ rget t F.PCIE_UP.STROKE = strokeNow s % 2 ^ 64 ∧ Pends pPCIE 0 t
        ∧ (rget s F.PCIE_LINK.SPEED ≠ speed ∨ rget s F.PCIE_LINK.WIDTH ≠ width → Pends pPCIE 1 t) ∧ released t ∧ Within [.eva, .out] [pPCIE, pEVA] s t))
    ∧ Runs .pcieHotReset s (fun t => configured t ∧ Pends pPCIE 3 t ∧ rget t F.PCIE_RESETS.HOT = min 65535 (rget s F.PCIE_RESETS.HOT + 1)
        ∧ Within [.dma, .pcie, .eva] [pPCIE, pDMA] s t)
    ∧ Runs .pcieFlr s (fun t => configured t ∧ Pends pPCIE 3 t ∧ rget t F.PCIE_RESETS.FLR = min 65535 (rget s F.PCIE_RESETS.FLR + 1)
        ∧ Within [.dma, .pcie, .eva] [pPCIE, pDMA] s t)
    ∧ Runs .conventionalReset s (fun t => configured t ∧ Within [.dma, .pcie] [pPCIE, pDMA] s t)
    ∧ Runs .pcieD3hotEntry s (fun t => parked t ∧ rget t F.PCIE_RESETS.D3 = min 65535 (rget s F.PCIE_RESETS.D3 + 1) ∧ rget t F.PCIE_LINK.BME = rget s F.PCIE_LINK.BME
        ∧ Within [.dma] [pPCIE, pDMA] s t)
    ∧ (on s F.PCIE_LINK.BME = true → Runs (.bmeClear rid) s (fun t => rget t F.PCIE_LINK.BME = 0 ∧ rget t F.DMA_STATUS.BME = 0 ∧ parked t
        ∧ Within [.dma, .eva] [pPCIE, pDMA] s t))
    ∧ Runs .bmeSet s (fun t => rget t F.PCIE_LINK.BME = 1 ∧ rget t F.DMA_STATUS.BME = 1 ∧ released t ∧ Within [.eva, .out] [pPCIE, pDMA, pEVA] s t)
    ∧ Runs (.msixUnmask none) s (fun t => t.pcie = { s.pcie with funcMask := false } ∧ rget t F.PCIE_LINK.MSIX_EN = 1 ∧ released t
        ∧ Within [.pcie, .eva, .out] [pPCIE, pEVA] s t)
    ∧ (v < 32 → Runs (.msixUnmask (some v)) s (fun t => t.pcie = { s.pcie with vecMask := clrBit s.pcie.vecMask v } ∧ released t
        ∧ Within [.pcie, .eva, .out] [pEVA] s t))

/-- R285, R299, R317, R321: the answers to what a PCI Express partner does wrong are counted and logged with their code; a link that goes through Recovery is
counted, and falls back one rate on the recovery past RECOV_LIM in a second. BAR2 reads are counted and answered, poisoned where every channel fails; a BAR2 write
acts only where DIAG_WR and the view of the frozen channel allow it. -/
def Obligations.PcieTransactions : Prop :=
  ∀ (s : State) (r : Req) (rid ofs len v site ring : Nat) (ce : Option Nat) (b : Byte), Up s → rid < 1024 →
    let logged (code : Nat) (t : State) : Prop := rget t (F.PCIE_VLOG.ENTRY 0) / 2 ^ 40 * 2 ^ 8 = vlogHead 4 code 0 rid
    let counted (f : Fld) (t : State) : Prop := rget t f = min (2 ^ f.width - 1) (rget s f + 1)
    let wire (t : State) : Prop := Within [.eva, .pcie] [pPCIE] s t
    let c := (winView s).getD (if chIn s 0 then 0 else 1)
    Runs (.pcieTlpViolation .malformed rid) s (fun t => counted F.PCIE_ERR.MALFORMED t ∧ wire t)
    ∧ (on s F.PCIE_CTRL.ECRC_CHK = true → Runs (.pcieTlpViolation .ecrc rid) s (fun t => counted F.PCIE_ERR.ECRC t ∧ wire t))
    ∧ Runs (.pcieTlpViolation .bar0Read rid) s (fun t => counted F.PCIE_ERR.UR_SENT t ∧ logged 2 t ∧ t.out = s.out ++ [.completion none]
        ∧ Within [.eva, .out] [pPCIE] s t)
    ∧ Runs (.pcieTlpViolation .bar0Write rid) s (fun t => counted F.PCIE_ERR.UR_SENT t ∧ logged 2 t ∧ wire t)
    ∧ Runs (.pcieTlpViolation .poisoned rid) s (fun t => counted F.PCIE_ERR.POISONED t ∧ logged 3 t ∧ wire t)
    ∧ Runs (.pcieTlpViolation .unexpected rid) s (fun t => counted F.PCIE_CPL.UNEXPECTED t ∧ logged 7 t ∧ wire t)
    ∧ Runs (.pcieTlpViolation .receiver rid) s (fun t => counted F.PCIE_LCNT.RECOVERIES t ∧ wire t)
    ∧ (ring < 32 → qFits s qFLT 6 = false → Runs (.pcieCompletionTimeout site ring rid) s (fun t => counted F.PCIE_CPL.TIMEOUT t ∧ logged 6 t ∧ wire t))
    ∧ (let n := if s.pcie.recovSec = rget s F.MON_UPTIME.UPTIME_S then s.pcie.recov + 1 else 1
       (n ≠ rget s F.PCIE_CTRL.RECOV_LIM + 1 → Runs (.pcieRecovery rid) s (fun t => counted F.PCIE_LCNT.RECOVERIES t ∧ t.pcie.recov = n
          ∧ rget t F.PCIE_LINK.SPEED = rget s F.PCIE_LINK.SPEED ∧ wire t))
       ∧ (n = rget s F.PCIE_CTRL.RECOV_LIM + 1 → on s F.PCIE_CTRL.FALLBACK_EN = true → 1 < rget s F.PCIE_LINK.SPEED → rget s F.PCIE_LINK.SPEED < 8 →
          Runs (.pcieRecovery rid) s (fun t => counted F.PCIE_LCNT.RECOVERIES t ∧ t.pcie.recov = n ∧ logged 9 t
            ∧ rget t F.PCIE_LINK.SPEED = rget s F.PCIE_LINK.SPEED - 1 ∧ counted F.PCIE_LCNT.FALLBACKS t ∧ Pends pPCIE 1 t ∧ wire t)))
    ∧ (Served r.who (regOff F.PCIE_CTRL.RETRAIN) s → Runs (.pcieRetrain r v) s (fun t => counted F.PCIE_LCNT.RECOVERIES t
        ∧ ∃ u, Stored (regOff F.PCIE_CTRL.RETRAIN) s u ∧ Within [.eva, .pcie] [pPCIE] u t))
    ∧ Runs (.bar2Read ofs len true ce) s (fun t => counted F.PCIE_BAR2.READS t ∧ counted F.PCIE_BAR2.POISONED t ∧ t.out = s.out ++ [.completion none]
        ∧ Within [.out] [pPCIE, pINKW] s t)
    ∧ (rget s F.INKW_STATE.CAPACITY_MB * 2 ^ 20 ≤ winAddr s ofs → Runs (.bar2Read ofs len false ce) s (fun t => counted F.PCIE_BAR2.READS t
        ∧ t.out = s.out ++ [.completion (some 0)] ∧ Within [.out] [pPCIE, pINKW] s t))
    ∧ (winAddr s ofs < rget s F.INKW_STATE.CAPACITY_MB * 2 ^ 20 → mget noByte (ddr s c).mem (winAddr s ofs) = some b →
        Runs (.bar2Read ofs 1 false ce) s (fun t => counted F.PCIE_BAR2.READS t ∧ t.out = s.out ++ [.completion (some b.toNat)]
          ∧ Within [.out, .ink] [pPCIE, pINKW] s t))
    ∧ (∀ k, winView s = some k → on s F.INKW_WIN.DIAG_WR = true → frozenCh s = some k → Runs (.bar2Write ofs 1 v rid) s (fun t =>
        mget noByte (ddr t k).mem (winAddr s ofs) = some (BitVec.ofNat 8 v)
          ∧ (∀ a, a ≠ winAddr s ofs → mget noByte (ddr t k).mem a = mget noByte (ddr s k).mem a) ∧ Only [.ink] [] s t))
    ∧ ((∀ k, winView s = some k → on s F.INKW_WIN.DIAG_WR = true → frozenCh s ≠ some k) → Runs (.bar2Write ofs len v rid) s (fun t => logged 4 t ∧ wire t))
end

