-- ==== Sys2Proof/Laws/Map.lean ====
section
/-! SUPPORT. What a sparse table gives back, and that `mput` keeps its canonical form. -/

namespace Sys2Proof.Machine

theorem mget_mdrop_self {β : Type} (d : Nat → β) (k : Nat) : ∀ m : Table β, mget d (mdrop k m) k = d k
  | [] => rfl
  | (a, b) :: rest => by
    unfold mdrop
    split
    · exact mget_mdrop_self d k rest
    · simp only [mget]; rw [if_pos (by omega)]

theorem mget_mdrop_above {β : Type} (d : Nat → β) {k j : Nat} (h : k < j) : ∀ m : Table β, mget d (mdrop k m) j = mget d m j
  | [] => rfl
  | (a, b) :: rest => by
    unfold mdrop
    split
    · rw [mget_mdrop_above d h rest]; simp only [mget]; rw [if_neg (by omega), if_neg (by omega)]
    · rfl

theorem mget_mdrop_below {β : Type} (d : Nat → β) {k j : Nat} (h : j < k) : ∀ m : Table β, mget d (mdrop k m) j = d j
  | [] => rfl
  | (a, b) :: rest => by
    unfold mdrop
    split
    · exact mget_mdrop_below d h rest
    · simp only [mget]; rw [if_pos (by omega)]

/-- A table reads back what was put. -/
@[simp] theorem mget_mput_same {β : Type} [DecidableEq β] (d : Nat → β) (k : Nat) (v : β) : ∀ m : Table β, mget d (mput d k v m) k = v
  | [] => by unfold mput; split <;> simp_all [mget]
  | (a, b) :: rest => by
    unfold mput
    split
    · rename_i h; simp only [mget]; rw [if_neg (by omega), if_neg (by omega)]; exact mget_mput_same d k v rest
    · rename_i h
      by_cases hv : v = d k
      · simp only [if_pos hv]
        split
        · rw [mget_mdrop_self, hv]
        · simp only [mget]; rw [if_pos (by omega), hv]
      · simp [if_neg hv, mget]

/-- A put leaves every other key alone. -/
theorem mget_mput_other {β : Type} [DecidableEq β] (d : Nat → β) {k j : Nat} (v : β) (h : j ≠ k) :
    ∀ m : Table β, mget d (mput d k v m) j = mget d m j
  | [] => by
    unfold mput; split
    · rfl
    · simp [mget, h]
  | (a, b) :: rest => by
    unfold mput
    split
    · simp only [mget]; rw [mget_mput_other d v h rest]
    · rename_i ha
      have tl : mget d (if a = k then mdrop k rest else (a, b) :: rest) j = mget d ((a, b) :: rest) j := by
        split
        · rename_i e
          rcases Nat.lt_or_gt_of_ne h with hj | hj
          · rw [mget_mdrop_below d hj]; simp only [mget]; rw [if_pos (by omega)]
          · rw [mget_mdrop_above d hj]; simp only [mget]; rw [if_neg (by omega), if_neg (by omega)]
        · rfl
      by_cases hv : v = d k
      · simp only [if_pos hv]; exact tl
      · simp only [if_neg hv]
        rw [show mget d ((k, v) :: (if a = k then mdrop k rest else (a, b) :: rest)) j =
          if j < k then d j else if j = k then v else mget d (if a = k then mdrop k rest else (a, b) :: rest) j from rfl, if_neg h, tl]
        split
        · simp only [mget]; rw [if_pos (by omega)]
        · rfl

theorem mwfFrom_mono {β : Type} [DecidableEq β] (d : Nat → β) {lo lo' : Nat} (h : lo ≤ lo') :
    ∀ m : Table β, mwfFrom d lo' m = true → mwfFrom d lo m = true
  | [], _ => rfl
  | (a, b) :: rest, hm => by
    simp only [mwfFrom, Bool.and_eq_true, decide_eq_true_eq] at hm ⊢
    exact ⟨⟨by omega, hm.1.2⟩, hm.2⟩

theorem mdrop_of_above {β : Type} [DecidableEq β] (d : Nat → β) {k lo : Nat} (h : k < lo) :
    ∀ m : Table β, mwfFrom d lo m = true → mdrop k m = m
  | [], _ => rfl
  | (a, b) :: rest, hm => by
    simp only [mwfFrom, Bool.and_eq_true, decide_eq_true_eq] at hm
    unfold mdrop; rw [if_neg (by omega)]

theorem mwfFrom_mput {β : Type} [DecidableEq β] (d : Nat → β) (k : Nat) (v : β) :
    ∀ (lo : Nat) (m : Table β), lo ≤ k → mwfFrom d lo m = true → mwfFrom d lo (mput d k v m) = true
  | lo, [], h, _ => by
    unfold mput; split
    · rfl
    · simp only [mwfFrom, Bool.and_true, Bool.and_eq_true, decide_eq_true_eq]; exact ⟨h, by assumption⟩
  | lo, (a, b) :: rest, h, hm => by
    have hm' := hm
    simp only [mwfFrom, Bool.and_eq_true, decide_eq_true_eq] at hm'
    unfold mput
    split
    · simp only [mwfFrom, Bool.and_eq_true, decide_eq_true_eq]
      exact ⟨hm'.1, mwfFrom_mput d k v (a + 1) rest (by omega) hm'.2⟩
    · rename_i ha
      have tl : mwfFrom d (k + 1) (if a = k then mdrop k rest else (a, b) :: rest) = true := by
        split
        · rename_i e
          rw [mdrop_of_above d (lo := a + 1) (by omega) rest hm'.2]
          exact e ▸ hm'.2
        · simp only [mwfFrom, Bool.and_eq_true, decide_eq_true_eq]; exact ⟨⟨by omega, hm'.1.2⟩, hm'.2⟩
      by_cases hv : v = d k
      · simp only [if_pos hv]; exact mwfFrom_mono d (by omega) _ tl
      · simp only [if_neg hv]
        rw [show mwfFrom d lo ((k, v) :: (if a = k then mdrop k rest else (a, b) :: rest)) =
          (decide (lo ≤ k) && decide (v ≠ d k) && mwfFrom d (k + 1) (if a = k then mdrop k rest else (a, b) :: rest)) from rfl, tl]
        simp [h, hv]

/-- Every put keeps the canonical form. -/
theorem mwf_mput {β : Type} [DecidableEq β] (d : Nat → β) (k : Nat) (v : β) (m : Table β) (h : mwf d m = true) :
    mwf d (mput d k v m) = true := mwfFrom_mput d k v 0 m (Nat.zero_le k) h

end Sys2Proof.Machine
end

