-- ==== Sys2Proof/Laws/State.lean ====
section
/-! SUPPORT. What each basic update of the state does to each of its fields, and what a register reads as after it. -/

namespace Sys2Proof.Machine

/-! ### The register table -/

@[simp] theorem rget_rset_same (f : Fld) (v : Nat) (s : State) : rget (rset f v s) f = v % 2 ^ f.width := by
  unfold rget rset; split <;> simp [mget_mput_same]

theorem rget_rset_other {f g : Fld} (v : Nat) (s : State) (h : g.key ≠ f.key) : rget (rset f v s) g = rget s g := by
  unfold rget rset
  split <;> split <;> simp [mget_mput_other _ _ h]

@[simp] theorem sget_sset_same (f : Fld) (v : Nat) (s : State) : sget (sset f v s) f = v % 2 ^ f.width := by simp [sget, sset]

theorem sget_sset_other {f g : Fld} (v : Nat) (s : State) (h : g.key ≠ f.key) : sget (sset f v s) g = sget s g := by
  simp [sget, sset, mget_mput_other _ _ h]

@[simp] theorem rget_sset (f g : Fld) (v : Nat) (s : State) : rget (sset f v s) g = rget s g := rfl
@[simp] theorem sget_rset (f g : Fld) (v : Nat) (s : State) : sget (rset f v s) g = sget s g := rfl

/-- What a field reads as after a write of any field. -/
theorem rget_rset (f g : Fld) (v : Nat) (s : State) : rget (rset f v s) g = if g.key = f.key then v % 2 ^ f.width else rget s g := by
  split
  · rename_i h; unfold rget rset; rw [h]; split <;> simp [mget_mput_same]
  · rename_i h; exact rget_rset_other v s h

/-- A field that does not commit on a stroke stands in `regs` alone, and one that does in `live` alone. -/
theorem rset_live_of_lt {f : Fld} (v : Nat) (s : State) (h : f.key < strokeBase) : (rset f v s).live = s.live := by
  simp [rset, Nat.not_le.mpr h]

theorem rset_regs_of_le {f : Fld} (v : Nat) (s : State) (h : strokeBase ≤ f.key) : (rset f v s).regs = s.regs := by
  simp only [rset, if_pos h]

/-- Every register write keeps the canonical form of the tables. -/
theorem rset_regs_wf (f : Fld) (v : Nat) (s : State) (h : mwf resetOf s.regs = true) : mwf resetOf (rset f v s).regs = true := by
  unfold rset; split
  · exact h
  · exact mwf_mput _ _ _ _ h

theorem rset_live_wf (f : Fld) (v : Nat) (s : State) (h : mwf resetOf s.live = true) : mwf resetOf (rset f v s).live = true := by
  unfold rset; split
  · exact mwf_mput _ _ _ _ h
  · exact h

theorem sset_wf (f : Fld) (v : Nat) (s : State) (h : mwf resetOf s.shad = true) : mwf resetOf (sset f v s).shad = true := mwf_mput _ _ _ _ h

@[simp] theorem whenB_true (f : State → State) (s : State) : whenB true f s = f s := rfl
@[simp] theorem whenB_false (f : State → State) (s : State) : whenB false f s = s := rfl
@[simp] theorem forAll_nil {α : Type} (f : α → State → State) (s : State) : forAll [] f s = s := rfl
@[simp] theorem forAll_cons {α : Type} (x : α) (xs : List α) (f : α → State → State) (s : State) :
    forAll (x :: xs) f s = forAll xs f (f x s) := rfl

/-- What every element's turn keeps, the whole loop keeps. -/
theorem forAll_keeps {α β : Type} (π : State → β) (f : α → State → State) (h : ∀ x s, π (f x s) = π s) :
    ∀ (xs : List α) (s : State), π (forAll xs f s) = π s
  | [], _ => rfl
  | x :: xs, s => by rw [forAll_cons, forAll_keeps π f h xs, h]

/-- What the update keeps, its conditional form keeps. -/
theorem whenB_keeps {β : Type} (π : State → β) (c : Bool) (f : State → State) (h : ∀ s, π (f s) = π s) (s : State) :
    π (whenB c f s) = π s := by cases c <;> simp [h]

/-! ### rset -/

@[simp] theorem rset_pending (f : Fld) (v : Nat) (s : State) : (rset f v s).pending = s.pending := rfl
@[simp] theorem rset_shad (f : Fld) (v : Nat) (s : State) : (rset f v s).shad = s.shad := rfl
@[simp] theorem rset_out (f : Fld) (v : Nat) (s : State) : (rset f v s).out = s.out := rfl
@[simp] theorem rset_free (f : Fld) (v : Nat) (s : State) : (rset f v s).free = s.free := rfl
@[simp] theorem rset_struck (f : Fld) (v : Nat) (s : State) : (rset f v s).struck = s.struck := rfl
@[simp] theorem rset_strikeDclk (f : Fld) (v : Nat) (s : State) : (rset f v s).strikeDclk = s.strikeDclk := rfl
@[simp] theorem rset_spine (f : Fld) (v : Nat) (s : State) : (rset f v s).spine = s.spine := rfl
@[simp] theorem rset_sets (f : Fld) (v : Nat) (s : State) : (rset f v s).sets = s.sets := rfl
@[simp] theorem rset_chanFe (f : Fld) (v : Nat) (s : State) : (rset f v s).chanFe = s.chanFe := rfl
@[simp] theorem rset_groupFe (f : Fld) (v : Nat) (s : State) : (rset f v s).groupFe = s.groupFe := rfl
@[simp] theorem rset_acq (f : Fld) (v : Nat) (s : State) : (rset f v s).acq = s.acq := rfl
@[simp] theorem rset_lanes (f : Fld) (v : Nat) (s : State) : (rset f v s).lanes = s.lanes := rfl
@[simp] theorem rset_nibs (f : Fld) (v : Nat) (s : State) : (rset f v s).nibs = s.nibs := rfl
@[simp] theorem rset_trim (f : Fld) (v : Nat) (s : State) : (rset f v s).trim = s.trim := rfl
@[simp] theorem rset_filt (f : Fld) (v : Nat) (s : State) : (rset f v s).filt = s.filt := rfl
@[simp] theorem rset_queues (f : Fld) (v : Nat) (s : State) : (rset f v s).queues = s.queues := rfl
@[simp] theorem rset_tsu (f : Fld) (v : Nat) (s : State) : (rset f v s).tsu = s.tsu := rfl
@[simp] theorem rset_ptp (f : Fld) (v : Nat) (s : State) : (rset f v s).ptp = s.ptp := rfl
@[simp] theorem rset_touts (f : Fld) (v : Nat) (s : State) : (rset f v s).touts = s.touts := rfl
@[simp] theorem rset_lq (f : Fld) (v : Nat) (s : State) : (rset f v s).lq = s.lq := rfl
@[simp] theorem rset_eva (f : Fld) (v : Nat) (s : State) : (rset f v s).eva = s.eva := rfl
@[simp] theorem rset_mon (f : Fld) (v : Nat) (s : State) : (rset f v s).mon = s.mon := rfl
@[simp] theorem rset_trg (f : Fld) (v : Nat) (s : State) : (rset f v s).trg = s.trg := rfl
@[simp] theorem rset_caps (f : Fld) (v : Nat) (s : State) : (rset f v s).caps = s.caps := rfl
@[simp] theorem rset_ink (f : Fld) (v : Nat) (s : State) : (rset f v s).ink = s.ink := rfl
@[simp] theorem rset_duc (f : Fld) (v : Nat) (s : State) : (rset f v s).duc = s.duc := rfl
@[simp] theorem rset_dma (f : Fld) (v : Nat) (s : State) : (rset f v s).dma = s.dma := rfl
@[simp] theorem rset_ldu (f : Fld) (v : Nat) (s : State) : (rset f v s).ldu = s.ldu := rfl
@[simp] theorem rset_pcie (f : Fld) (v : Nat) (s : State) : (rset f v s).pcie = s.pcie := rfl
@[simp] theorem rset_halves (f : Fld) (v : Nat) (s : State) : (rset f v s).halves = s.halves := rfl
@[simp] theorem rset_pen (f : Fld) (v : Nat) (s : State) : (rset f v s).pen = s.pen := rfl
@[simp] theorem rset_tst (f : Fld) (v : Nat) (s : State) : (rset f v s).tst = s.tst := rfl
@[simp] theorem rset_boot (f : Fld) (v : Nat) (s : State) : (rset f v s).boot = s.boot := rfl
@[simp] theorem rset_eth (f : Fld) (v : Nat) (s : State) : (rset f v s).eth = s.eth := rfl
@[simp] theorem rset_ilk (f : Fld) (v : Nat) (s : State) : (rset f v s).ilk = s.ilk := rfl

/-! ### sset -/

@[simp] theorem sset_pending (f : Fld) (v : Nat) (s : State) : (sset f v s).pending = s.pending := rfl
@[simp] theorem sset_regs (f : Fld) (v : Nat) (s : State) : (sset f v s).regs = s.regs := rfl
@[simp] theorem sset_live (f : Fld) (v : Nat) (s : State) : (sset f v s).live = s.live := rfl
@[simp] theorem sset_out (f : Fld) (v : Nat) (s : State) : (sset f v s).out = s.out := rfl
@[simp] theorem sset_free (f : Fld) (v : Nat) (s : State) : (sset f v s).free = s.free := rfl
@[simp] theorem sset_struck (f : Fld) (v : Nat) (s : State) : (sset f v s).struck = s.struck := rfl
@[simp] theorem sset_strikeDclk (f : Fld) (v : Nat) (s : State) : (sset f v s).strikeDclk = s.strikeDclk := rfl
@[simp] theorem sset_spine (f : Fld) (v : Nat) (s : State) : (sset f v s).spine = s.spine := rfl
@[simp] theorem sset_sets (f : Fld) (v : Nat) (s : State) : (sset f v s).sets = s.sets := rfl
@[simp] theorem sset_chanFe (f : Fld) (v : Nat) (s : State) : (sset f v s).chanFe = s.chanFe := rfl
@[simp] theorem sset_groupFe (f : Fld) (v : Nat) (s : State) : (sset f v s).groupFe = s.groupFe := rfl
@[simp] theorem sset_acq (f : Fld) (v : Nat) (s : State) : (sset f v s).acq = s.acq := rfl
@[simp] theorem sset_lanes (f : Fld) (v : Nat) (s : State) : (sset f v s).lanes = s.lanes := rfl
@[simp] theorem sset_nibs (f : Fld) (v : Nat) (s : State) : (sset f v s).nibs = s.nibs := rfl
@[simp] theorem sset_trim (f : Fld) (v : Nat) (s : State) : (sset f v s).trim = s.trim := rfl
@[simp] theorem sset_filt (f : Fld) (v : Nat) (s : State) : (sset f v s).filt = s.filt := rfl
@[simp] theorem sset_queues (f : Fld) (v : Nat) (s : State) : (sset f v s).queues = s.queues := rfl
@[simp] theorem sset_tsu (f : Fld) (v : Nat) (s : State) : (sset f v s).tsu = s.tsu := rfl
@[simp] theorem sset_ptp (f : Fld) (v : Nat) (s : State) : (sset f v s).ptp = s.ptp := rfl
@[simp] theorem sset_touts (f : Fld) (v : Nat) (s : State) : (sset f v s).touts = s.touts := rfl
@[simp] theorem sset_lq (f : Fld) (v : Nat) (s : State) : (sset f v s).lq = s.lq := rfl
@[simp] theorem sset_eva (f : Fld) (v : Nat) (s : State) : (sset f v s).eva = s.eva := rfl
@[simp] theorem sset_mon (f : Fld) (v : Nat) (s : State) : (sset f v s).mon = s.mon := rfl
@[simp] theorem sset_trg (f : Fld) (v : Nat) (s : State) : (sset f v s).trg = s.trg := rfl
@[simp] theorem sset_caps (f : Fld) (v : Nat) (s : State) : (sset f v s).caps = s.caps := rfl
@[simp] theorem sset_ink (f : Fld) (v : Nat) (s : State) : (sset f v s).ink = s.ink := rfl
@[simp] theorem sset_duc (f : Fld) (v : Nat) (s : State) : (sset f v s).duc = s.duc := rfl
@[simp] theorem sset_dma (f : Fld) (v : Nat) (s : State) : (sset f v s).dma = s.dma := rfl
@[simp] theorem sset_ldu (f : Fld) (v : Nat) (s : State) : (sset f v s).ldu = s.ldu := rfl
@[simp] theorem sset_pcie (f : Fld) (v : Nat) (s : State) : (sset f v s).pcie = s.pcie := rfl
@[simp] theorem sset_halves (f : Fld) (v : Nat) (s : State) : (sset f v s).halves = s.halves := rfl
@[simp] theorem sset_pen (f : Fld) (v : Nat) (s : State) : (sset f v s).pen = s.pen := rfl
@[simp] theorem sset_tst (f : Fld) (v : Nat) (s : State) : (sset f v s).tst = s.tst := rfl
@[simp] theorem sset_boot (f : Fld) (v : Nat) (s : State) : (sset f v s).boot = s.boot := rfl
@[simp] theorem sset_eth (f : Fld) (v : Nat) (s : State) : (sset f v s).eth = s.eth := rfl
@[simp] theorem sset_ilk (f : Fld) (v : Nat) (s : State) : (sset f v s).ilk = s.ilk := rfl

/-! ### emit -/

@[simp] theorem emit_pending (e : Emit) (s : State) : (emit e s).pending = s.pending := rfl
@[simp] theorem emit_regs (e : Emit) (s : State) : (emit e s).regs = s.regs := rfl
@[simp] theorem emit_live (e : Emit) (s : State) : (emit e s).live = s.live := rfl
@[simp] theorem emit_shad (e : Emit) (s : State) : (emit e s).shad = s.shad := rfl
@[simp] theorem emit_out (e : Emit) (s : State) : (emit e s).out = s.out ++ [e] := rfl
@[simp] theorem emit_free (e : Emit) (s : State) : (emit e s).free = s.free := rfl
@[simp] theorem emit_struck (e : Emit) (s : State) : (emit e s).struck = s.struck := rfl
@[simp] theorem emit_strikeDclk (e : Emit) (s : State) : (emit e s).strikeDclk = s.strikeDclk := rfl
@[simp] theorem emit_spine (e : Emit) (s : State) : (emit e s).spine = s.spine := rfl
@[simp] theorem emit_sets (e : Emit) (s : State) : (emit e s).sets = s.sets := rfl
@[simp] theorem emit_chanFe (e : Emit) (s : State) : (emit e s).chanFe = s.chanFe := rfl
@[simp] theorem emit_groupFe (e : Emit) (s : State) : (emit e s).groupFe = s.groupFe := rfl
@[simp] theorem emit_acq (e : Emit) (s : State) : (emit e s).acq = s.acq := rfl
@[simp] theorem emit_lanes (e : Emit) (s : State) : (emit e s).lanes = s.lanes := rfl
@[simp] theorem emit_nibs (e : Emit) (s : State) : (emit e s).nibs = s.nibs := rfl
@[simp] theorem emit_trim (e : Emit) (s : State) : (emit e s).trim = s.trim := rfl
@[simp] theorem emit_filt (e : Emit) (s : State) : (emit e s).filt = s.filt := rfl
@[simp] theorem emit_queues (e : Emit) (s : State) : (emit e s).queues = s.queues := rfl
@[simp] theorem emit_tsu (e : Emit) (s : State) : (emit e s).tsu = s.tsu := rfl
@[simp] theorem emit_ptp (e : Emit) (s : State) : (emit e s).ptp = s.ptp := rfl
@[simp] theorem emit_touts (e : Emit) (s : State) : (emit e s).touts = s.touts := rfl
@[simp] theorem emit_lq (e : Emit) (s : State) : (emit e s).lq = s.lq := rfl
@[simp] theorem emit_eva (e : Emit) (s : State) : (emit e s).eva = s.eva := rfl
@[simp] theorem emit_mon (e : Emit) (s : State) : (emit e s).mon = s.mon := rfl
@[simp] theorem emit_trg (e : Emit) (s : State) : (emit e s).trg = s.trg := rfl
@[simp] theorem emit_caps (e : Emit) (s : State) : (emit e s).caps = s.caps := rfl
@[simp] theorem emit_ink (e : Emit) (s : State) : (emit e s).ink = s.ink := rfl
@[simp] theorem emit_duc (e : Emit) (s : State) : (emit e s).duc = s.duc := rfl
@[simp] theorem emit_dma (e : Emit) (s : State) : (emit e s).dma = s.dma := rfl
@[simp] theorem emit_ldu (e : Emit) (s : State) : (emit e s).ldu = s.ldu := rfl
@[simp] theorem emit_pcie (e : Emit) (s : State) : (emit e s).pcie = s.pcie := rfl
@[simp] theorem emit_halves (e : Emit) (s : State) : (emit e s).halves = s.halves := rfl
@[simp] theorem emit_pen (e : Emit) (s : State) : (emit e s).pen = s.pen := rfl
@[simp] theorem emit_tst (e : Emit) (s : State) : (emit e s).tst = s.tst := rfl
@[simp] theorem emit_boot (e : Emit) (s : State) : (emit e s).boot = s.boot := rfl
@[simp] theorem emit_eth (e : Emit) (s : State) : (emit e s).eth = s.eth := rfl
@[simp] theorem emit_ilk (e : Emit) (s : State) : (emit e s).ilk = s.ilk := rfl

/-! ### freeNext -/

@[simp] theorem freeNext_pending (s : State) : (freeNext s).pending = s.pending := rfl
@[simp] theorem freeNext_regs (s : State) : (freeNext s).regs = s.regs := rfl
@[simp] theorem freeNext_live (s : State) : (freeNext s).live = s.live := rfl
@[simp] theorem freeNext_shad (s : State) : (freeNext s).shad = s.shad := rfl
@[simp] theorem freeNext_out (s : State) : (freeNext s).out = s.out := rfl
@[simp] theorem freeNext_free  (s : State) : (freeNext  s).free = s.free + 1 := rfl
@[simp] theorem freeNext_struck (s : State) : (freeNext s).struck = s.struck := rfl
@[simp] theorem freeNext_strikeDclk (s : State) : (freeNext s).strikeDclk = s.strikeDclk := rfl
@[simp] theorem freeNext_spine (s : State) : (freeNext s).spine = s.spine := rfl
@[simp] theorem freeNext_sets (s : State) : (freeNext s).sets = s.sets := rfl
@[simp] theorem freeNext_chanFe (s : State) : (freeNext s).chanFe = s.chanFe := rfl
@[simp] theorem freeNext_groupFe (s : State) : (freeNext s).groupFe = s.groupFe := rfl
@[simp] theorem freeNext_acq (s : State) : (freeNext s).acq = s.acq := rfl
@[simp] theorem freeNext_lanes (s : State) : (freeNext s).lanes = s.lanes := rfl
@[simp] theorem freeNext_nibs (s : State) : (freeNext s).nibs = s.nibs := rfl
@[simp] theorem freeNext_trim (s : State) : (freeNext s).trim = s.trim := rfl
@[simp] theorem freeNext_filt (s : State) : (freeNext s).filt = s.filt := rfl
@[simp] theorem freeNext_queues (s : State) : (freeNext s).queues = s.queues := rfl
@[simp] theorem freeNext_tsu (s : State) : (freeNext s).tsu = s.tsu := rfl
@[simp] theorem freeNext_ptp (s : State) : (freeNext s).ptp = s.ptp := rfl
@[simp] theorem freeNext_touts (s : State) : (freeNext s).touts = s.touts := rfl
@[simp] theorem freeNext_lq (s : State) : (freeNext s).lq = s.lq := rfl
@[simp] theorem freeNext_eva (s : State) : (freeNext s).eva = s.eva := rfl
@[simp] theorem freeNext_mon (s : State) : (freeNext s).mon = s.mon := rfl
@[simp] theorem freeNext_trg (s : State) : (freeNext s).trg = s.trg := rfl
@[simp] theorem freeNext_caps (s : State) : (freeNext s).caps = s.caps := rfl
@[simp] theorem freeNext_ink (s : State) : (freeNext s).ink = s.ink := rfl
@[simp] theorem freeNext_duc (s : State) : (freeNext s).duc = s.duc := rfl
@[simp] theorem freeNext_dma (s : State) : (freeNext s).dma = s.dma := rfl
@[simp] theorem freeNext_ldu (s : State) : (freeNext s).ldu = s.ldu := rfl
@[simp] theorem freeNext_pcie (s : State) : (freeNext s).pcie = s.pcie := rfl
@[simp] theorem freeNext_halves (s : State) : (freeNext s).halves = s.halves := rfl
@[simp] theorem freeNext_pen (s : State) : (freeNext s).pen = s.pen := rfl
@[simp] theorem freeNext_tst (s : State) : (freeNext s).tst = s.tst := rfl
@[simp] theorem freeNext_boot (s : State) : (freeNext s).boot = s.boot := rfl
@[simp] theorem freeNext_eth (s : State) : (freeNext s).eth = s.eth := rfl
@[simp] theorem freeNext_ilk (s : State) : (freeNext s).ilk = s.ilk := rfl

/-! ### The registers after the other updates -/

@[simp] theorem rget_emit (e : Emit) (s : State) (y : Fld) : rget (emit e s) y = rget s y := rfl
@[simp] theorem sget_emit (e : Emit) (s : State) (y : Fld) : sget (emit e s) y = sget s y := rfl
@[simp] theorem rget_freeNext (s : State) (y : Fld) : rget (freeNext s) y = rget s y := rfl
@[simp] theorem sget_freeNext (s : State) (y : Fld) : sget (freeNext s) y = sget s y := rfl
@[simp] theorem rget_setIlk (f : Ilk → Ilk) (s : State) (y : Fld) : rget (setIlk f s) y = rget s y := rfl
@[simp] theorem sget_setIlk (f : Ilk → Ilk) (s : State) (y : Fld) : sget (setIlk f s) y = sget s y := rfl
@[simp] theorem setIlk_ilk (f : Ilk → Ilk) (s : State) : (setIlk f s).ilk = f s.ilk := rfl
@[simp] theorem rget_setPtp (f : Ptp → Ptp) (s : State) (y : Fld) : rget (setPtp f s) y = rget s y := rfl
@[simp] theorem sget_setPtp (f : Ptp → Ptp) (s : State) (y : Fld) : sget (setPtp f s) y = sget s y := rfl
@[simp] theorem setPtp_ptp (f : Ptp → Ptp) (s : State) : (setPtp f s).ptp = f s.ptp := rfl
@[simp] theorem rget_setDma (f : Dma → Dma) (s : State) (y : Fld) : rget (setDma f s) y = rget s y := rfl
@[simp] theorem sget_setDma (f : Dma → Dma) (s : State) (y : Fld) : sget (setDma f s) y = sget s y := rfl
@[simp] theorem setDma_dma (f : Dma → Dma) (s : State) : (setDma f s).dma = f s.dma := rfl
@[simp] theorem rget_setInk (f : Ink → Ink) (s : State) (y : Fld) : rget (setInk f s) y = rget s y := rfl
@[simp] theorem sget_setInk (f : Ink → Ink) (s : State) (y : Fld) : sget (setInk f s) y = sget s y := rfl
@[simp] theorem setInk_ink (f : Ink → Ink) (s : State) : (setInk f s).ink = f s.ink := rfl
@[simp] theorem rget_setLdu (f : Ldu → Ldu) (s : State) (y : Fld) : rget (setLdu f s) y = rget s y := rfl
@[simp] theorem sget_setLdu (f : Ldu → Ldu) (s : State) (y : Fld) : sget (setLdu f s) y = sget s y := rfl
@[simp] theorem setLdu_ldu (f : Ldu → Ldu) (s : State) : (setLdu f s).ldu = f s.ldu := rfl
@[simp] theorem rget_setDuc (f : Duc → Duc) (s : State) (y : Fld) : rget (setDuc f s) y = rget s y := rfl
@[simp] theorem sget_setDuc (f : Duc → Duc) (s : State) (y : Fld) : sget (setDuc f s) y = sget s y := rfl
@[simp] theorem setDuc_duc (f : Duc → Duc) (s : State) : (setDuc f s).duc = f s.duc := rfl
@[simp] theorem rget_setPen (f : Pen → Pen) (s : State) (y : Fld) : rget (setPen f s) y = rget s y := rfl
@[simp] theorem sget_setPen (f : Pen → Pen) (s : State) (y : Fld) : sget (setPen f s) y = sget s y := rfl
@[simp] theorem setPen_pen (f : Pen → Pen) (s : State) : (setPen f s).pen = f s.pen := rfl
@[simp] theorem rget_setPcie (f : Pcie → Pcie) (s : State) (y : Fld) : rget (setPcie f s) y = rget s y := rfl
@[simp] theorem sget_setPcie (f : Pcie → Pcie) (s : State) (y : Fld) : sget (setPcie f s) y = sget s y := rfl
@[simp] theorem setPcie_pcie (f : Pcie → Pcie) (s : State) : (setPcie f s).pcie = f s.pcie := rfl
@[simp] theorem rget_setTst (f : Tst → Tst) (s : State) (y : Fld) : rget (setTst f s) y = rget s y := rfl
@[simp] theorem sget_setTst (f : Tst → Tst) (s : State) (y : Fld) : sget (setTst f s) y = sget s y := rfl
@[simp] theorem setTst_tst (f : Tst → Tst) (s : State) : (setTst f s).tst = f s.tst := rfl
@[simp] theorem rget_setTrg (f : Trg → Trg) (s : State) (y : Fld) : rget (setTrg f s) y = rget s y := rfl
@[simp] theorem sget_setTrg (f : Trg → Trg) (s : State) (y : Fld) : sget (setTrg f s) y = sget s y := rfl
@[simp] theorem setTrg_trg (f : Trg → Trg) (s : State) : (setTrg f s).trg = f s.trg := rfl
@[simp] theorem rget_setBoot (f : Boot → Boot) (s : State) (y : Fld) : rget (setBoot f s) y = rget s y := rfl
@[simp] theorem sget_setBoot (f : Boot → Boot) (s : State) (y : Fld) : sget (setBoot f s) y = sget s y := rfl
@[simp] theorem setBoot_boot (f : Boot → Boot) (s : State) : (setBoot f s).boot = f s.boot := rfl
@[simp] theorem rget_setHalf (h : Nat) (f : Half → Half) (s : State) (y : Fld) : rget (setHalf h f s) y = rget s y := rfl
@[simp] theorem sget_setHalf (h : Nat) (f : Half → Half) (s : State) (y : Fld) : sget (setHalf h f s) y = sget s y := rfl
@[simp] theorem setHalf_halves (h : Nat) (f : Half → Half) (s : State) : (setHalf h f s).halves = mput (fun _ => {}) h (f (half s h)) s.halves := rfl
@[simp] theorem rget_setLane (k : Nat) (f : Lane → Lane) (s : State) (y : Fld) : rget (setLane k f s) y = rget s y := rfl
@[simp] theorem sget_setLane (k : Nat) (f : Lane → Lane) (s : State) (y : Fld) : sget (setLane k f s) y = sget s y := rfl
@[simp] theorem setLane_lanes (k : Nat) (f : Lane → Lane) (s : State) : (setLane k f s).lanes = mput (fun _ => {}) k (f (lane s k)) s.lanes := rfl
@[simp] theorem rget_setQueue (q : Nat) (x : QueueSt) (s : State) (y : Fld) : rget (setQueue q x s) y = rget s y := rfl
@[simp] theorem sget_setQueue (q : Nat) (x : QueueSt) (s : State) (y : Fld) : sget (setQueue q x s) y = sget s y := rfl
@[simp] theorem rget_setCommitSet (k : Nat) (x : CommitSet) (s : State) (y : Fld) : rget (setCommitSet k x s) y = rget s y := rfl
@[simp] theorem sget_setCommitSet (k : Nat) (x : CommitSet) (s : State) (y : Fld) : sget (setCommitSet k x s) y = sget s y := rfl
@[simp] theorem rget_setTout (n : Nat) (x : Tout) (s : State) (y : Fld) : rget (setTout n x s) y = rget s y := rfl
@[simp] theorem sget_setTout (n : Nat) (x : Tout) (s : State) (y : Fld) : sget (setTout n x s) y = sget s y := rfl
@[simp] theorem rget_setChanFe (c : Nat) (x : ChanFe) (s : State) (y : Fld) : rget (setChanFe c x s) y = rget s y := rfl
@[simp] theorem sget_setChanFe (c : Nat) (x : ChanFe) (s : State) (y : Fld) : sget (setChanFe c x s) y = sget s y := rfl
@[simp] theorem rget_setGroupFe (g : Nat) (x : GroupFe) (s : State) (y : Fld) : rget (setGroupFe g x s) y = rget s y := rfl
@[simp] theorem sget_setGroupFe (g : Nat) (x : GroupFe) (s : State) (y : Fld) : sget (setGroupFe g x s) y = sget s y := rfl

@[simp] theorem queue_setQueue_same (q : Nat) (x : QueueSt) (s : State) : queue (setQueue q x s) q = x := mget_mput_same _ _ _ _
@[simp] theorem commitSet_setCommitSet_same (k : Nat) (x : CommitSet) (s : State) : commitSet (setCommitSet k x s) k = x := mget_mput_same _ _ _ _
@[simp] theorem chanFe_setChanFe_same (c : Nat) (x : ChanFe) (s : State) : chanFe (setChanFe c x s) c = x := mget_mput_same _ _ _ _
@[simp] theorem groupFe_setGroupFe_same (g : Nat) (x : GroupFe) (s : State) : groupFe (setGroupFe g x s) g = x := mget_mput_same _ _ _ _
@[simp] theorem half_setHalf_same (h : Nat) (f : Half → Half) (s : State) : half (setHalf h f s) h = f (half s h) := mget_mput_same _ _ _ _
@[simp] theorem lane_setLane_same (k : Nat) (f : Lane → Lane) (s : State) : lane (setLane k f s) k = f (lane s k) := mget_mput_same _ _ _ _
@[simp] theorem ilkLane_setIlkLane_same (k : Nat) (f : IlkLane → IlkLane) (s : State) : ilkLane (setIlkLane k f s) k = f (ilkLane s k) :=
  mget_mput_same _ _ _ _
@[simp] theorem tout_setTout_same (n : Nat) (x : Tout) (s : State) : tout (setTout n x s) n = x := mget_mput_same _ _ _ _
@[simp] theorem rget_setIlkLane (k : Nat) (f : IlkLane → IlkLane) (s : State) (y : Fld) : rget (setIlkLane k f s) y = rget s y := rfl

theorem half_setHalf_other {h j : Nat} (f : Half → Half) (s : State) (e : j ≠ h) : half (setHalf h f s) j = half s j := mget_mput_other _ _ e _
theorem lane_setLane_other {k j : Nat} (f : Lane → Lane) (s : State) (e : j ≠ k) : lane (setLane k f s) j = lane s j := mget_mput_other _ _ e _
theorem ilkLane_setIlkLane_other {k j : Nat} (f : IlkLane → IlkLane) (s : State) (e : j ≠ k) : ilkLane (setIlkLane k f s) j = ilkLane s j :=
  mget_mput_other _ _ e _
theorem tout_setTout_other {n j : Nat} (x : Tout) (s : State) (e : j ≠ n) : tout (setTout n x s) j = tout s j := mget_mput_other _ _ e _
theorem queue_setQueue_other {q j : Nat} (x : QueueSt) (s : State) (e : j ≠ q) : queue (setQueue q x s) j = queue s j := mget_mput_other _ _ e _
theorem commitSet_setCommitSet_other {k j : Nat} (x : CommitSet) (s : State) (e : j ≠ k) : commitSet (setCommitSet k x s) j = commitSet s j :=
  mget_mput_other _ _ e _

end Sys2Proof.Machine
end

