-- ==== Sys2Proof/Laws/Frame.lean ====
section
/-! SUPPORT. How frames compose, what the shared updates leave alone, and how a command's completion follows from what it does. -/

namespace Sys2Proof.Machine

/-! ### Frames compose -/

theorem Part.same_refl (s : State) : ∀ p : Part, p.same s s := by intro p; cases p <;> simp [Part.same]

theorem Part.same_trans {s t u : State} : ∀ p : Part, p.same s t → p.same t u → p.same s u := by
  intro p h k; cases p <;> simp_all [Part.same]

theorem Only.refl (s : State) : Only [] [] s s := ⟨fun p _ => Part.same_refl s p, fun _ _ => rfl⟩

theorem Only.trans {ps ps' : List Part} {rs rs' : List Fld} {s t u : State} (h : Only ps rs s t) (k : Only ps' rs' t u) :
    Only (ps ++ ps') (rs ++ rs') s u := by
  refine ⟨fun p hp => ?_, fun f hf => ?_⟩
  · simp only [List.mem_append, not_or] at hp
    exact Part.same_trans p (h.1 p hp.1) (k.1 p hp.2)
  · simp only [List.map_append, List.mem_append, not_or] at hf
    rw [k.2 f hf.2, h.2 f hf.1]

theorem Only.seq {ps : List Part} {rs : List Fld} {s t u : State} (h : Only ps rs s t) (k : Only ps rs t u) : Only ps rs s u :=
  ⟨fun p hp => Part.same_trans p (h.1 p hp) (k.1 p hp), fun f hf => (k.2 f hf).trans (h.2 f hf)⟩

theorem Only.mono {ps ps' : List Part} {rs rs' : List Fld} {s t : State} (h : Only ps rs s t) (hp : ps ⊆ ps') (hr : rs ⊆ rs') :
    Only ps' rs' s t :=
  ⟨fun p k => h.1 p (fun m => k (hp m)), fun f k => h.2 f (fun m => k (List.map_subset _ hr m))⟩

/-- What one value of a conditional touches, its whole touches. -/
theorem Only.ite {c : Prop} [Decidable c] {ps : List Part} {rs : List Fld} {s t u : State} (h : c → Only ps rs s t) (k : ¬c → Only ps rs s u) :
    Only ps rs s (if c then t else u) := by split <;> simp_all

theorem Only.whenB {c : Bool} {f : State → State} {ps : List Part} {rs : List Fld} {s : State} (h : Only ps rs s (f s)) :
    Only ps rs s (Machine.whenB c f s) := by
  cases c
  · exact (Only.refl s).mono (by simp) (by simp)
  · exact h

theorem Only.forAll {α : Type} {f : α → State → State} {ps : List Part} {rs : List Fld} :
    ∀ (xs : List α), (∀ x ∈ xs, ∀ s, Only ps rs s (f x s)) → ∀ s, Only ps rs s (Machine.forAll xs f s)
  | [], _, s => (Only.refl s).mono (by simp) (by simp)
  | x :: xs, h, s => by
    have a := h x (by simp) s
    have b := Only.forAll xs (fun y hy => h y (by simp [hy])) (f x s)
    exact (a.trans b).mono (by simp) (by simp)

theorem Only.get {ps : List Part} {rs : List Fld} {s t : State} (h : Only ps rs s t) {f : Fld} (k : f.key ∉ rs.map (·.key)) :
    rget t f = rget s f := h.2 f k

/-! ### One part replaced -/

theorem pending_only (x : List Instr) (s : State) : Only [.pending] [] s { s with pending := x } :=
  ⟨fun p hp => by cases p <;> simp_all [Part.same], fun _ _ => rfl⟩

theorem shad_only (x : Table Nat) (s : State) : Only [.shad] [] s { s with shad := x } :=
  ⟨fun p hp => by cases p <;> simp_all [Part.same], fun _ _ => rfl⟩

theorem out_only (x : List Emit) (s : State) : Only [.out] [] s { s with out := x } :=
  ⟨fun p hp => by cases p <;> simp_all [Part.same], fun _ _ => rfl⟩

theorem free_only (x : Nat) (s : State) : Only [.free] [] s { s with free := x } :=
  ⟨fun p hp => by cases p <;> simp_all [Part.same], fun _ _ => rfl⟩

theorem spine_only (x : Spine) (s : State) : Only [.spine] [] s { s with spine := x } :=
  ⟨fun p hp => by cases p <;> simp_all [Part.same], fun _ _ => rfl⟩

theorem sets_only (x : Table CommitSet) (s : State) : Only [.sets] [] s { s with sets := x } :=
  ⟨fun p hp => by cases p <;> simp_all [Part.same], fun _ _ => rfl⟩

theorem chanFe_only (x : Table ChanFe) (s : State) : Only [.chanFe] [] s { s with chanFe := x } :=
  ⟨fun p hp => by cases p <;> simp_all [Part.same], fun _ _ => rfl⟩

theorem groupFe_only (x : Table GroupFe) (s : State) : Only [.groupFe] [] s { s with groupFe := x } :=
  ⟨fun p hp => by cases p <;> simp_all [Part.same], fun _ _ => rfl⟩

theorem acq_only (x : Acq) (s : State) : Only [.acq] [] s { s with acq := x } :=
  ⟨fun p hp => by cases p <;> simp_all [Part.same], fun _ _ => rfl⟩

theorem lanes_only (x : Table Lane) (s : State) : Only [.lanes] [] s { s with lanes := x } :=
  ⟨fun p hp => by cases p <;> simp_all [Part.same], fun _ _ => rfl⟩

theorem nibs_only (x : Nibs) (s : State) : Only [.nibs] [] s { s with nibs := x } :=
  ⟨fun p hp => by cases p <;> simp_all [Part.same], fun _ _ => rfl⟩

theorem trim_only (x : Trim) (s : State) : Only [.trim] [] s { s with trim := x } :=
  ⟨fun p hp => by cases p <;> simp_all [Part.same], fun _ _ => rfl⟩

theorem filt_only (x : Filt) (s : State) : Only [.filt] [] s { s with filt := x } :=
  ⟨fun p hp => by cases p <;> simp_all [Part.same], fun _ _ => rfl⟩

theorem queues_only (x : Table QueueSt) (s : State) : Only [.queues] [] s { s with queues := x } :=
  ⟨fun p hp => by cases p <;> simp_all [Part.same], fun _ _ => rfl⟩

theorem tsu_only (x : Tsu) (s : State) : Only [.tsu] [] s { s with tsu := x } :=
  ⟨fun p hp => by cases p <;> simp_all [Part.same], fun _ _ => rfl⟩

theorem ptp_only (x : Ptp) (s : State) : Only [.ptp] [] s { s with ptp := x } :=
  ⟨fun p hp => by cases p <;> simp_all [Part.same], fun _ _ => rfl⟩

theorem touts_only (x : Table Tout) (s : State) : Only [.touts] [] s { s with touts := x } :=
  ⟨fun p hp => by cases p <;> simp_all [Part.same], fun _ _ => rfl⟩

theorem lq_only (x : Table Wide) (s : State) : Only [.lq] [] s { s with lq := x } :=
  ⟨fun p hp => by cases p <;> simp_all [Part.same], fun _ _ => rfl⟩

theorem eva_only (x : Eva) (s : State) : Only [.eva] [] s { s with eva := x } :=
  ⟨fun p hp => by cases p <;> simp_all [Part.same], fun _ _ => rfl⟩

theorem mon_only (x : Mon) (s : State) : Only [.mon] [] s { s with mon := x } :=
  ⟨fun p hp => by cases p <;> simp_all [Part.same], fun _ _ => rfl⟩

theorem trg_only (x : Trg) (s : State) : Only [.trg] [] s { s with trg := x } :=
  ⟨fun p hp => by cases p <;> simp_all [Part.same], fun _ _ => rfl⟩

theorem caps_only (x : Table CapSlot) (s : State) : Only [.caps] [] s { s with caps := x } :=
  ⟨fun p hp => by cases p <;> simp_all [Part.same], fun _ _ => rfl⟩

theorem ink_only (x : Ink) (s : State) : Only [.ink] [] s { s with ink := x } :=
  ⟨fun p hp => by cases p <;> simp_all [Part.same], fun _ _ => rfl⟩

theorem duc_only (x : Duc) (s : State) : Only [.duc] [] s { s with duc := x } :=
  ⟨fun p hp => by cases p <;> simp_all [Part.same], fun _ _ => rfl⟩

theorem dma_only (x : Dma) (s : State) : Only [.dma] [] s { s with dma := x } :=
  ⟨fun p hp => by cases p <;> simp_all [Part.same], fun _ _ => rfl⟩

theorem ldu_only (x : Ldu) (s : State) : Only [.ldu] [] s { s with ldu := x } :=
  ⟨fun p hp => by cases p <;> simp_all [Part.same], fun _ _ => rfl⟩

theorem pcie_only (x : Pcie) (s : State) : Only [.pcie] [] s { s with pcie := x } :=
  ⟨fun p hp => by cases p <;> simp_all [Part.same], fun _ _ => rfl⟩

theorem halves_only (x : Table Half) (s : State) : Only [.halves] [] s { s with halves := x } :=
  ⟨fun p hp => by cases p <;> simp_all [Part.same], fun _ _ => rfl⟩

theorem pen_only (x : Pen) (s : State) : Only [.pen] [] s { s with pen := x } :=
  ⟨fun p hp => by cases p <;> simp_all [Part.same], fun _ _ => rfl⟩

theorem tst_only (x : Tst) (s : State) : Only [.tst] [] s { s with tst := x } :=
  ⟨fun p hp => by cases p <;> simp_all [Part.same], fun _ _ => rfl⟩

theorem boot_only (x : Boot) (s : State) : Only [.boot] [] s { s with boot := x } :=
  ⟨fun p hp => by cases p <;> simp_all [Part.same], fun _ _ => rfl⟩

theorem eth_only (x : Eth) (s : State) : Only [.eth] [] s { s with eth := x } :=
  ⟨fun p hp => by cases p <;> simp_all [Part.same], fun _ _ => rfl⟩

theorem ilk_only (x : Ilk) (s : State) : Only [.ilk] [] s { s with ilk := x } :=
  ⟨fun p hp => by cases p <;> simp_all [Part.same], fun _ _ => rfl⟩

/-! ### The shared updates -/

theorem rset_only (f : Fld) (v : Nat) (s : State) : Only [] [f] s (rset f v s) := by
  refine ⟨fun p _ => by cases p <;> simp [Part.same], fun g hg => rget_rset_other v s (by simpa using hg)⟩

theorem incBy_only (f : Fld) (n : Nat) (s : State) : Only [] [f] s (incBy f n s) := rset_only _ _ _
theorem inc_only (f : Fld) (s : State) : Only [] [f] s (inc f s) := rset_only _ _ _
theorem setBitOf_only (f : Fld) (i : Nat) (s : State) : Only [] [f] s (setBitOf f i s) := rset_only _ _ _
theorem clrBitOf_only (f : Fld) (i : Nat) (s : State) : Only [] [f] s (clrBitOf f i s) := rset_only _ _ _

theorem sset_only (f : Fld) (v : Nat) (s : State) : Only [.shad] [] s (sset f v s) :=
  ⟨fun p hp => by cases p <;> simp_all [Part.same], fun _ _ => rfl⟩

theorem emit_only (e : Emit) (s : State) : Only [.out] [] s (emit e s) :=
  ⟨fun p hp => by cases p <;> simp_all [Part.same], fun _ _ => rfl⟩

theorem freeNext_only (s : State) : Only [.free] [] s (freeNext s) :=
  ⟨fun p hp => by cases p <;> simp_all [Part.same], fun _ _ => rfl⟩

theorem raiseD_only (p b : Nat) (d : Option Nat) (s : State) : Only [.eva] [F.EVT_PEND.PEND p] s (raiseD p b d s) := by
  unfold raiseD
  split
  · exact (Only.refl s).mono (by simp) (by simp)
  · dsimp only
    split
    · exact (setBitOf_only _ _ s).mono (by simp) (by simp)
    · exact ((setBitOf_only _ _ s).trans (eva_only _ _)).mono (by simp) (by simp)

theorem raise_only (p b : Nat) (s : State) : Only [.eva] [F.EVT_PEND.PEND p] s (raise p b s) := raiseD_only p b none s

theorem wear_only (f : Fld) (v : Nat) (s : State) : Only [.eva] [f, F.EVT_PEND.PEND pMON] s (wear f v s) := by
  unfold wear
  split
  · exact (Only.refl s).mono (by simp) (by simp)
  · exact ((rset_only _ _ s).trans (raise_only _ _ _)).mono (by simp) (by simp)

/-! ### Pending sources -/

theorem bitSet_eq_testBit (v i : Nat) : bitSet v i = v.testBit i := by
  simp [bitSet, bit, slice, Nat.testBit, Nat.and_comm, Nat.and_one_is_mod]

theorem bitSet_setBit (v i j : Nat) : bitSet (setBit v i) j = (bitSet v j || decide (i = j)) := by
  simp [bitSet_eq_testBit, setBit, Nat.testBit_or, Nat.testBit_shiftLeft]
  by_cases h : i = j
  · simp [h]
  · have : Nat.testBit 1 (j - i) = decide (j - i = 0) := by
      cases hj : j - i with
      | zero => rfl
      | succ n => simp [Nat.testBit_succ]
    rw [this]; by_cases k : i ≤ j <;> simp [h, k]; omega

theorem bitSet_mod (v w i : Nat) (h : i < w) : bitSet (v % 2 ^ w) i = bitSet v i := by
  simp [bitSet_eq_testBit, Nat.testBit_mod_two_pow, h]

/-- A raised page source is pending. -/
theorem raiseD_pends {p b : Nat} (d : Option Nat) (s : State) (h : b < 17) : Pends p b (raiseD p b d s) := by
  unfold Pends raiseD
  split
  · assumption
  · dsimp only
    have k : bitSet (rget (setBitOf (F.EVT_PEND.PEND p) b s) (F.EVT_PEND.PEND p)) b = true := by
      rw [setBitOf, rget_rset_same, bitSet_mod _ _ _ h, bitSet_setBit]; simp
    split
    · exact k
    · exact k
/-- A source that is pending stays so when another is raised. -/
theorem pend_kept {p b q c : Nat} (d : Option Nat) {s : State} (h : Pends q c s) (hc : c < 17) : Pends q c (raiseD p b d s) := by
  unfold Pends at *
  by_cases e : (F.EVT_PEND.PEND q).key = (F.EVT_PEND.PEND p).key
  · have : q = p := by simp at e; omega
    subst this
    unfold raiseD
    split
    · exact h
    · have k : bitSet (rget (setBitOf (F.EVT_PEND.PEND q) b s) (F.EVT_PEND.PEND q)) c = true := by
        rw [setBitOf, rget_rset_same, bitSet_mod _ _ _ hc, bitSet_setBit, h]; simp
      dsimp only; split <;> exact k
  · rw [(raiseD_only p b d s).get (by simpa using e)]; exact h

theorem raise_pends {p b : Nat} (s : State) (h : b < 17) : Pends p b (raise p b s) := raiseD_pends none s h

/-! ### Commands complete -/

/-- A command that names a unit of the hub and acts within a frame completes with what it does, within that frame. -/
theorem runs_actIn {c : Instr} {s : State} {P : State → Prop} {keep : State → State → State} {ok : Bool} {f : State → State}
    (h : exec c s = actIn keep ok f s) (u : Up s) (k : ok = true) (p : P (keep s (f s))) : Runs c s P :=
  ⟨_, by rw [h, actIn]; simp [show s.boot.held = false from u, k], p⟩

theorem runs_act {c : Instr} {s : State} {P : State → Prop} {ok : Bool} {f : State → State}
    (h : exec c s = act ok f s) (u : Up s) (k : ok = true) (p : P (keepAll s (f s))) : Runs c s P := runs_actIn h u k p

@[simp] theorem keepAll_self (s : State) : keepAll s s = s := by
  cases s; simp [keepAll, keepLive, keepTables, keepTime, keepWear, keepPower]

/-- A field outside the live table reads in a command's result as what the command does leaves it. -/
theorem rget_keepAll {f : Fld} (s t : State) (h : f.key < strokeBase) : rget (keepAll s t) f = rget t f := by
  simp [rget, keepAll, keepLive, keepTables, keepTime, keepWear, keepPower, Nat.not_le.mpr h]

theorem Pends.keepAll {p b : Nat} {s t : State} (hp : p < 64) (h : Pends p b t) : Pends p b (Machine.keepAll s t) := by
  unfold Pends at *
  rw [rget_keepAll s t (by show (p * 4096 + 0x28) * 8 + 0 < 0x1000000; omega)]; exact h

/-- The common frame adds no change. -/
theorem Only.keepAll {ps : List Part} {rs : List Fld} {s t : State} (h : Only ps rs s t) : Only ps rs s (Machine.keepAll s t) := by
  refine ⟨fun p hp => ?_, fun f hf => ?_⟩
  · have := h.1 p hp
    cases p <;> simp_all [Part.same, Machine.keepAll, keepLive, keepTables, keepTime, keepWear, keepPower]
  · by_cases k : strokeBase ≤ f.key
    · simp [rget, Machine.keepAll, keepLive, k]
    · rw [rget_keepAll s t (by omega)]; exact h.2 f hf

end Sys2Proof.Machine
end

