-- ==== Sys2Proof/Laws/Scribes.lean ====
section
/-! SUPPORT. What the scribes' shared operations do: the step to the next word, a tablet or a memory word written, a wait. -/

namespace Sys2Proof.Machine

theorem sideIdx_lt (x : Side) : sideIdx x < 2 := by cases x <;> decide

theorem sf_lt {h : Nat} (f : Fld) (hh : h < 2) (k : f.key < 0x1000000 - 32768) : (sf h f).key < strokeBase := by
  show f.key + 32768 * h < 0x1000000; omega

theorem pc_lt {h : Nat} (hh : h < 2) : (sf h F.SCRR_STATE.PC).key < strokeBase := sf_lt _ hh (by decide)

/-- A scribe command that is due completes with what it does to its half. -/
theorem runs_scr {c : Instr} {op : Nat} {a : ScrAt} {f : Nat → Nat → State → State} {s : State} {P : State → Prop}
    (e : exec c s = act true (scrDo op a f) s) (h : AtCommand op a s)
    (p : P (keepAll s (f (sideIdx a.side) (wordOf a s) s))) : Runs c s P := by
  refine runs_act e h.1 rfl ?_
  have k : scrDo op a f s = f (sideIdx a.side) (wordOf a s) s := by
    have := h.2.2.2
    simp only [wordOf] at this ⊢
    simp [scrDo, scrWhere, h.2.2.1, this, h.2.1]
  rw [k]; exact p

theorem setHalf_only (h : Nat) (f : Half → Half) (s : State) : Only [.halves] [] s (setHalf h f s) := halves_only _ s
theorem tbSet_only (h i v : Nat) (s : State) : Only [.halves] [] s (tbSet h i v s) := setHalf_only _ _ s
theorem memSet_only (h a v : Nat) (s : State) : Only [.halves] [] s (memSet h a v s) := setHalf_only _ _ s
theorem setPc_only (h pc : Nat) (s : State) : Only [] [sf h F.SCRR_STATE.PC] s (setPc h pc s) := rset_only _ _ s
theorem scrNext_only (h : Nat) (s : State) : Only [] [sf h F.SCRR_STATE.PC] s (scrNext h s) := rset_only _ _ s

@[simp] theorem scrPc_setPc (h pc : Nat) (s : State) : scrPc (setPc h pc s) h = pc % 32768 := by simp [scrPc, setPc]
@[simp] theorem scrPc_scrNext (h : Nat) (s : State) : scrPc (scrNext h s) h = (scrPc s h + 1) % 32768 := scrPc_setPc _ _ _
@[simp] theorem scrPc_setHalf (h j : Nat) (f : Half → Half) (s : State) : scrPc (setHalf h f s) j = scrPc s j := rfl
@[simp] theorem half_scrNext (h j : Nat) (s : State) : half (scrNext h s) j = half s j := rfl
@[simp] theorem half_setPc (h pc j : Nat) (s : State) : half (setPc h pc s) j = half s j := rfl
@[simp] theorem half_rset (f : Fld) (v j : Nat) (s : State) : half (rset f v s) j = half s j := rfl
@[simp] theorem half_keepAll (s t : State) (j : Nat) : half (keepAll s t) j = half t j := rfl

theorem scrPc_keepAll {h : Nat} (s t : State) (hh : h < 2) : scrPc (keepAll s t) h = scrPc t h := rget_keepAll s t (pc_lt hh)

theorem PcOnly.keep {h pc : Nat} {s t : State} (hh : h < 2) (k : PcOnly h pc s t) : PcOnly h pc s (keepAll s t) :=
  ⟨by rw [scrPc_keepAll s t hh]; exact k.1, k.2.keepAll⟩

theorem PcOnly.of_setPc (h pc : Nat) (s : State) : PcOnly h (pc % 32768) s (setPc h pc s) := ⟨by simp, setPc_only _ _ _⟩
theorem PcOnly.of_scrNext (h : Nat) (s : State) : PcOnly h ((scrPc s h + 1) % 32768) s (scrNext h s) := ⟨by simp, scrNext_only _ _⟩

theorem TabletOnly.of_tbSet (h i v : Nat) (s : State) : TabletOnly h i (v % 2 ^ 64) s (scrNext h (tbSet h i v s)) := by
  refine ⟨?_, ?_, ?_, ?_, ?_, ((tbSet_only _ _ _ s).trans (scrNext_only _ _)).mono (by simp) (by simp)⟩
  · simp [tbGet, tbSet]
  · intro j hj; simp [tbGet, tbSet, mget_mput_other _ _ hj]
  · simp [tbSet]
  · intro k hk; simp [tbSet, half_setHalf_other _ _ hk]
  · simp [StepsOn, tbSet]

theorem TabletOnly.keep {h i v : Nat} {s t : State} (hh : h < 2) (k : TabletOnly h i v s t) : TabletOnly h i v s (keepAll s t) := by
  obtain ⟨a, b, c, d, e, g⟩ := k
  exact ⟨a, b, c, d, by rw [StepsOn, scrPc_keepAll s t hh]; exact e, g.keepAll⟩

theorem WordOnly.of_memSet (h a v : Nat) (s : State) : WordOnly h a (v % 2 ^ 64) s (scrNext h (memSet h a v s)) := by
  refine ⟨?_, ?_, ?_, ?_, ?_, ((memSet_only _ _ _ s).trans (scrNext_only _ _)).mono (by simp) (by simp)⟩
  · simp [memGet, memSet]
  · intro j hj; simp [memGet, memSet, mget_mput_other _ _ hj]
  · simp [memSet]
  · intro k hk; simp [memSet, half_setHalf_other _ _ hk]
  · simp [StepsOn, memSet]

theorem WordOnly.keep {h i v : Nat} {s t : State} (hh : h < 2) (k : WordOnly h i v s t) : WordOnly h i v s (keepAll s t) := by
  obtain ⟨a, b, c, d, e, g⟩ := k
  exact ⟨a, b, c, d, by rw [StepsOn, scrPc_keepAll s t hh]; exact e, g.keepAll⟩

theorem WaitsOnly.of_setHalf (h : Nat) (x : Wait) (s : State) : WaitsOnly h x s (setHalf h (fun y => { y with wait := x }) s) :=
  ⟨by simp, fun k hk => by simp [half_setHalf_other _ _ hk], setHalf_only _ _ s⟩

theorem WaitsOnly.keep {h : Nat} {x : Wait} {s t : State} (k : WaitsOnly h x s t) : WaitsOnly h x s (keepAll s t) :=
  ⟨k.1, k.2.1, k.2.2.keepAll⟩

/-! ### A slot that ends -/

theorem half_emit (e : Emit) (s : State) (j : Nat) : half (emit e s) j = half s j := rfl
theorem half_raiseD (p b : Nat) (d : Option Nat) (s : State) (j : Nat) : half (raiseD p b d s) j = half s j := by
  unfold half; rw [(raiseD_only p b d s).1 .halves (by simp)]

@[simp] theorem half_raise (p b : Nat) (s : State) (j : Nat) : half (raise p b s) j = half s j := half_raiseD p b none s j
@[simp] theorem half_inc (f : Fld) (s : State) (j : Nat) : half (inc f s) j = half s j := rfl

theorem showTablets_only (h : Nat) (s : State) : Only [] ((List.range 16).map (fun i => sf h (F.SCRR_TB.VALUE i))) s (showTablets h s) :=
  Only.forAll _ (fun i hi s => (rset_only _ _ s).mono (by simp) (by
    intro f hf; simp only [List.mem_singleton] at hf; subst hf; exact List.mem_map.mpr ⟨i, hi, rfl⟩)) s

@[simp] theorem half_showTablets (h : Nat) (s : State) (j : Nat) : half (showTablets h s) j = half s j := by
  unfold half; rw [(showTablets_only h s).1 .halves (by simp)]

theorem endSlot_only (h : Nat) (s : State) : Only [.halves] [sf h F.SCRR_STATE.SLOT, sf h F.SCRR_STATE.IDLE] s (endSlot h s) :=
  (((setHalf_only _ _ s).trans (rset_only _ _ _)).trans (rset_only _ _ _)).mono (by simp) (by simp)

@[simp] theorem half_endSlot_same (h : Nat) (s : State) :
    half (endSlot h s) h = { half s h with run := none, wait := .none, stack := [] } := by simp [endSlot]

theorem satAdd_eq (w v n : Nat) : satAdd w v n = min (2 ^ w - 1) (v + n) := by
  unfold satAdd ones; split <;> omega

/-- A slot that ends with a fault leaves its record (R355). -/
theorem slotFault_faulted {h code : Nat} (hh : h < 2) (hc : code < 256) (s : State) : Faulted h code s (slotFault h code s) := by
  have hp : halfPage h = 2 + h := rfl
  unfold slotFault
  set u := s |> rset (sf h F.SCRR_FAULT.CODE) code |> rset (sf h F.SCRR_FAULT.SLOT) (rget s (sf h F.SCRR_STATE.SLOT))
    |> rset (sf h F.SCRR_FAULT.PC) (rget s (sf h F.SCRR_STATE.PC)) |> rset (sf h F.SCRR_FAULT.STROKE_LO) (strokeNow s)
    |> inc (sf h F.SCRR_COUNT.FAULTS) with hu
  have ou : Only [] [sf h F.SCRR_FAULT.CODE, sf h F.SCRR_FAULT.SLOT, sf h F.SCRR_FAULT.PC, sf h F.SCRR_FAULT.STROKE_LO,
      sf h F.SCRR_COUNT.FAULTS] s u :=
    (((((rset_only _ _ s).trans (rset_only _ _ _)).trans (rset_only _ _ _)).trans (rset_only _ _ _)).trans (inc_only _ _)).mono
      (by simp) (by simp)
  set v := raise (halfPage h) 1 u with hv
  have rest : Only [.halves] ((List.range 16).map (fun i => sf h (F.SCRR_TB.VALUE i))
      ++ [sf h F.SCRR_STATE.PC, sf h F.SCRR_STATE.SLOT, sf h F.SCRR_STATE.IDLE]) v
      (v |> showTablets h |> setPc h (rget s (sf h F.SCRR_STATE.PC) + 1) |> endSlot h) :=
    (((showTablets_only h v).trans (setPc_only _ _ _)).trans (endSlot_only _ _)).mono (by simp) (by simp)
  have late : ∀ f : Fld, (f.key < 0x2100 * 8 + 32768 * h) → f.key ∉ [sf h F.SCRR_STATE.PC, sf h F.SCRR_STATE.SLOT, sf h F.SCRR_STATE.IDLE].map (·.key) →
      rget (v |> showTablets h |> setPc h (rget s (sf h F.SCRR_STATE.PC) + 1) |> endSlot h) f = rget v f := by
    intro f hf hk
    refine rest.get ?_
    simp only [List.map_append, List.mem_append, not_or, List.map_map, List.mem_map, List.mem_range, not_exists, not_and,
      Function.comp_apply] at hk ⊢
    exact ⟨fun i _ e => by rw [← e] at hf; simp at hf; omega, hk⟩
  have keepU : ∀ f : Fld, f.key ≠ (F.EVT_PEND.PEND (halfPage h)).key → rget v f = rget u f := fun f hf =>
    (raise_only _ _ u).get (by simpa using hf)
  have hu' : ∀ f : Fld, f.key < 0x2100 * 8 + 32768 * h → f.key ≠ (F.EVT_PEND.PEND (halfPage h)).key →
      f.key ∉ [sf h F.SCRR_STATE.PC, sf h F.SCRR_STATE.SLOT, sf h F.SCRR_STATE.IDLE].map (·.key) →
      rget (v |> showTablets h |> setPc h (rget s (sf h F.SCRR_STATE.PC) + 1) |> endSlot h) f = rget u f :=
    fun f a b c => (late f a c).trans (keepU f b)
  refine ⟨?_, ?_, ?_, ?_, ?_, ?_, by simp, ?_⟩
  · rw [hu' _ (by simp) (by simp [hp] <;> omega) (by simp)]
    simp [hu, inc, incBy, rget_rset]; omega
  · rw [hu' _ (by simp) (by simp [hp] <;> omega) (by simp)]
    simp [hu, inc, incBy, rget_rset]
  · rw [hu' _ (by simp) (by simp [hp] <;> omega) (by simp)]
    simp [hu, inc, incBy, scrPc, rget_rset]
  · rw [hu' _ (by simp) (by simp [hp] <;> omega) (by simp)]
    simp [hu, inc, incBy, rget_rset]
  · rw [hu' _ (by simp) (by simp [hp] <;> omega) (by simp)]
    simp [hu, inc, incBy, satAdd_eq, rget_rset]
  · unfold Pends
    rw [late _ (by simp [hp]; omega) (by simp [hp]; omega)]
    exact raise_pends u (by decide)
  · refine (((ou.trans (raise_only _ _ u)).trans rest)).mono (by simp) ?_
    intro f hf
    simp only [List.mem_append] at hf
    rw [faultFields, List.mem_append]
    rcases hf with (hf | hf) | hf | hf
    · left; simp only [List.mem_cons, List.not_mem_nil, or_false] at hf ⊢
      rcases hf with rfl | rfl | rfl | rfl | rfl <;> simp
    · left; simp only [List.mem_cons, List.not_mem_nil, or_false] at hf; subst hf; simp
    · right; exact hf
    · left; simp only [List.mem_cons, List.not_mem_nil, or_false] at hf ⊢
      rcases hf with rfl | rfl | rfl <;> simp

end Sys2Proof.Machine
end

