-- ==== Sys2Proof/Laws/Spine.lean ====
section
/-! SUPPORT. What the register spine does with an access: the half that BAR0 holds, a read, a write that it serves and one that it refuses. -/

namespace Sys2Proof.Machine

/-! ### Words written -/

theorem slice_eq (lo w v : Nat) : slice lo w v = v / 2 ^ lo % 2 ^ w := by simp [slice, Nat.shiftRight_eq_div_pow]

theorem bitSet_iff (v i : Nat) : bitSet v i = true ↔ v / 2 ^ i % 2 = 1 := by simp [bitSet, bit, slice_eq]

/-- A word splits at a field of `w` bits from bit `k` on. -/
theorem word_split (k w v : Nat) : v = v / 2 ^ (k + w) * 2 ^ (k + w) + v / 2 ^ k % 2 ^ w * 2 ^ k + v % 2 ^ k := by
  have h1 := Nat.div_add_mod v (2 ^ k)
  have h2 := Nat.div_add_mod (v / 2 ^ k) (2 ^ w)
  rw [Nat.div_div_eq_div_mul, ← pow_add] at h2
  have h3 : 2 ^ k * (2 ^ w * (v / 2 ^ (k + w))) = v / 2 ^ (k + w) * 2 ^ (k + w) := by rw [pow_add]; ring
  have h4 : 2 ^ k * (v / 2 ^ k) = 2 ^ k * (2 ^ w * (v / 2 ^ (k + w))) + 2 ^ k * (v / 2 ^ k % 2 ^ w) := by rw [← Nat.mul_add, h2]
  rw [h3] at h4
  rw [Nat.mul_comm (v / 2 ^ k % 2 ^ w), ← h4, h1]

/-- `wordWith` replaces its field in the word and leaves the rest. -/
theorem wordWith_split {f : Fld} (x v : Nat) (h : f.key % 64 + f.width ≤ 64) :
    let k := f.key % 64; let u := v % 2 ^ 64
    wordWith f x v = u / 2 ^ (k + f.width) * 2 ^ (k + f.width) + x % 2 ^ f.width * 2 ^ k + u % 2 ^ k := by
  intro k u
  have e : slice k f.width v = u / 2 ^ k % 2 ^ f.width := by
    rw [slice_eq]
    show v / 2 ^ k % 2 ^ f.width = v % 2 ^ 64 / 2 ^ k % 2 ^ f.width
    have : (2 : Nat) ^ 64 = 2 ^ k * 2 ^ (64 - k) := by rw [← pow_add]; congr 1; omega
    rw [this, Nat.mod_mul_right_div_self, Nat.mod_mod_of_dvd _ (pow_dvd_pow 2 (by omega))]
  have s := word_split k f.width u
  show u - slice k f.width v * 2 ^ k + x % 2 ^ f.width * 2 ^ k = _
  rw [e]
  omega

theorem wordWith_lt {f : Fld} (x v : Nat) (h : f.key % 64 + f.width ≤ 64) : wordWith f x v < 2 ^ 64 := by
  rw [wordWith_split x v h]
  set k := f.key % 64
  have h1 : x % 2 ^ f.width < 2 ^ f.width := Nat.mod_lt _ (by positivity)
  have h2 : v % 2 ^ 64 % 2 ^ k < 2 ^ k := Nat.mod_lt _ (by positivity)
  have h3 : v % 2 ^ 64 / 2 ^ (k + f.width) < 2 ^ (64 - (k + f.width)) := by
    rw [Nat.div_lt_iff_lt_mul (by positivity), ← pow_add]
    have : 64 - (k + f.width) + (k + f.width) = 64 := by omega
    rw [this]; exact Nat.mod_lt _ (by positivity)
  have e : (2 : Nat) ^ 64 = 2 ^ (64 - (k + f.width)) * (2 ^ f.width * 2 ^ k) := by rw [← pow_add, ← pow_add]; congr 1; omega
  generalize v % 2 ^ 64 / 2 ^ (k + f.width) = q at h3 ⊢
  generalize v % 2 ^ 64 % 2 ^ k = b at h2 ⊢
  rw [e, show (2 : Nat) ^ (k + f.width) = 2 ^ f.width * 2 ^ k by rw [pow_add]; ring]
  have a1 : x % 2 ^ f.width * 2 ^ k + b < 2 ^ f.width * 2 ^ k := by nlinarith [Nat.two_pow_pos k]
  nlinarith

/-- The field reads as what it was made, and the others as before. -/
theorem slice_wordWith {f : Fld} (x v : Nat) (h : f.key % 64 + f.width ≤ 64) :
    slice (f.key % 64) f.width (wordWith f x v) = x % 2 ^ f.width := by
  rw [slice_eq, wordWith_split x v h]
  set k := f.key % 64
  have h2 : v % 2 ^ 64 % 2 ^ k < 2 ^ k := Nat.mod_lt _ (by positivity)
  have : (v % 2 ^ 64 / 2 ^ (k + f.width) * 2 ^ (k + f.width) + x % 2 ^ f.width * 2 ^ k + v % 2 ^ 64 % 2 ^ k) / 2 ^ k
      = v % 2 ^ 64 / 2 ^ (k + f.width) * 2 ^ f.width + x % 2 ^ f.width := by
    rw [show v % 2 ^ 64 / 2 ^ (k + f.width) * 2 ^ (k + f.width) + x % 2 ^ f.width * 2 ^ k
      = (v % 2 ^ 64 / 2 ^ (k + f.width) * 2 ^ f.width + x % 2 ^ f.width) * 2 ^ k by rw [pow_add]; ring]
    rw [Nat.add_comm, Nat.add_mul_div_right _ _ (by positivity), Nat.div_eq_of_lt h2, Nat.zero_add]
  rw [this, Nat.add_comm, Nat.add_mul_mod_self_right, Nat.mod_mod]

theorem slice_wordWith_low {f : Fld} (x v lo w : Nat) (h : f.key % 64 + f.width ≤ 64) (k : lo + w ≤ f.key % 64) :
    slice lo w (wordWith f x v) = slice lo w v := by
  have m : ∀ a b : Nat, a % 2 ^ (lo + w) = b % 2 ^ (lo + w) → slice lo w a = slice lo w b := by
    intro a b e
    have s : ∀ a, slice lo w a = a % 2 ^ (lo + w) / 2 ^ lo := fun a => by
      rw [slice_eq, pow_add, Nat.mod_mul_right_div_self]
    rw [s, s, e]
  apply m
  rw [wordWith_split x v h]
  set kk := f.key % 64
  have d1 : (2 : Nat) ^ (lo + w) ∣ 2 ^ kk := pow_dvd_pow 2 k
  have d2 : (2 : Nat) ^ (lo + w) ∣ 2 ^ (kk + f.width) := pow_dvd_pow 2 (by omega)
  have d3 : (2 : Nat) ^ (lo + w) ∣ 2 ^ 64 := pow_dvd_pow 2 (by omega)
  rw [Nat.add_mod, Nat.add_mod (_ * _), Nat.mod_eq_zero_of_dvd (Dvd.dvd.mul_left d2 _), Nat.mod_eq_zero_of_dvd (Dvd.dvd.mul_left d1 _)]
  simp
  rw [Nat.mod_mod_of_dvd _ d1]; exact Nat.mod_mod_of_dvd _ d3

theorem slice_wordWith_high {f : Fld} (x v lo w : Nat) (h : f.key % 64 + f.width ≤ 64) (k : f.key % 64 + f.width ≤ lo) (k' : lo + w ≤ 64) :
    slice lo w (wordWith f x v) = slice lo w v := by
  have hd : wordWith f x v / 2 ^ (f.key % 64 + f.width) = v % 2 ^ 64 / 2 ^ (f.key % 64 + f.width) := by
    rw [wordWith_split x v h]
    set kk := f.key % 64
    have h1 : x % 2 ^ f.width < 2 ^ f.width := Nat.mod_lt _ (by positivity)
    have h2 : v % 2 ^ 64 % 2 ^ kk < 2 ^ kk := Nat.mod_lt _ (by positivity)
    have a1 : x % 2 ^ f.width * 2 ^ kk + v % 2 ^ 64 % 2 ^ kk < 2 ^ (kk + f.width) := by
      rw [show (2 : Nat) ^ (kk + f.width) = 2 ^ f.width * 2 ^ kk by rw [pow_add]; ring]
      nlinarith [Nat.two_pow_pos kk]
    rw [Nat.add_assoc, Nat.add_comm, Nat.add_mul_div_right _ _ (by positivity), Nat.div_eq_of_lt a1, Nat.zero_add]
  have s : ∀ a, slice lo w a = a / 2 ^ (f.key % 64 + f.width) / 2 ^ (lo - (f.key % 64 + f.width)) % 2 ^ w := fun a => by
    rw [slice_eq, Nat.div_div_eq_div_mul, ← pow_add]; congr 3; omega
  rw [s, hd, ← s, slice_eq, slice_eq]
  have : (2 : Nat) ^ 64 = 2 ^ lo * 2 ^ (64 - lo) := by rw [← pow_add]; congr 1; omega
  rw [this, Nat.mod_mul_right_div_self, Nat.mod_mod_of_dvd _ (pow_dvd_pow 2 (by omega))]

/-! ### Reads -/

theorem setTag_only (q : Nat) (a b c d e g : Bool) (l : Nat) (s : State) : Only [] (popFields q) s (setTag q a b c d e g l s) := by
  unfold setTag
  exact (((((((rset_only _ _ s).trans (rset_only _ _ _)).trans (rset_only _ _ _)).trans (rset_only _ _ _)).trans
    (rset_only _ _ _)).trans (rset_only _ _ _)).trans (rset_only _ _ _)).mono (by simp) (by simp [popFields])

theorem popWord_only (q : Nat) (bad : Bool) (s : State) : Only [.queues, .eva] (popFields q) s (popWord q bad s) := by
  unfold popWord
  dsimp only
  split
  · exact (((setTag_only q _ _ _ _ _ _ _ s).trans (queues_only _ _)).trans (inc_only _ _)).mono (by simp) (by simp [popFields])
  · refine (((setTag_only q _ _ _ _ _ _ _ s).trans (queues_only _ _)).trans
      (Only.whenB (ps := [.eva]) (rs := [F.QUE_q_COUNT.BLOTS q, F.EVT_PEND.PEND pQUE]) ?_)).mono (by simp) (by simp [popFields])
    exact ((inc_only _ _).trans (raise_only _ _ _)).mono (by simp) (by simp)

theorem tsuNowRead_only (cyc : Nat) (s : State) : Only [] nowFields s (tsuNowRead cyc s) := by
  unfold tsuNowRead showStrike
  exact (((((((rset_only _ _ s).trans (rset_only _ _ _)).trans (rset_only _ _ _)).trans (rset_only _ _ _)).trans
    (rset_only _ _ _)).trans (rset_only _ _ _)).trans (rset_only _ _ _)).mono (by simp) (by simp [nowFields])

theorem queueAt_lt {x off q : Nat} (h : queueAt x off = some q) : q < 7 := by
  unfold queueAt at h
  split at h
  · simp only [Option.some.injEq] at h; omega
  · simp at h

/-- A read writes at most what it latches or pops. -/
theorem readReg_only (off cyc : Nat) (bad : Bool) (s : State) : Only [.queues, .eva] readFields s (readReg off cyc bad s).2 := by
  unfold readReg
  split
  · rename_i q h
    refine (popWord_only q bad s).mono (by simp) (List.subset_append_of_subset_right _ ?_)
    exact fun f hf => List.mem_flatMap.mpr ⟨q, List.mem_range.mpr (queueAt_lt h), hf⟩
  · split
    · exact (Only.refl s).mono (by simp) (by simp)
    · split
      · exact (tsuNowRead_only cyc s).mono (by simp) (List.subset_append_left _ _)
      · exact (Only.refl s).mono (by simp) (by simp)

/-! ### BAR0's half -/

/-- The field that counts a held half dropped. -/
theorem halfDrop_only (s : State) : ∃ p, Only [.spine] [F.PAGE_STATUS.HALF_DROPPED p] s (halfDrop s) := by
  unfold halfDrop
  split
  · exact ⟨0, (Only.refl s).mono (by simp) (by simp)⟩
  · exact ⟨_, ((spine_only _ s).trans (inc_only _ _)).mono (by simp) (List.Subset.refl _)⟩

theorem accessBegins_only (w : Requester) (s : State) : ∃ p, Only [.spine] [F.PAGE_STATUS.HALF_DROPPED p] s (accessBegins w s) := by
  unfold accessBegins
  split
  · exact halfDrop_only s
  · exact ⟨0, (Only.refl s).mono (by simp) (by simp)⟩

/-- The beginning of an access changes no field but a page's count of dropped halves. -/
theorem rget_accessBegins (w : Requester) (s : State) {f : Fld} (h : f.key % 32768 ≠ 243) : rget (accessBegins w s) f = rget s f := by
  obtain ⟨p, o⟩ := accessBegins_only w s
  exact o.get (by simp; omega)

theorem mayWrite_accessBegins (w : Requester) (off : Nat) (s : State) : mayWrite w off (accessBegins w s) = mayWrite w off s := by
  have h : penHolder (accessBegins w s) = penHolder s := rget_accessBegins w s (by decide)
  have g : ∀ p, on (accessBegins w s) (F.OWNER.HOST_GRANT p) = on s (F.OWNER.HOST_GRANT p) := fun p => by
    unfold on; rw [rget_accessBegins w s (by simp; omega)]
  simp only [mayWrite, penRule, holdsPen, h, g]

theorem locked_accessBegins (w : Requester) (p : Nat) (s : State) : on (accessBegins w s) (F.LOCK.LOCKED p) = on s (F.LOCK.LOCKED p) := by
  unfold on; rw [rget_accessBegins w s (by simp; omega)]

/-! ### Writes -/

/-- A write that the spine serves acts on the register. -/
theorem wideWrite_served {r : Req} {off v : Nat} {s : State} (h : Served r.who off s) :
    wideWrite r off v s = applyWrite r off (v % 2 ^ 64) (accessBegins r.who s) := by
  obtain ⟨_, a, b, c⟩ := h
  unfold wideWrite writeReg
  rw [mayWrite_accessBegins, locked_accessBegins, a, b, c]
  simp only [Bool.not_true, Bool.false_eq_true, if_false]

/-- A write that OWNER refuses is counted, and nothing else comes of it. -/
theorem wideWrite_refused {r : Req} {off v : Nat} {s : State} (a : isReg off = true) (b : mayWrite r.who off s = false) :
    wideWrite r off v s = (accessBegins r.who s |> denyOwn r.who (pageAt off)
      |> whenB (penHolder (accessBegins r.who s) == 3 && isArming off v) (inc F.PEN_COUNT.FROZEN_REFUSED)) := by
  unfold wideWrite writeReg
  rw [mayWrite_accessBegins, a, b]
  simp only [Bool.not_true, Bool.not_false, Bool.false_eq_true, if_false, if_true]

theorem storeField_only (off v : Nat) (f : FieldRow) (s : State) :
    Only [.shad] (if isStored f then [fieldOf off f] else []) s (storeField off v f s) := by
  cases ha : f.access <;> cases hc : f.commit <;> simp only [storeField, isStored, ha, hc, if_true, Bool.false_eq_true, if_false]
  all_goals first
    | exact (Only.refl s).mono (by simp) (by simp)
    | exact (rset_only _ _ s).mono (by simp) (by simp)
    | exact (sset_only _ _ s).mono (by simp) (by simp)

/-- A register write stores nothing outside its register. -/
theorem storeWhere_only (p : FieldRow → Bool) (off v : Nat) (s : State) : Only [.shad] (rowFields off) s (storeWhere p off v s) := by
  unfold storeWhere rowFields
  cases findRow (off % 4096) (pageRows (off / 4096)) with
  | none => exact (Only.refl s).mono (by simp) (by simp)
  | some r =>
    have go : ∀ (fs : List FieldRow) (s : State), fs ⊆ r.fields →
        Only [.shad] ((r.fields.filter isStored).map (fieldOf off)) s (fs.foldl (fun t f => storeField off v f t) s) := by
      intro fs
      induction fs with
      | nil => intro s _; exact (Only.refl s).mono (by simp) (by simp)
      | cons f fs ih =>
        intro s h
        have a := (storeField_only off v f s).mono (ps' := [.shad]) (rs' := (r.fields.filter isStored).map (fieldOf off)) (by simp)
          (by
            split
            · rename_i hs
              intro g hg; simp only [List.mem_singleton] at hg; subst hg
              exact List.mem_map_of_mem (List.mem_filter.mpr ⟨h (by simp), hs⟩)
            · simp)
        exact (a.trans (ih _ (fun g hg => h (List.mem_cons_of_mem _ hg)))).mono (by simp) (by simp)
    exact go _ s (fun g hg => (List.mem_filter.mp hg).1)

set_option maxRecDepth 100000 in
/-- Every field of the map lies inside its 64-bit register. -/
theorem field_places : (allPages.all fun p => (pageRows p).all fun r => r.fields.all fun f => Nat.blt (f.lo + f.width) 65) = true := by
  decide

theorem findRow_mem {o : Nat} {r : RegRow} : ∀ {rows : List RegRow}, findRow o rows = some r → r ∈ rows
  | [], h => by simp [findRow] at h
  | x :: rest, h => by
    unfold findRow at h
    split at h
    · simp only [Option.some.injEq] at h; simp [h]
    · exact List.mem_cons_of_mem _ (findRow_mem h)

theorem fieldOf_key_lt {off : Nat} {r : RegRow} {f : FieldRow} (hr : findRow (off % 4096) (pageRows (off / 4096)) = some r) (hf : f ∈ r.fields)
    (hp : off / 4096 ∈ allPages) (hc : f.commit ≠ .stroke) : (fieldOf off f).key < strokeBase := by
  have a := field_places
  rw [List.all_eq_true] at a
  have b := a _ hp
  rw [List.all_eq_true] at b
  have c := b _ (findRow_mem hr)
  rw [List.all_eq_true] at c
  have d := c _ hf
  have d' : f.lo + f.width < 65 := Nat.blt_eq.mp d
  have hq : off / 4096 < 64 := by
    have : ∀ p ∈ allPages, p < 64 := by decide
    exact this _ hp
  simp only [fieldOf, hc, if_false]
  show 0 + off * 8 + f.lo < 0x1000000
  omega

/-- A register write leaves the live values of the fields that commit on a stroke. -/
theorem storeWhere_live (p : FieldRow → Bool) (off v : Nat) (s : State) (hp : off / 4096 ∈ allPages) : (storeWhere p off v s).live = s.live := by
  unfold storeWhere
  cases hr : findRow (off % 4096) (pageRows (off / 4096)) with
  | none => rfl
  | some r =>
    have go : ∀ (fs : List FieldRow) (s : State), fs ⊆ r.fields → (fs.foldl (fun t f => storeField off v f t) s).live = s.live := by
      intro fs
      induction fs with
      | nil => intro s _; rfl
      | cons f fs ih =>
        intro s h
        rw [List.foldl_cons, ih _ (fun g hg => h (List.mem_cons_of_mem _ hg))]
        have hm : f ∈ r.fields := h (by simp)
        have lt := fieldOf_key_lt hr hm hp
        cases ha : f.access <;> cases hc : f.commit <;> simp only [storeField, ha, hc]
        all_goals first
          | rfl
          | exact rset_live_of_lt _ _ (lt (by simp [hc]))
    exact go _ s (fun g hg => (List.mem_filter.mp hg).1)

/-- The registers past the header, outside the windows, whose write stores its own fields and then acts at once: none of them commits, waits
for a turn or bears a mark. -/
def plainReg (off : Nat) : Bool :=
  decide (0x80 ≤ slotAt off) && (windowAt off).isNone && !effectOnly off && !hasStroke off
    && !(pageAt off == pLDU && decide (0xB0 ≤ slotAt off) && decide (slotAt off < 0xD0))
    && off != 0x17098 && off != 0x15578 && off != 0x50D0

theorem halfDrop_live (s : State) : (halfDrop s).live = s.live := by
  unfold halfDrop
  split
  · rfl
  · rename_i off _ _
    refine rset_live_of_lt _ _ ?_
    have : ∀ p ∈ allPages, (F.PAGE_STATUS.HALF_DROPPED p).key < strokeBase := by decide
    split
    · rename_i c; exact this _ (List.contains_iff_mem.mp c)
    · decide

theorem accessBegins_live (w : Requester) (s : State) : (accessBegins w s).live = s.live := by
  unfold accessBegins; split
  · exact halfDrop_live s
  · rfl

theorem isReg_page {off : Nat} (h : isReg off = true) : off / 4096 ∈ allPages := by
  simp only [isReg, Bool.and_eq_true, List.contains_iff_mem] at h
  exact h.1.2

/-- What a served write of such a register stores. -/
def plainStored (r : Req) (off v : Nat) (s : State) : State :=
  storeMarked off (v % 2 ^ 64) (storeNow off (v % 2 ^ 64) (accessBegins r.who s))

theorem plain_stored {r : Req} {off v : Nat} {s : State} (h : Served r.who off s) (k : plainReg off = true) : Stored off s (plainStored r off v s) := by
  obtain ⟨p, o⟩ := accessBegins_only r.who s
  simp only [plainReg, Bool.and_eq_true, decide_eq_true_eq, Option.isNone_iff_eq_none, Bool.not_eq_true', bne_iff_ne, ne_eq] at k
  obtain ⟨⟨⟨⟨⟨⟨⟨k1, k2⟩, k3⟩, k4⟩, k5⟩, k6⟩, k7⟩, k8⟩ := k
  unfold plainStored
  generalize v % 2 ^ 64 = w
  have marks : ∀ t, shadowMarks off w t = t := fun t => by simp [shadowMarks, k6, k7, k8]
  have e : Only [.spine, .shad] (F.PAGE_STATUS.HALF_DROPPED p :: rowFields off) s (storeMarked off w (storeNow off w (accessBegins r.who s))) := by
    unfold storeMarked
    rw [marks]
    exact ((o.trans (storeWhere_only _ _ _ _)).trans (storeWhere_only _ _ _ _)).mono (by simp) (by simp)
  refine ⟨?_, fun f a b => e.get ?_, fun x a b => e.1 x (by simp [a, b])⟩
  · unfold storeMarked
    rw [marks]
    exact ((storeWhere_live _ _ _ _ (isReg_page h.2.1)).trans (storeWhere_live _ _ _ _ (isReg_page h.2.1))).trans (accessBegins_live _ _)
  · rw [List.map_cons, List.mem_cons, not_or]
    exact ⟨by simp; omega, b⟩

/-- A served write of such a register stores its fields and acts. -/
theorem served_plain {r : Req} {off v : Nat} {s : State} (h : Served r.who off s) (k : plainReg off = true) :
    wideWrite r off v s = pageEffect r off (v % 2 ^ 64) (accessBegins r.who s) (plainStored r off v s) := by
  simp only [plainReg, Bool.and_eq_true, decide_eq_true_eq, Option.isNone_iff_eq_none, Bool.not_eq_true', bne_iff_ne, ne_eq] at k
  obtain ⟨⟨⟨⟨⟨⟨⟨k1, k2⟩, k3⟩, k4⟩, k5⟩, k6⟩, k7⟩, k8⟩ := k
  unfold plainStored
  generalize hw : v % 2 ^ 64 = w
  rw [wideWrite_served h, hw]
  unfold applyWrite
  rw [if_neg (by omega), k2]
  simp only [k3, Bool.false_eq_true, if_false]
  unfold storeTurn storeOrHold
  rw [k4]
  simp only [Bool.false_and, Bool.false_eq_true, if_false]
  simp only [k5, Bool.false_and, Bool.false_eq_true, if_false]

/-- A command that is a served write of a plain register completes with what the write acts upon. -/
theorem runs_plain {c : Instr} {s : State} {P : State → Prop} {ok : Bool} {r : Req} {off v : Nat} (e : exec c s = act ok (wideWrite r off v) s)
    (k : ok = true) (h : Served r.who off s) (d : plainReg off = true)
    (p : ∀ u, Stored off s u → P (keepAll s (pageEffect r off (v % 2 ^ 64) (accessBegins r.who s) u))) : Runs c s P := by
  refine runs_act e h.1 k ?_
  rw [served_plain h d]
  exact p _ (plain_stored h d)

/-- The common frame adds nothing to what a served write changes. -/
theorem Stored.keepAll {off : Nat} {ps : List Part} {rs : List Fld} {s u t : State} (st : Stored off s u) (h : Only ps rs u t) :
    Only ps rs u (Machine.keepAll s t) := by
  have same : ∀ p, p ∉ ps → p.same u t := h.1
  refine ⟨fun p hp => ?_, fun f hf => ?_⟩
  · have a := h.1 p hp
    have b := st.2.2 p
    cases p <;> simp_all [Part.same, Machine.keepAll, keepLive, keepTables, keepTime, keepWear, keepPower]
  · by_cases k : strokeBase ≤ f.key
    · simp [rget, Machine.keepAll, keepLive, k, st.1]
    · rw [rget_keepAll s t (by omega)]; exact h.2 f hf

theorem keepAll_accessBegins (w : Requester) (s t : State) : keepAll (accessBegins w s) t = keepAll s t := by
  have l := accessBegins_live w s
  obtain ⟨q, o⟩ := accessBegins_only w s
  have g := fun (p : Part) (h : p ∉ [Part.spine]) => o.1 p h
  have h1 := g .pending (by simp)
  have h2 := g .boot (by simp)
  have h3 := g .nibs (by simp)
  have h4 := g .time (by simp)
  have h5 := g .filt (by simp)
  have h6 := g .duc (by simp)
  have h7 := g .ink (by simp)
  have h8 := g .trim (by simp)
  simp only [Part.same] at h1 h2 h3 h4 h5 h6 h7 h8
  simp [keepAll, keepLive, keepTables, keepTime, keepWear, keepPower, l, h1, h2, h3, h4, h5, h6, h7, h8]

/-- A command that is a served register write completes with what the write does. -/
theorem runs_write {c : Instr} {s : State} {P : State → Prop} {ok : Bool} {r : Req} {off v : Nat} (e : exec c s = act ok (wideWrite r off v) s)
    (k : ok = true) (h : Served r.who off s) (p : P (keepAll s (applyWrite r off (v % 2 ^ 64) (accessBegins r.who s)))) : Runs c s P :=
  runs_act e h.1 k (by rw [wideWrite_served h]; exact p)

end Sys2Proof.Machine
end

