-- ==== Sys2Proof/Tests/Slice0.lean ====
section
/-! SUPPORT. x -/

namespace Sys2Proof.Machine

theorem test_x : State.reset.pending = [] := rfl

end Sys2Proof.Machine
end

/-! SUPPORT. Accesses to offsets that hold no register (R26): a read gives 0 and does nothing, a write counts in UNIMPL alone. -/

namespace Sys2Proof.Machine

/-! ### Where no register stands -/

/-- The page whose UNIMPL counts a write to an offset without a register: the offset's own, or SYS where it lies in no page (R26). -/
def countedPage (off : Nat) : Nat := if allPages.contains (pageAt off) then pageAt off else pSYS

theorem countedPage_mem (off : Nat) : countedPage off ∈ allPages := by
  unfold countedPage
  split
  case isTrue h => exact List.contains_iff_mem.mp h
  case isFalse => decide

theorem unimpl_key_lt {p : Nat} (h : p ∈ allPages) : (F.PAGE_STATUS.UNIMPL p).key < strokeBase := by
  have all : ∀ p ∈ allPages, (F.PAGE_STATUS.UNIMPL p).key < strokeBase := by decide
  exact all p h

/-- Where DATA or DATA_END of a queue stands, a register stands. -/
theorem isReg_of_queueAt {x off q : Nat} (hx : x = 0 ∨ x = 8) (h : queueAt x off = some q) : isReg off = true := by
  have hq := queueAt_lt h
  have place : off = 0x1D080 + 0x40 * q + x := by
    unfold queueAt at h
    split at h
    · simp only [Option.some.injEq] at h; omega
    · cases h
  have all : ∀ q < 7, isReg (0x1D080 + 0x40 * q + 0) = true ∧ isReg (0x1D080 + 0x40 * q + 8) = true := by decide
  rcases hx with rfl | rfl
  · exact place ▸ (all q hq).1
  · exact place ▸ (all q hq).2

theorem queueAt_noReg {x off : Nat} (hx : x = 0 ∨ x = 8) (h : isReg off = false) : queueAt x off = none := by
  cases e : queueAt x off with
  | none => rfl
  | some q => exact absurd (isReg_of_queueAt hx e) (by simp [h])

/-! ### Reads -/

theorem regView_noReg {off : Nat} (h : isReg off = false) (s : State) : regView s off = 0 := by simp [regView, h]

/-- A read where no register stands gives 0, pops nothing and latches no time. -/
theorem readReg_noReg {off : Nat} (h : isReg off = false) (cyc : Nat) (bad : Bool) (s : State) : readReg off cyc bad s = (0, s) := by
  have notNow : off ≠ 0x5088 := by
    rintro rfl
    exact absurd h (by decide)
  unfold readReg
  rw [queueAt_noReg (.inl rfl) h, queueAt_noReg (.inr rfl) h]
  simp only [if_neg notNow, regView_noReg h]

/-- With no half held, a low read where no register stands emits 0 and latches a high half of 0. -/
theorem halfReadLow_noReg {off : Nat} {s : State} (h : isReg off = false) (hold : s.spine.hold = none) (cyc : Nat) (bad : Bool) :
    halfReadLow cyc off bad s = emit (.read .bar0 off 0) { s with spine := { s.spine with latch := some (off, 0) } } := by
  have drop : halfDrop s = s := by unfold halfDrop; rw [hold]
  simp only [halfReadLow, drop, readReg_noReg h, Nat.zero_div, Nat.zero_mod]

/-! ### Writes -/

/-- A counter that is counted up saturates at all ones (R30). -/
theorem rget_inc_same (f : Fld) (s : State) : rget (inc f s) f = min (2 ^ f.width - 1) (rget s f + 1) := by
  have pos := Nat.two_pow_pos f.width
  rw [inc, incBy, rget_rset_same, satAdd_eq, Nat.mod_eq_of_lt (by omega)]

/-- A write where no register stands is counted before OWNER and LOCK are asked (log entry 56), and nothing else comes of it. -/
theorem wideWrite_noReg {off : Nat} (h : isReg off = false) (r : Req) (v : Nat) (s : State) :
    wideWrite r off v s = inc (F.PAGE_STATUS.UNIMPL (countedPage off)) (accessBegins r.who s) := by
  simp only [wideWrite, writeReg, countedPage, h, Bool.not_false, if_true]

theorem runs_write_noReg {s : State} {off : Nat} (u : Up s) (h : isReg off = false) (r : Req) (v : Nat) :
    Runs (.registerWrite r off v) s (fun t =>
      rget t (F.PAGE_STATUS.UNIMPL (countedPage off)) = min 65535 (rget (accessBegins r.who s) (F.PAGE_STATUS.UNIMPL (countedPage off)) + 1)
        ∧ Only [] [F.PAGE_STATUS.UNIMPL (countedPage off)] (accessBegins r.who s) t) := by
  have e : exec (.registerWrite r off v) s = act true (wideWrite r off v) s := rfl
  refine runs_act e u rfl ?_
  rw [wideWrite_noReg h, ← keepAll_accessBegins r.who]
  refine ⟨?_, (inc_only _ _).keepAll⟩
  rw [rget_keepAll _ _ (unimpl_key_lt (countedPage_mem off))]
  exact rget_inc_same _ _

theorem runs_halfReadLow_noReg {s : State} {off : Nat} (u : Up s) (h : isReg off = false) (hold : s.spine.hold = none) (cyc : Nat) (bad : Bool) :
    Runs (.halfReadLow cyc off bad) s (fun t =>
      t.out = s.out ++ [.read .bar0 off 0] ∧ t.spine.latch = some (off, 0) ∧ Only [.spine, .out] [] s t) := by
  have e : exec (.halfReadLow cyc off bad) s = act true (halfReadLow cyc off bad) s := rfl
  refine runs_act e u rfl ?_
  rw [halfReadLow_noReg h hold]
  exact ⟨rfl, rfl, ((spine_only _ s).trans (emit_only _ _)).keepAll⟩

/-! ### R26 -/

/-- Settles O10: at an offset without a register `readReg` answers 0 and leaves the state, and `writeReg` only counts. -/
theorem unimplementedSlots : Obligations.UnimplementedSlots := by
  intro s r off v cyc bad u h
  exact ⟨runs_write_noReg u h r v, fun hold => runs_halfReadLow_noReg u h hold cyc bad⟩

/-- What the statement supposes holds at a hub out of reset: a write to TSU's reserved header slot counts in TSU, one past the last page in
SYS, and a read past the last page answers 0. -/
theorem unimplementedSlots_witness :
    (∃ t, exec (.registerWrite ⟨.spi, 0⟩ 0x5078 7) State.reset = .next t ∧ rget t (F.PAGE_STATUS.UNIMPL pTSU) = 1)
      ∧ (∃ t, exec (.registerWrite ⟨.spi, 0⟩ 0x25000 7) State.reset = .next t ∧ rget t (F.PAGE_STATUS.UNIMPL pSYS) = 1)
      ∧ ∃ t, exec (.halfReadLow 0 0x25000 false) State.reset = .next t ∧ t.out = [.read .bar0 0x25000 0] := by
  obtain ⟨⟨t, write, count, -⟩, -⟩ := unimplementedSlots State.reset ⟨.spi, 0⟩ 0x5078 7 0 false rfl (by decide)
  obtain ⟨⟨u, write', count', -⟩, low⟩ := unimplementedSlots State.reset ⟨.spi, 0⟩ 0x25000 7 0 false rfl (by decide)
  obtain ⟨x, read, out, -⟩ := low rfl
  exact ⟨⟨t, write, count⟩, ⟨u, write', count'⟩, ⟨x, read, out⟩⟩

end Sys2Proof.Machine

/-! SUPPORT. The code of a coarse value (R225): the rounding to half even, the two's complement of the limited value, and the span of CSHIFT. -/

namespace Sys2Proof.Machine

/-! ### Rounding, limits and two's complement -/

/-- The rounded quotient lies within a half of `a / b`, and where it lies at a half it is even. -/
theorem divHalfEven_nearest (a : Int) {b : Nat} (hb : 0 < b) :
    2 * |divHalfEven a b * b - a| ≤ b ∧ (2 * |divHalfEven a b * b - a| = b → divHalfEven a b % 2 = 0) := by
  have pos : (0 : Int) < b := Int.natCast_pos.mpr hb
  have r0 := Int.emod_nonneg a pos.ne'
  have rb := Int.emod_lt_of_pos a pos
  have atFloor : |a / b * b - a| = a % b := by
    rw [show a / b * b - a = -(a % b) by rw [Int.emod_def]; ring, abs_neg, abs_of_nonneg r0]
  have atCeil : |(a / b + 1) * b - a| = b - a % b := by
    rw [show (a / b + 1) * b - a = b - a % b by rw [Int.emod_def]; ring, abs_of_pos (by omega)]
  simp only [divHalfEven, if_neg hb.ne']
  split_ifs with below above even
  · rw [atFloor]; omega
  · rw [atCeil]; omega
  · rw [atFloor]; omega
  · rw [atCeil]; omega

theorem clampInt_eq {lo hi : Int} (h : lo ≤ hi) (x : Int) : clampInt lo hi x = max lo (min hi x) := by
  unfold clampInt
  split_ifs <;> omega

theorem clampSpan_eq {lo hi : Nat} (h : lo ≤ hi) (v : Nat) : clampSpan (some (lo, hi)) v = max lo (min hi v) := by
  simp only [clampSpan]
  split_ifs <;> omega

/-- The top bit of an `n + 1`-bit number is set in its upper half. -/
theorem bitSet_top_iff {n v : Nat} (h : v < 2 ^ (n + 1)) : bitSet v n = true ↔ 2 ^ n ≤ v := by
  have two : v / 2 ^ n < 2 := Nat.div_lt_of_lt_mul (by rwa [← pow_succ])
  have upper : 0 < v / 2 ^ n ↔ 2 ^ n ≤ v := Nat.div_pos_iff.trans (and_iff_right (Nat.two_pow_pos n))
  rw [bitSet_iff, ← upper]
  generalize v / 2 ^ n = q at two
  omega

/-- An integer in the signed range of `n + 1` bits is read back from its two's complement. -/
theorem asInt_ofInt {n : Nat} {x : Int} (lo : -2 ^ n ≤ x) (hi : x < 2 ^ n) : asInt (n + 1) (ofInt (n + 1) x) = x := by
  have width : ((2 ^ (n + 1) : Nat) : Int) = 2 * 2 ^ n := by push_cast; ring
  have code : (ofInt (n + 1) x : Int) = if x < 0 then x + 2 * 2 ^ n else x := by
    rw [ofInt, width, Int.toNat_of_nonneg (Int.emod_nonneg x (by positivity))]
    split_ifs
    · rw [← Int.add_emod_right, Int.emod_eq_of_lt (by omega) (by omega)]
    · exact Int.emod_eq_of_lt (by omega) (by omega)
  have small : ofInt (n + 1) x < 2 ^ (n + 1) := by
    zify
    rw [code, pow_succ]
    split_ifs <;> omega
  have negative : 2 ^ n ≤ ofInt (n + 1) x ↔ x < 0 := by
    zify
    rw [code]
    split_ifs <;> omega
  simp only [asInt, Nat.add_sub_cancel, bitSet_top_iff small, negative, Nat.mod_eq_of_lt small, code, width]
  split_ifs <;> omega

/-! ### Codes -/

theorem coarseCode_of_noValue {x : Samp} (h : bitSet x.fl flSKIP = true ∨ bitSet x.fl flOPEN = true) (k : Nat) :
    coarseCode k (some x) = 0x8000 :=
  if_pos ((Bool.or_eq_true _ _).mpr h)

/-- Without SKIP and OPEN the code, read as a signed number, is the rounded value within its limits. -/
theorem asInt_coarseCode {x : Samp} (skip : bitSet x.fl flSKIP = false) (opn : bitSet x.fl flOPEN = false) (k : Nat) :
    asInt 16 (coarseCode k (some x)) = max (-32767) (min 32767 (shiftHalfEven k x.v)) := by
  have code : coarseCode k (some x) = ofInt 16 (clampInt (-32767) 32767 (shiftHalfEven k x.v)) := if_neg (by simp [skip, opn])
  rw [code, clampInt_eq (by decide)]
  exact asInt_ofInt (by omega) (by omega)

/-- "No value" reads as −32,768, which the limits keep every value from. -/
theorem coarseCode_ne_noValue {x : Samp} (skip : bitSet x.fl flSKIP = false) (opn : bitSet x.fl flOPEN = false) (k : Nat) :
    coarseCode k (some x) ≠ 0x8000 := by
  intro e
  have read := asInt_coarseCode skip opn k
  have noValue : asInt 16 0x8000 = -32768 := by decide
  rw [e, noValue] at read
  omega

/-! ### CSHIFT -/

/-- Word 0 of a session's entry is stored with CSHIFT held to 10 … 16. -/
theorem slice_sessStore_cshift (w : Nat) : slice 19 5 (sessStore 0 w) = max 10 (min 16 (slice 19 5 w)) := by
  have held := clampSpan_eq (show 10 ≤ 16 by decide) (slice 19 5 w)
  have below : slice 0 19 w < 2 ^ 19 := Nat.mod_lt _ (by decide)
  simp only [sessStore, ne_eq, not_true_eq_false, if_false, held, put]
  rw [slice_eq]
  omega

/-! ### R225 -/

/-- Settles O11: the code is `shiftHalfEven`, nearest with ties to even, limited and read back from 16 bits (`coarseCode` is the model's function). -/
theorem coarseCode_spec : Obligations.CoarseCode := by
  intro k w x
  obtain ⟨nearest, tie⟩ := divHalfEven_nearest x.v (Nat.two_pow_pos k)
  push_cast at nearest tie
  exact ⟨fun h => coarseCode_of_noValue h k,
    fun skip opn => ⟨coarseCode_ne_noValue skip opn k, shiftHalfEven k x.v, nearest, tie, asInt_coarseCode skip opn k⟩,
    slice_sessStore_cshift w⟩

/-- What the statement supposes holds of samples at its boundaries: a half goes to the even code, the ends of the value's span give ±32,767
at CSHIFT 10, SKIP and OPEN give 0x8000, and a CSHIFT of 0 or 31 is stored as the nearer end. -/
theorem coarseCode_spec_witness :
    asInt 16 (coarseCode 10 (some { v := 512 })) = 0 ∧ asInt 16 (coarseCode 10 (some { v := 1536 })) = 2
      ∧ asInt 16 (coarseCode 10 (some { v := 2 ^ 31 - 1 })) = 32767 ∧ asInt 16 (coarseCode 10 (some { v := -2 ^ 31 })) = -32767
      ∧ coarseCode 10 (some { fl := 2 ^ flSKIP }) = 0x8000 ∧ coarseCode 10 (some { fl := 2 ^ flOPEN }) = 0x8000
      ∧ slice 19 5 (sessStore 0 0) = 10 ∧ slice 19 5 (sessStore 0 (31 * 2 ^ 19)) = 16 := by
  have skipClear : bitSet 0 flSKIP = false := by decide
  have openClear : bitSet 0 flOPEN = false := by decide
  have value (v : Int) : ∃ q : Int, 2 * |q * 2 ^ 10 - v| ≤ 2 ^ 10 ∧ (2 * |q * 2 ^ 10 - v| = 2 ^ 10 → q % 2 = 0)
      ∧ asInt 16 (coarseCode 10 (some { v := v })) = max (-32767) (min 32767 q) :=
    ((coarseCode_spec 10 0 { v := v }).2.1 skipClear openClear).2
  simp only [abs_eq_max_neg] at value
  obtain ⟨down, nearDown, tieDown, codeDown⟩ := value 512
  obtain ⟨up, nearUp, tieUp, codeUp⟩ := value 1536
  obtain ⟨high, nearHigh, -, codeHigh⟩ := value (2 ^ 31 - 1)
  obtain ⟨low, nearLow, -, codeLow⟩ := value (-2 ^ 31)
  obtain ⟨skip, -, least⟩ := coarseCode_spec 10 0 { fl := 2 ^ flSKIP }
  obtain ⟨opn, -, most⟩ := coarseCode_spec 10 (31 * 2 ^ 19) { fl := 2 ^ flOPEN }
  exact ⟨by omega, by omega, by omega, by omega, skip (.inl (by decide)), opn (.inr (by decide)), least, most⟩

end Sys2Proof.Machine

/-! SUPPORT. What a step can do at all: every command acts within one of a few frames, and what those frames keep (R9, R37, R45, R88, R365, R397). -/

namespace Sys2Proof.Machine

/-! ### The frames that the commands act in -/

/-- Every command acts within the common frame but those of power, the strike, the nibs and the ledger, the flourish and APPLY. -/
inductive ActsIn (c : Instr) (s t : State) : Prop
  | common (ok : Bool) (f : State → State) (e : exec c s = act ok f s) (h : t = s ∨ t = keepAll s (f s))
  | strike (x : StrikeEnv) (e : c = .strike x) (h : t = s ∨ t = keepStrike s (strike x s))
  | nib (n : Nat) (e : c = .nibRetireEffect n) (h : t = s ∨ t = keepFlour s (nibTakesEffect n s))
  | flourish (n : Nat) (e : c = .flourishDone n) (h : t = s ∨ t = keepFlour s (flrDone n s))
  | ledger (v : Nat) (e : c = .ledgerWriteDone v) (h : t = s ∨ t = keepFuses s (ledgerDone v s))
  | apply (x : Side) (bad : Bool) (e : c = .bootApplyDone x bad) (h : t = s ∨ t = keepApply s (applyDone (sideIdx x) bad s))
  | release (net : Bool) (e : c = .porstNRelease net) (h : t = keepRelease s (porstRelease net s))
  | porst (e : c = .porstNAssert) (h : t = porstReset 1 0 s)
  | brownout (rails : Nat) (e : c = .brownoutReset rails) (h : t = s ∨ t = porstReset 2 rails s)

/-- `actIn` answers the state as it was or its frame's. -/
theorem actIn_next (keep : State → State → State) (ok : Bool) (f : State → State) (s : State) :
    ∃ t, actIn keep ok f s = .next t ∧ (t = s ∨ t = keep s (f s)) := by
  refine ⟨_, rfl, ?_⟩
  split
  · exact .inl rfl
  · exact .inr rfl

theorem exec_common {c : Instr} {ok : Bool} {f : State → State} {s : State} (e : exec c s = act ok f s) : ∃ t, exec c s = .next t ∧ ActsIn c s t := by
  obtain ⟨t, run, h⟩ := actIn_next keepAll ok f s
  exact ⟨t, e.trans run, .common ok f e h⟩

theorem exec_acts (c : Instr) (s : State) : ∃ t, exec c s = .next t ∧ ActsIn c s t := by
  cases c with
  | strike x => exact (actIn_next _ _ _ s).imp fun t h => ⟨h.1, .strike x rfl h.2⟩
  | nibRetireEffect n => exact (actIn_next _ _ _ s).imp fun t h => ⟨h.1, .nib n rfl h.2⟩
  | flourishDone n => exact (actIn_next _ _ _ s).imp fun t h => ⟨h.1, .flourish n rfl h.2⟩
  | ledgerWriteDone v => exact (actIn_next _ _ _ s).imp fun t h => ⟨h.1, .ledger v rfl h.2⟩
  | bootApplyDone x bad => exact (actIn_next _ _ _ s).imp fun t h => ⟨h.1, .apply x bad rfl h.2⟩
  | porstNRelease net => exact ⟨_, rfl, .release net rfl rfl⟩
  | porstNAssert => exact ⟨_, rfl, .porst rfl rfl⟩
  | brownoutReset rails =>
    refine ⟨_, rfl, .brownout rails rfl ?_⟩
    split
    · exact .inl rfl
    · exact .inr rfl
  | bridgeForward p m x fits window => exact exec_common (f := fun s => s |> ethIn p x |> bridgeForward p m fits window) rfl
  | arpReceive p m x => exact exec_common (f := fun s => s |> ethIn p x |> arpReceive p m) rfl
  | channelCopyDone c => exact exec_common (f := fun s => s |> copyDone c |> stageRecording) rfl
  | ebootData f x xid ofs bytes => exact exec_common (f := fun s => s |> ethIn f.eth x |> ebootData f xid ofs bytes) rfl
  | ebootOffer f x xid len => exact exec_common (f := fun s => s |> ethIn f.eth x |> ebootOffer f xid len) rfl
  | testStop r n v bits errs =>
    exact exec_common (f := fun s => s |> testCount n bits errs |> regWrite r (F.TEST_CFG.STOP n) 1 v) rfl
  | testDurationEnd n bits errs => exact exec_common (f := fun s => s |> testCount n bits errs |> durationEnd n) rfl
  | checkerLockLoss n bits errs => exact exec_common (f := fun s => s |> testCount n bits errs |> checkerLoss n) rfl
  | errStop n bits errs => exact exec_common (f := fun s => s |> testCount n bits errs |> errStop n) rfl
  | parkTimeout c => exact exec_common (f := fun s => s |> parkTimeout c |> fetchLeft) rfl
  | watchdogExpiry x cyc => exact exec_common (f := fun s => watchdogExpiry (sideIdx x) (s.strikeDclk + cyc) s) rfl
  | _ => exact exec_common rfl

theorem exec_actsIn {c : Instr} {s t : State} (h : exec c s = .next t) : ActsIn c s t := by
  obtain ⟨u, run, acts⟩ := exec_acts c s
  rw [h] at run
  injection run with e
  exact e ▸ acts

/-! ### Steps -/

/-- Settles O1: a step of a queue that is not empty is `exec` of its front. -/
theorem stepRunsFront : Obligations.StepRunsFront := fun _ _ _ => rfl

/-- Settles O2: an empty queue leaves `step` its idle arm. -/
theorem stepIdle : Obligations.StepIdle := by
  intro s h
  simp only [step, h]

/-- A step idles or runs the command at the front on the state with the rest of the queue. -/
theorem step_cases {s t : State} (h : step s = .next t) :
    t = s ∨ ∃ c rest, s.pending = c :: rest ∧ exec c { s with pending := rest } = .next t := by
  unfold step at h
  split at h
  case h_1 => injection h with h; exact .inl h.symm
  case h_2 c rest e => exact .inr ⟨c, rest, e, h⟩

/-! ### While PORST_N is low -/

theorem actIn_held {s : State} (h : s.boot.held = true) (keep : State → State → State) (ok : Bool) (f : State → State) :
    actIn keep ok f s = .next s := by simp [actIn, h]

/-- Settles O4: every frame acts only where PORST_N is high, the release and the assertion apart. -/
theorem heldUntilRelease : Obligations.HeldUntilRelease := by
  intro c s held notAssert notRelease
  obtain ⟨t, -, acts⟩ := exec_acts c s
  cases acts with
  | common ok f e _ => rw [e, act, actIn_held held]
  | strike x e _ => subst e; exact actIn_held held _ _ _
  | nib n e _ => subst e; exact actIn_held held _ _ _
  | flourish n e _ => subst e; exact actIn_held held _ _ _
  | ledger v e _ => subst e; exact actIn_held held _ _ _
  | apply x bad e _ => subst e; exact actIn_held held _ _ _
  | release net e _ => exact absurd e (notRelease net)
  | porst e _ => exact absurd e notAssert
  | brownout rails e _ => subst e; show execBrownoutReset rails s = _; simp [execBrownoutReset, held]

/-! ### The live copies -/

theorem LiveSame.refl (s : State) : LiveSame s s := ⟨rfl, rfl, rfl, rfl, rfl, rfl, rfl, rfl⟩
theorem keepAll_liveSame (s t : State) : LiveSame s (keepAll s t) := ⟨rfl, rfl, rfl, rfl, rfl, rfl, rfl, rfl⟩
theorem keepFuses_liveSame (s t : State) : LiveSame s (keepFuses s t) := ⟨rfl, rfl, rfl, rfl, rfl, rfl, rfl, rfl⟩
theorem keepRelease_liveSame (s t : State) : LiveSame s (keepRelease s t) := ⟨rfl, rfl, rfl, rfl, rfl, rfl, rfl, rfl⟩

/-- Settles O5: the frames of all other commands keep the live copies. -/
theorem liveChangesOnStrike : Obligations.LiveChangesOnStrike := by
  intro c s t run notStrike notApply notAssert notBrownout notFlourish notNib
  cases exec_actsIn run with
  | common ok f _ h =>
    rcases h with rfl | rfl
    · exact LiveSame.refl t
    · exact keepAll_liveSame s _
  | ledger v _ h =>
    rcases h with rfl | rfl
    · exact LiveSame.refl t
    · exact keepFuses_liveSame s _
  | release net _ h => subst h; exact keepRelease_liveSame s _
  | strike x e _ => exact absurd e (notStrike x)
  | nib n e _ => exact absurd e (notNib n)
  | flourish n e _ => exact absurd e (notFlourish n)
  | apply x bad e _ => exact absurd e (notApply x bad)
  | porst e _ => exact absurd e notAssert
  | brownout rails e _ => exact absurd e (notBrownout rails)

/-! ### The strokes' own time -/

/-- Settles O6: the frames of all other commands keep the time of the latest strike. -/
theorem strikeTimeOnStrike : Obligations.StrikeTimeOnStrike := by
  intro c s t run notStrike notAssert notBrownout
  cases exec_actsIn run with
  | common ok f _ h => rcases h with rfl | rfl <;> exact ⟨rfl, rfl⟩
  | nib n _ h => rcases h with rfl | rfl <;> exact ⟨rfl, rfl⟩
  | flourish n _ h => rcases h with rfl | rfl <;> exact ⟨rfl, rfl⟩
  | ledger v _ h => rcases h with rfl | rfl <;> exact ⟨rfl, rfl⟩
  | apply x bad _ h => rcases h with rfl | rfl <;> exact ⟨rfl, rfl⟩
  | release net _ h => subst h; exact ⟨rfl, rfl⟩
  | strike x e _ => exact absurd e (notStrike x)
  | porst e _ => exact absurd e notAssert
  | brownout rails e _ => exact absurd e (notBrownout rails)

/-! ### The wear ledger -/

theorem mem_of_mem_mdrop {β : Type} {k : Nat} {e : Nat × β} : ∀ {m : Table β}, e ∈ mdrop k m → e ∈ m
  | [], h => h
  | (a, b) :: rest, h => by
    unfold mdrop at h
    split at h
    · exact List.mem_cons_of_mem _ (mem_of_mem_mdrop h)
    · exact h

/-- A put adds no entry but its own. -/
theorem mem_of_mem_mput {β : Type} [DecidableEq β] {d : Nat → β} {k : Nat} {v : β} {e : Nat × β} :
    ∀ {m : Table β}, e ∈ mput d k v m → e = (k, v) ∨ e ∈ m
  | [], h => by
    unfold mput at h
    split at h
    · exact .inr h
    · exact .inl (List.mem_singleton.mp h)
  | (a, b) :: rest, h => by
    have tail : e ∈ (if a = k then mdrop k rest else (a, b) :: rest) → e ∈ (a, b) :: rest := by
      intro h
      split at h
      · exact List.mem_cons_of_mem _ (mem_of_mem_mdrop h)
      · exact h
    unfold mput at h
    split at h
    · rcases List.mem_cons.mp h with h | h
      · exact .inr (h ▸ List.mem_cons_self)
      · exact (mem_of_mem_mput h).imp_right (List.mem_cons_of_mem _)
    · dsimp only at h
      split at h
      · exact .inr (tail h)
      · exact (List.mem_cons.mp h).imp_right tail

/-- Nothing stands in the ledger's next slot or past it. -/
theorem mget_of_ledgerNext_le {k : Nat} : ∀ {m : Table Nat}, ledgerNext m ≤ k → mget zeroAt m k = 0
  | [], _ => rfl
  | (a, b) :: rest, h => by
    simp only [ledgerNext, Nat.max_le] at h
    simp only [mget]
    rw [if_neg (by omega), if_neg (by omega)]
    exact mget_of_ledgerNext_le h.2

/-- What the write of an entry leaves of the ledger's form. -/
def LedgerOk (m : Table Nat) : Prop := mwf zeroAt m = true ∧ ∀ e ∈ m, e.1 < 512 ∧ e.2 < 2 ^ 64

theorem LedgerOk.plus {m : Table Nat} (h : LedgerOk m) (v : Nat) : LedgerOk (ledgerPlus v m) := by
  unfold ledgerPlus
  split
  case isTrue free =>
    refine ⟨mwf_mput _ _ _ _ h.1, fun e he => ?_⟩
    rcases mem_of_mem_mput he with rfl | he
    · exact ⟨free, Nat.mod_lt _ (by decide)⟩
    · exact h.2 e he
  case isFalse => exact h

/-- A written entry stays when another is written. -/
theorem mget_ledgerPlus {m : Table Nat} {k : Nat} (v : Nat) (written : mget zeroAt m k ≠ 0) : mget zeroAt (ledgerPlus v m) k = mget zeroAt m k := by
  have below : k ≠ ledgerNext m := fun e => written (mget_of_ledgerNext_le (le_of_eq e.symm))
  unfold ledgerPlus
  split
  · exact mget_mput_other _ _ below _
  · rfl

/-- The fields that follow the ledger. -/
def ledgerFields : List Fld :=
  [F.NIB_LEDGER_SEL.USED, F.NIB_LEDGER_SEL.FULL, F.MON_WEAR.LEDGER_USED, F.MON_WEAR.LEDGER_FULL, F.EVT_PEND.PEND pMON]

theorem showLedger_only (s : State) : Only [.eva] ledgerFields s (showLedger s) :=
  ((((rset_only _ _ s).trans (rset_only _ _ _)).trans (wear_only _ _ _)).trans (wear_only _ _ _)).mono (by simp) (by simp [ledgerFields])

theorem ledgerFailed_only (q : LedgerReq) (s : State) :
    Only [.eva] [F.NIB_COUNT.LEDGER_LOST, F.EVT_PEND.PEND pNIB, F.EVT_PEND.PEND pLDU] s (ledgerFailed q s) :=
  (((inc_only _ s).trans (raise_only _ _ _)).trans (Only.whenB (raise_only _ _ _))).mono (by simp) (by simp)

/-- What follows the ledger's new entry: its fields, and NIB SRC[4] where the ledger is full now. -/
def ledgerShown (s : State) : State := s |> showLedger |> whenB (decide (512 ≤ ledgerNext s.nibs.ledger)) (raise pNIB 4)

theorem ledgerShown_only (s : State) : Only [.eva] (ledgerFields ++ [F.EVT_PEND.PEND pNIB]) s (ledgerShown s) :=
  ((showLedger_only s).trans (Only.whenB (raise_only _ _ _))).mono (by simp) (by simp)

/-- The state with a ledger entry written and its request taken off the queue. -/
def ledgerTaken (v : Nat) (rest : List LedgerReq) (s : State) : State :=
  { s with nibs := { s.nibs with ledgerQ := rest, ledger := ledgerPlus v s.nibs.ledger } }

/-- The end of a ledger write, by what waits for it and how it reads back (R89). -/
theorem ledgerDone_cons {s : State} {q : LedgerReq} {rest : List LedgerReq} (waits : s.nibs.ledgerQ = q :: rest) (v : Nat) :
    ledgerDone v s =
      let t := ledgerTaken v rest s
      if 512 ≤ ledgerNext s.nibs.ledger then ledgerFailed q t
      else if v = q.entry then ledgerShown t
      else if q.retry then ledgerFailed q (ledgerShown t)
      else { ledgerShown t with nibs := { (ledgerShown t).nibs with ledgerQ := { q with retry := true } :: (ledgerShown t).nibs.ledgerQ } } := by
  simp only [ledgerDone, waits, decide_eq_true_eq]
  rfl

theorem ledgerShown_nibs (s : State) : (ledgerShown s).nibs = s.nibs := (ledgerShown_only s).1 .nibs (by simp)
theorem ledgerFailed_nibs (q : LedgerReq) (s : State) : (ledgerFailed q s).nibs = s.nibs := (ledgerFailed_only q s).1 .nibs (by simp)

/-- The end of a ledger write leaves the ledger or adds what the array holds. -/
theorem ledgerDone_ledger (v : Nat) (s : State) :
    (ledgerDone v s).nibs.ledger = s.nibs.ledger ∨ (ledgerDone v s).nibs.ledger = ledgerPlus v s.nibs.ledger := by
  cases waits : s.nibs.ledgerQ with
  | nil => exact .inl (by simp [ledgerDone, waits])
  | cons q rest =>
    right
    rw [ledgerDone_cons waits]
    dsimp only
    split
    · rw [ledgerFailed_nibs]; rfl
    · split
      · rw [ledgerShown_nibs]; rfl
      · split
        · rw [ledgerFailed_nibs, ledgerShown_nibs]; rfl
        · show (ledgerShown _).nibs.ledger = _
          rw [ledgerShown_nibs]; rfl

theorem porstReset_ledger (cause rails : Nat) (s : State) : (porstReset cause rails s).nibs.ledger = s.nibs.ledger := rfl
theorem porstReset_fuses (cause rails : Nat) (s : State) : (porstReset cause rails s).boot.fuses = s.boot.fuses := rfl

/-- What wears leaves no way back: the ledger stays or takes an entry in its next slot, and fuses stay or more of them are burnt. -/
def Wears (s t : State) : Prop :=
  (t.nibs.ledger = s.nibs.ledger ∨ ∃ v, t.nibs.ledger = ledgerPlus v s.nibs.ledger)
    ∧ (t.boot.fuses = s.boot.fuses ∨ ∃ n, t.boot.fuses = s.boot.fuses ||| n)

theorem Wears.refl (s : State) : Wears s s := ⟨.inl rfl, .inl rfl⟩

/-- Of all frames the ledger's write alone adds to the ledger, and APPLY alone to the fuses (R89, R370, R397). -/
theorem ActsIn.wears {c : Instr} {s t : State} (h : ActsIn c s t) : Wears s t := by
  cases h with
  | common ok f _ h => rcases h with rfl | rfl <;> exact ⟨.inl rfl, .inl rfl⟩
  | strike x _ h => rcases h with rfl | rfl <;> exact ⟨.inl rfl, .inl rfl⟩
  | nib n _ h => rcases h with rfl | rfl <;> exact ⟨.inl rfl, .inl rfl⟩
  | flourish n _ h => rcases h with rfl | rfl <;> exact ⟨.inl rfl, .inl rfl⟩
  | ledger v _ h =>
    rcases h with rfl | rfl
    · exact Wears.refl t
    · exact ⟨(ledgerDone_ledger v s).imp_right fun e => ⟨v, e⟩, .inl rfl⟩
  | apply x bad _ h =>
    rcases h with rfl | rfl
    · exact Wears.refl t
    · exact ⟨.inl rfl, .inr ⟨_, rfl⟩⟩
  | release net _ h => subst h; exact ⟨.inl rfl, .inl rfl⟩
  | porst _ h => subst h; exact ⟨.inl (porstReset_ledger _ _ _), .inl (porstReset_fuses _ _ _)⟩
  | brownout rails _ h =>
    rcases h with rfl | rfl
    · exact Wears.refl t
    · exact ⟨.inl (porstReset_ledger _ _ _), .inl (porstReset_fuses _ _ _)⟩

theorem step_wears {s t : State} (h : step s = .next t) : Wears s t := by
  obtain rfl | ⟨c, rest, -, run⟩ := step_cases h
  · exact Wears.refl t
  · exact (exec_actsIn run).wears

/-- Settles O7: the reset state's ledger is empty. -/
theorem wearOkAtReset : Obligations.WearOkAtReset := ⟨rfl, fun _ h => absurd h List.not_mem_nil⟩

/-- Settles O8: by `step_wears` and `LedgerOk.plus`. -/
theorem wearOkKept : Obligations.WearOkKept := by
  intro s t ok run
  unfold WearOk
  rcases (step_wears run).1 with e | ⟨v, e⟩
  · exact e ▸ ok
  · exact e ▸ LedgerOk.plus ok v

/-- Settles O9: the next empty slot is none that has been written, and APPLY alone burns fuses. -/
theorem wearOnlyGrows : Obligations.WearOnlyGrows := by
  intro s t _ run
  refine ⟨fun k v e written => ?_, ?_⟩
  · subst e
    rcases (step_wears run).1 with e | ⟨v, e⟩
    · rw [e]
    · rw [e]; exact mget_ledgerPlus v written
  · rcases (step_wears run).2 with e | ⟨n, e⟩
    · rw [e, Nat.or_self]
    · rw [e, ← Nat.or_assoc, Nat.or_self]

end Sys2Proof.Machine

/-! SUPPORT. The scribe commands that compute, move the PC or write the tablets and the memory, and the faults that end a slot (R353, R355). -/

namespace Sys2Proof.Machine

/-! ### Pending sources, kept and read past -/

/-- A pending source stays so through what does not touch its page's EVT_PEND. -/
theorem Pends.only {p b : Nat} {ps : List Part} {rs : List Fld} {s t : State} (h : Pends p b s) (o : Only ps rs s t)
    (k : (F.EVT_PEND.PEND p).key ∉ rs.map (·.key)) : Pends p b t := by
  unfold Pends at *
  rwa [o.get k]

/-! ### Numbers as machine words -/

theorem asInt_eq_toInt {w : Nat} (pos : 0 < w) (v : Nat) : asInt w v = (BitVec.ofNat w v).toInt := by
  rw [BitVec.toInt_eq_msb_cond, BitVec.msb_eq_getLsbD_last, BitVec.getLsbD_ofNat, asInt, bitSet_eq_testBit, BitVec.toNat_ofNat]
  simp [pos]

theorem ofInt_eq_toNat (w : Nat) (x : Int) : ofInt w x = (BitVec.ofInt w x).toNat := by
  rw [BitVec.toNat_ofInt, ofInt]

theorem wSext_eq (w : Nat) : wSext w = ((BitVec.ofNat 32 (wImm w)).signExtend 64).toNat := by
  rw [wSext, ofInt_eq_toNat, asInt_eq_toInt (by decide)]
  rfl

theorem wSext_lt (w : Nat) : wSext w < 2 ^ 64 := wSext_eq w ▸ BitVec.isLt _

theorem tbGet_lt (s : State) (h i : Nat) : tbGet s h i < 2 ^ 64 := Nat.mod_lt _ (by decide)
theorem memGet_lt (s : State) (h x : Nat) : memGet s h x < 2 ^ 64 := Nat.mod_lt _ (by decide)
theorem wImm_lt (w : Nat) : wImm w < 2 ^ 32 := Nat.mod_lt _ (by decide)
theorem wAddr_lt (w : Nat) : wAddr w < 32768 := Nat.mod_lt _ (by decide)

/-! ### One tablet, one memory word, the PC -/

/-- `runs_scr` with names for the half and its word. -/
theorem runs_scr_at {c : Instr} {op h w : Nat} {a : ScrAt} {f : Nat → Nat → State → State} {s : State} {P : State → Prop} (eh : sideIdx a.side = h)
    (ew : wordOf a s = w) (e : exec c s = act true (scrDo op a f) s) (at' : AtCommand op a s) (p : P (keepAll s (f h w s))) : Runs c s P := by
  subst eh ew
  exact runs_scr e at' p

/-- A scribe command that only leaves `v` in tablet `i`. -/
theorem runs_tablet {c : Instr} {op i v : Nat} {a : ScrAt} {f : Nat → Nat → State → State} {s : State}
    (e : exec c s = act true (scrDo op a f) s) (at' : AtCommand op a s)
    (k : f (sideIdx a.side) (wordOf a s) s = scrNext (sideIdx a.side) (tbSet (sideIdx a.side) i v s)) (lt : v < 2 ^ 64) :
    Runs c s (TabletOnly (sideIdx a.side) i v s) := by
  refine runs_scr e at' (TabletOnly.keep (sideIdx_lt _) ?_)
  have only := TabletOnly.of_tbSet (sideIdx a.side) i v s
  rwa [Nat.mod_eq_of_lt lt, ← k] at only

/-- A scribe command that only leaves `v` in the memory word at `x`. -/
theorem runs_word {c : Instr} {op x v : Nat} {a : ScrAt} {f : Nat → Nat → State → State} {s : State}
    (e : exec c s = act true (scrDo op a f) s) (at' : AtCommand op a s)
    (k : f (sideIdx a.side) (wordOf a s) s = scrNext (sideIdx a.side) (memSet (sideIdx a.side) x v s)) (lt : v < 2 ^ 64) :
    Runs c s (WordOnly (sideIdx a.side) x v s) := by
  refine runs_scr e at' (WordOnly.keep (sideIdx_lt _) ?_)
  have only := WordOnly.of_memSet (sideIdx a.side) x v s
  rwa [Nat.mod_eq_of_lt lt, ← k] at only

/-- A scribe command that only goes on. -/
theorem runs_next {c : Instr} {op : Nat} {a : ScrAt} {f : Nat → Nat → State → State} {s : State}
    (e : exec c s = act true (scrDo op a f) s) (at' : AtCommand op a s)
    (k : f (sideIdx a.side) (wordOf a s) s = scrNext (sideIdx a.side) s) :
    Runs c s (PcOnly (sideIdx a.side) ((scrPc s (sideIdx a.side) + 1) % 32768) s) :=
  runs_scr e at' (k ▸ (PcOnly.of_scrNext _ _).keep (sideIdx_lt _))

/-- A scribe command that only jumps to its address. -/
theorem runs_jump {c : Instr} {op : Nat} {a : ScrAt} {f : Nat → Nat → State → State} {s : State}
    (e : exec c s = act true (scrDo op a f) s) (at' : AtCommand op a s)
    (k : f (sideIdx a.side) (wordOf a s) s = setPc (sideIdx a.side) (wAddr (wordOf a s)) s) :
    Runs c s (PcOnly (sideIdx a.side) (wAddr (wordOf a s)) s) := by
  have only := PcOnly.of_setPc (sideIdx a.side) (wAddr (wordOf a s)) s
  rw [Nat.mod_eq_of_lt (wAddr_lt _)] at only
  exact runs_scr e at' (k ▸ only.keep (sideIdx_lt _))

/-! ### The address of LDX and STX -/

theorem scrIndex_near {h w : Nat} {f : Nat → State → State} {s : State} (near : (wAddr w + tbGet s h (wB w)) % 2 ^ 64 < 32768) :
    scrIndex h w f s = f ((wAddr w + tbGet s h (wB w)) % 2 ^ 64) s := if_neg (Nat.not_le.mpr near)

theorem scrIndex_far {h w : Nat} {f : Nat → State → State} {s : State} (far : 32768 ≤ (wAddr w + tbGet s h (wB w)) % 2 ^ 64) :
    scrIndex h w f s = slotFault h 4 s := if_pos far

/-- Addresses count modulo 32,768, so that a sum may be cut to 64 bits first. -/
theorem memGet_mod (s : State) (h x : Nat) : memGet s h (x % 2 ^ 64) = memGet s h x := by
  rw [memGet, memGet, Nat.mod_mod_of_dvd x (by decide : (32768 : Nat) ∣ 2 ^ 64)]

theorem memSet_mod (h x v : Nat) (s : State) : memSet h (x % 2 ^ 64) v s = memSet h x v s := by
  rw [memSet, memSet, Nat.mod_mod_of_dvd x (by decide : (32768 : Nat) ∣ 2 ^ 64)]

/-! ### Commands that write a tablet -/

/-- Settles O32: each command is a tablet written and a step. -/
theorem scribeTabletResults : Obligations.ScribeTabletResults := by
  intro a s h w
  refine ⟨fun at' => runs_next rfl at' rfl, fun at' => ?_, fun at' => ?_, fun at' => ?_, fun at' => ?_, fun at' near => ?_⟩
  case refine_1 => exact wSext_eq w ▸ runs_tablet rfl at' rfl (wSext_lt w)
  case refine_2 =>
    refine runs_tablet rfl at' rfl ?_
    have low : tbGet s h (wA w) % 2 ^ 32 < 2 ^ 32 := Nat.mod_lt _ (by decide)
    have high := wImm_lt w
    show wImm w * 2 ^ 32 + tbGet s h (wA w) % 2 ^ 32 < 2 ^ 64
    omega
  case refine_3 =>
    have sum : (BitVec.ofNat 64 (tbGet s h (wA w)) + (BitVec.ofNat 32 (wImm w)).signExtend 64).toNat = (tbGet s h (wA w) + wSext w) % 2 ^ 64 := by
      rw [BitVec.toNat_add, BitVec.toNat_ofNat, ← wSext_eq, Nat.mod_add_mod]
    rw [sum]
    refine runs_scr rfl at' ((TabletOnly.of_tbSet _ _ _ s).keep (sideIdx_lt _))
  case refine_4 => exact runs_tablet rfl at' rfl (memGet_lt s h _)
  case refine_5 =>
    refine runs_tablet rfl at' ?_ (memGet_lt s h _)
    show scrIndex _ _ _ s = _
    rw [scrIndex_near near, memGet_mod]

/-! ### ALU -/

/-- The operations of ALU on machine words (R353). -/
def aluWord (k : Nat) (x y : Word) : Word :=
  match k with
  | 0 => x + y
  | 1 => x - y
  | 2 => x &&& y
  | 3 => x ||| y
  | 4 => x ^^^ y
  | 5 => x <<< (y.toNat % 64)
  | 6 => x >>> (y.toNat % 64)
  | 7 => x.sshiftRight (y.toNat % 64)
  | _ => x * y

/-- The operation that the model carries out is the one on machine words. -/
theorem scrAluOp_eq {k x y : Nat} (hk : k ≤ 8) (hx : x < 2 ^ 64) (hy : y < 2 ^ 64) :
    ∃ v, scrAluOp k x y = some v ∧ v % 2 ^ 64 = (aluWord k (BitVec.ofNat 64 x) (BitVec.ofNat 64 y)).toNat := by
  have ex := Nat.mod_eq_of_lt hx
  have ey := Nat.mod_eq_of_lt hy
  -- one case for each X, from 0 to 8
  interval_cases k <;> refine ⟨_, rfl, ?_⟩ <;> simp only [aluWord, BitVec.toNat_ofNat, ey]
  · rw [BitVec.toNat_add, BitVec.toNat_ofNat, BitVec.toNat_ofNat, ex, ey]
  · rw [BitVec.toNat_sub, BitVec.toNat_ofNat, BitVec.toNat_ofNat, ex, ey]; congr 1; omega
  · rw [BitVec.toNat_and, BitVec.toNat_ofNat, BitVec.toNat_ofNat, ex, ey]; exact Nat.mod_eq_of_lt (Nat.and_lt_two_pow _ hy)
  · rw [BitVec.toNat_or, BitVec.toNat_ofNat, BitVec.toNat_ofNat, ex, ey]; exact Nat.mod_eq_of_lt (Nat.or_lt_two_pow hx hy)
  · rw [BitVec.toNat_xor, BitVec.toNat_ofNat, BitVec.toNat_ofNat, ex, ey]; exact Nat.mod_eq_of_lt (Nat.xor_lt_two_pow hx hy)
  · rw [BitVec.toNat_shiftLeft, BitVec.toNat_ofNat, ex]
  · rw [BitVec.toNat_ushiftRight, BitVec.toNat_ofNat, ex]
    exact Nat.mod_eq_of_lt (lt_of_le_of_lt (Nat.shiftRight_le _ _) hx)
  · rw [BitVec.sshiftRight, ofInt_eq_toNat, asInt_eq_toInt (by decide), Int.shiftRight_eq_div_pow, Nat.mod_eq_of_lt (BitVec.isLt _)]
  · rw [BitVec.toNat_mul, BitVec.toNat_ofNat, BitVec.toNat_ofNat, ex, ey]

theorem scrAluOp_none {k : Nat} (hk : 8 < k) (x y : Nat) : scrAluOp k x y = none := by
  obtain ⟨n, rfl⟩ : ∃ n, k = n + 9 := ⟨k - 9, by omega⟩
  rfl

/-- Settles O33: the model's operation agrees with the one on machine words for each X. -/
theorem scribeAluResults : Obligations.ScribeAluResults := by
  intro a s at' h w x y n gives
  have all (k : Nat) (hk : k ≤ 8) : gives k (aluWord k x y) := by
    intro hX
    obtain ⟨v, op, value⟩ := scrAluOp_eq hk (tbGet_lt s h (wB w)) (tbGet_lt s h (wC w))
    refine value ▸ runs_scr (f := scrAlu) rfl at' ?_
    have acts : scrAlu h w s = scrNext h (tbSet h (wA w) v s) := by simp only [scrAlu, hX, op]
    exact acts ▸ (TabletOnly.of_tbSet _ _ _ s).keep (sideIdx_lt _)
  exact ⟨all 0 (by decide), all 1 (by decide), all 2 (by decide), all 3 (by decide), all 4 (by decide), all 5 (by decide), all 6 (by decide),
    all 7 (by decide), all 8 (by decide)⟩

/-! ### Commands that write the memory -/

theorem mbinClear_only (h : Nat) (s : State) : Only [.halves] [sf h F.SCRR_MBIN_CTRL.COUNT, sf h F.SCRR_MBIN_CTRL.BUSY] s (mbinClear h s) :=
  (((setHalf_only _ _ s).trans (rset_only _ _ _)).trans (rset_only _ _ _)).mono (by simp) (by simp)

/-- The words of an item copied into the memory from `x` on. -/
def copyItem (h x : Nat) (item : List Nat) (n : Nat) (s : State) : State :=
  forAll (List.range n) (fun i s => memSet h (x + i) (nth 0 item i) s) s

theorem memGet_memSet (h x y v : Nat) (s : State) :
    memGet (memSet h x v s) h y = if y % 32768 = x % 32768 then v % 2 ^ 64 else memGet s h y := by
  split
  case isTrue e => simp [memGet, memSet, e]
  case isFalse e => simp [memGet, memSet, mget_mput_other _ _ e]

theorem copyItem_succ (h x : Nat) (item : List Nat) (n : Nat) (s : State) :
    copyItem h x item (n + 1) s = memSet h (x + n) (nth 0 item n) (copyItem h x item n s) := by
  simp [copyItem, forAll, List.range_succ]

/-- Each word copied stands where it was put: the item is shorter than the memory. -/
theorem memGet_copyItem {h x n i : Nat} {item : List Nat} (s : State) (lt : i < n) (le : n ≤ 64) :
    memGet (copyItem h x item n s) h (x + i) = nth 0 item i % 2 ^ 64 := by
  induction n with
  | zero => omega
  | succ n ih =>
    rw [copyItem_succ, memGet_memSet]
    split
    case isTrue e => rw [show i = n by omega]
    case isFalse e =>
      have before : i ≠ n := fun k => e (by rw [k])
      exact ih (by omega) (by omega)

theorem copyItem_only (h x : Nat) (item : List Nat) (n : Nat) (s : State) : Only [.halves] [] s (copyItem h x item n s) :=
  Only.forAll _ (fun _ _ s => memSet_only _ _ _ s) s

theorem half_mbinClear (h : Nat) (s : State) : half (mbinClear h s) h = { half s h with inbox := [] } := by
  simp [mbinClear]

/-- What MBXG leaves when the host's item is there (R357). -/
theorem runs_mbxg_item {a : ScrAt} {s : State} (at' : AtCommand 0x29 a s) (busy : on s (sf (sideIdx a.side) F.SCRR_MBIN_CTRL.BUSY) = true)
    (short : (half s (sideIdx a.side)).inbox.length ≤ 64) :
    let h := sideIdx a.side
    let w := wordOf a s
    let item := (half s h).inbox
    Runs (.scrMbxg a) s (fun t =>
      (∀ i, i < item.length → memGet t h (wAddr w + i) = nth 0 item i % 2 ^ 64)
        ∧ tbGet t h (wA w) = item.length ∧ rget t (sf h F.SCRR_MBIN_CTRL.BUSY) = 0
        ∧ rget t (sf h F.SCRR_MBIN_CTRL.COUNT) = 0 ∧ (half t h).inbox = [] ∧ Pends (halfPage h) 3 t ∧ StepsOn h s t
        ∧ Only [.halves, .eva] [sf h F.SCRR_MBIN_CTRL.BUSY, sf h F.SCRR_MBIN_CTRL.COUNT, F.EVT_PEND.PEND (halfPage h), sf h F.SCRR_STATE.PC] s t) := by
  intro h w item
  have hh : h < 2 := sideIdx_lt _
  set copied := tbSet h (wA w) item.length (copyItem h (wAddr w) item item.length s) with copiedEq
  set cleared := mbinClear h copied with clearedEq
  set t := scrNext h (raise (halfPage h) 3 cleared) with tEq
  have acts : scrMbxg h w s = t := by
    have b : on s (sf h F.SCRR_MBIN_CTRL.BUSY) = true := busy
    simp only [scrMbxg, b, Bool.not_true, Bool.false_eq_true, if_false]
    rfl
  have toCopied : Only [.halves] [] s copied := ((copyItem_only _ _ _ _ s).trans (tbSet_only _ _ _ _)).mono (by simp) (by simp)
  have raised : Only [.eva] [F.EVT_PEND.PEND (halfPage h), sf h F.SCRR_STATE.PC] cleared t :=
    ((raise_only _ _ _).trans (scrNext_only _ _)).mono (by simp) (by simp)
  have whole := (toCopied.trans (mbinClear_only h copied)).trans raised
  have halfT : half t h = { half copied h with inbox := [] } := by
    rw [tEq, half_scrNext, half_raise, half_mbinClear]
  refine runs_scr_at (h := h) (w := w) (f := scrMbxg) rfl rfl rfl at' ?_
  rw [acts]
  refine ⟨fun i lt => ?_, ?_, ?_, ?_, ?_, ?_, ?_, ?_⟩
  · have sameMem : memGet (keepAll s t) h (wAddr w + i) = memGet (copyItem h (wAddr w) item item.length s) h (wAddr w + i) := by
      simp only [memGet, half_keepAll, halfT, copiedEq, tbSet, half_setHalf_same]
    rw [sameMem, memGet_copyItem s lt short]
  · simp only [tbGet, half_keepAll, halfT, copiedEq, tbSet, half_setHalf_same, mget_mput_same]
    have len : item.length ≤ 64 := short
    omega
  · rw [rget_keepAll _ _ (sf_lt _ hh (by decide)), raised.get (by simp [halfPage]; omega)]
    simp [clearedEq, mbinClear]
  · rw [rget_keepAll _ _ (sf_lt _ hh (by decide)), raised.get (by simp [halfPage]; omega)]
    simp [clearedEq, mbinClear, rget_rset]
  · rw [half_keepAll, halfT]
  · refine Pends.keepAll (by show 2 + h < 64; omega) ?_
    exact (raise_pends cleared (by decide)).only (scrNext_only _ _) (by simp [halfPage]; omega)
  · rw [StepsOn, scrPc_keepAll _ _ hh, scrPc_scrNext]
    congr 2
    exact ((toCopied.trans (mbinClear_only h copied)).trans (raise_only _ _ _)).get (by simp [halfPage]; omega)
  · exact (whole.mono (by simp) (by simp)).keepAll

/-- Settles O34: one word written and a step, or the item copied, the mailbox cleared and SRC[3] raised. -/
theorem scribeMemoryWrites : Obligations.ScribeMemoryWrites := by
  intro a s h w
  refine ⟨fun at' => runs_word rfl at' rfl (tbGet_lt s h _), fun at' near => ?_, fun at' idle => ?_, fun at' busy short => ?_⟩
  case refine_1 =>
    refine runs_word (f := scrStx) rfl at' ?_ (tbGet_lt s h _)
    show scrIndex _ _ _ s = _
    rw [scrIndex_near near, memSet_mod]
  case refine_2 =>
    refine runs_tablet (f := scrMbxg) rfl at' ?_ (by decide)
    show scrMbxg h w s = _
    simp only [scrMbxg, idle, Bool.not_false, if_true]
    rfl
  case refine_3 => exact runs_mbxg_item at' busy short

/-! ### Flow -/

/-- The conditions of JCC on machine words (R353). -/
def Jumps (c : Nat) (x y : Word) : Prop :=
  (c = 0 ∧ x = y) ∨ (c = 1 ∧ x ≠ y) ∨ (c = 2 ∧ x.slt y = true) ∨ (c = 3 ∧ x.slt y = false) ∨ (c = 4 ∧ x.ult y = true) ∨ (c = 5 ∧ x.ult y = false)

theorem scrCond_iff {x y : Nat} (hx : x < 2 ^ 64) (hy : y < 2 ^ 64) (c : Nat) :
    scrCond c x y = true ↔ Jumps c (BitVec.ofNat 64 x) (BitVec.ofNat 64 y) := by
  have same : BitVec.ofNat 64 x = BitVec.ofNat 64 y ↔ x = y := by
    rw [← BitVec.toNat_inj, BitVec.toNat_ofNat, BitVec.toNat_ofNat, Nat.mod_eq_of_lt hx, Nat.mod_eq_of_lt hy]
  have less : (BitVec.ofNat 64 x).ult (BitVec.ofNat 64 y) = decide (x < y) := by
    rw [BitVec.ult, BitVec.toNat_ofNat, BitVec.toNat_ofNat, Nat.mod_eq_of_lt hx, Nat.mod_eq_of_lt hy]
  have lessSigned : (BitVec.ofNat 64 x).slt (BitVec.ofNat 64 y) = decide (asInt 64 x < asInt 64 y) := by
    rw [BitVec.slt, asInt_eq_toInt (by decide), asInt_eq_toInt (by decide)]
  unfold scrCond Jumps
  rw [same, less, lessSigned]
  split_ifs with h0 h1 h2 h3 h4 h5 <;> simp [*]

/-- Settles O35: each command moves the PC or pushes, pops or ends as it says. -/
theorem scribeFlow : Obligations.ScribeFlow := by
  intro a s h w x y jumps
  have hh : h < 2 := sideIdx_lt _
  have cond : scrCond (wCond w) (tbGet s h (wA w)) (tbGet s h (wB w)) = true ↔ jumps := scrCond_iff (tbGet_lt s h _) (tbGet_lt s h _) _
  refine ⟨fun at' => runs_jump rfl at' rfl, fun at' => ⟨fun j => ?_, fun j => ?_⟩, fun at' room => ?_, fun at' p rest top => ?_, fun at' => ?_⟩
  case refine_1 => exact runs_jump (f := scrJcc) rfl at' (if_pos (cond.mpr j))
  case refine_2 => exact runs_next (f := scrJcc) rfl at' (if_neg (mt cond.mp j))
  case refine_3 =>
    have acts : scrCall h w s = setPc h (wAddr w) (setHalf h (fun z => { z with stack := (scrPc s h + 1) % 32768 :: z.stack }) s) :=
      if_neg (Nat.not_le.mpr room)
    refine runs_scr_at (h := h) (w := w) (f := scrCall) rfl rfl rfl at' ?_
    rw [acts]
    refine ⟨by simp, fun k other => by simp [half_setHalf_other _ _ other], ?_, ?_⟩
    · rw [scrPc_keepAll _ _ hh, scrPc_setPc, Nat.mod_eq_of_lt (wAddr_lt w)]
    · exact (((setHalf_only _ _ s).trans (setPc_only _ _ _)).mono (by simp) (by simp)).keepAll
  case refine_4 =>
    have acts : scrRet h w s = setPc h p (setHalf h (fun z => { z with stack := rest }) s) := by simp only [scrRet, top]
    refine runs_scr_at (h := h) (w := w) (f := scrRet) rfl rfl rfl at' ?_
    rw [acts]
    refine ⟨by simp, fun k other => by simp [half_setHalf_other _ _ other], ?_, ?_⟩
    · rw [scrPc_keepAll _ _ hh, scrPc_setPc]
    · exact (((setHalf_only _ _ s).trans (setPc_only _ _ _)).mono (by simp) (by simp)).keepAll
  case refine_5 =>
    refine runs_scr_at (h := h) (w := w) (f := scrEnd) rfl rfl rfl at' ⟨by simp [scrEnd], fun k other => by simp [scrEnd, endSlot, half_setHalf_other _ _ other], ?_, ?_, ?_⟩
    · rw [rget_keepAll _ _ (sf_lt _ hh (by decide))]
      simp [scrEnd, endSlot, rget_rset]
    · rw [rget_keepAll _ _ (sf_lt _ hh (by decide))]
      simp [scrEnd, endSlot]
    · exact (((scrNext_only _ s).trans (endSlot_only _ _)).mono (by simp) (by simp)).keepAll

/-! ### Faults -/

/-- The common frame adds nothing to a fault's record. -/
theorem Faulted.keep {h code : Nat} {s t : State} (hh : h < 2) (k : Faulted h code s t) : Faulted h code s (keepAll s t) := by
  obtain ⟨codeIs, slot, pc, stroke, faults, pends, ended, only⟩ := k
  have get (f : Fld) (lt : f.key < 0x1000000 - 32768) : rget (keepAll s t) (sf h f) = rget t (sf h f) := rget_keepAll _ _ (sf_lt _ hh lt)
  refine ⟨?_, ?_, ?_, ?_, ?_, pends.keepAll (by show 2 + h < 64; omega), ended, only.keepAll⟩
  · rw [get _ (by decide), codeIs]
  · rw [get _ (by decide), slot]
  · rw [get _ (by decide), pc]
  · rw [get _ (by decide), stroke]
  · rw [get _ (by decide), faults]

/-- A scribe command that is due and ends its slot. -/
theorem runs_fault {c : Instr} {op code : Nat} {a : ScrAt} {f : Nat → Nat → State → State} {s : State}
    (e : exec c s = act true (scrDo op a f) s) (at' : AtCommand op a s) (lt : code < 256)
    (k : f (sideIdx a.side) (wordOf a s) s = slotFault (sideIdx a.side) code s) : Runs c s (Faulted (sideIdx a.side) code s) :=
  runs_scr e at' (k ▸ (slotFault_faulted (sideIdx_lt _) lt s).keep (sideIdx_lt _))

/-- A command that the word at the PC names, among those that `ok` admits, acts on its half or ends its slot by parity. -/
theorem runs_scrWhere {c : Instr} {ok : Nat → Bool} {a : ScrAt} {f : Nat → Nat → State → State} {s : State} {P : State → Prop}
    (e : exec c s = act true (scrWhere ok a f) s) (u : Up s) (ready : scrReady s (sideIdx a.side) = true) (named : ok (wOp (wordOf a s)) = true)
    (p : P (keepAll s (if a.bad then slotFault (sideIdx a.side) 5 s else f (sideIdx a.side) (wordOf a s) s))) : Runs c s P := by
  refine runs_act e u rfl ?_
  have k : scrWhere ok a f s = if a.bad then slotFault (sideIdx a.side) 5 s else f (sideIdx a.side) (wordOf a s) s := by
    simp only [wordOf] at named
    simp only [scrWhere, ready, named, Bool.and_self, if_true, wordOf]
  rw [k]
  exact p

/-- Every command of the table is carried out where the word at the PC has its OP. -/
theorem scribeRows_where (a : ScrAt) :
    ∀ c ∈ scribeRows a, ∃ ok f, (∀ s, exec c.2 s = act true (scrWhere ok a f) s) ∧ ok c.1 = true := by
  simp only [scribeRows, List.forall_mem_cons]
  repeat' refine And.intro ⟨_, _, fun _ => rfl, rfl⟩ ?_
  exact fun _ h => absurd h List.not_mem_nil

theorem scrReg_odd {h off : Nat} {f : State → State} {s : State} (odd : off % 8 ≠ 0) : scrReg h off f s = slotFault h 7 s := if_pos odd
theorem scrReg_even {h off : Nat} {f : State → State} {s : State} (even : off % 8 = 0) : scrReg h off f s = f s := if_neg (by simp [even])

/-- Settles O36: each case of R355's table is a call of `slotFault`. -/
theorem scribeFaults : Obligations.ScribeFaults := by
  intro a s h w ends far
  refine ⟨fun undefined at' => ?_, fun at' big => ?_, fun at' big => ?_, fun at' full => ?_, fun at' empty => ?_, fun at' far => ?_, fun at' far => ?_,
    fun at' long => ?_, fun at' odd => ?_, fun at' odd => ?_, fun at' odd => ?_, fun at' odd => ?_, fun at' odd => ?_, fun at' _ => ?_,
    fun u ready bad c row op => ?_⟩
  case refine_1 =>
    obtain ⟨u, good, ready, -⟩ := at'
    refine runs_scrWhere (f := scrFault) rfl u ready (by simp [show opDefined (wOp (wordOf a s)) = false from undefined]) ?_
    have notFault : wOp w ≠ 0x34 := fun e => absurd undefined (by rw [e]; decide)
    simp only [good, Bool.false_eq_true, if_false, scrFault, show wOp (wordOf a s) ≠ 0x34 from notFault]
    exact (slotFault_faulted (sideIdx_lt _) (by decide) s).keep (sideIdx_lt _)
  case refine_2 =>
    refine runs_fault (f := scrAlu) rfl at' (by decide) ?_
    simp only [scrAlu, scrAluOp_none (show 8 < wX (wordOf a s) from big)]
  case refine_3 => exact runs_fault (f := scrEvt) rfl at' (by decide) (if_pos big)
  case refine_4 => exact runs_fault (f := scrCall) rfl at' (by decide) (if_pos full)
  case refine_5 =>
    refine runs_fault (f := scrRet) rfl at' (by decide) ?_
    simp only [scrRet, show (half s (sideIdx a.side)).stack = [] from empty]
  case refine_6 => exact runs_fault (f := scrLdx) rfl at' (by decide) (scrIndex_far far)
  case refine_7 => exact runs_fault (f := scrStx) rfl at' (by decide) (scrIndex_far far)
  case refine_8 => exact runs_fault (f := scrMbxs) rfl at' (by decide) (if_pos long)
  case refine_9 => exact runs_fault (f := scrRd a) rfl at' (by decide) (scrReg_odd odd)
  case refine_10 => exact runs_fault (f := scrWr a) rfl at' (by decide) (scrReg_odd odd)
  case refine_11 => exact runs_fault (f := scrWri a) rfl at' (by decide) (scrReg_odd odd)
  case refine_12 => exact runs_fault (f := scrRmw a) rfl at' (by decide) (scrReg_odd odd)
  case refine_13 => exact runs_fault (f := scrPoll a) rfl at' (by decide) (scrReg_odd odd)
  case refine_14 =>
    obtain ⟨u, good, ready, op⟩ := at'
    refine runs_scrWhere (f := scrFault) rfl u ready (by simp [op]) ?_
    simp only [good, Bool.false_eq_true, if_false, scrFault, op, if_true]
    exact (slotFault_faulted (sideIdx_lt _) (by omega) s).keep (sideIdx_lt _)
  case refine_15 =>
    obtain ⟨ok, f, e, admits⟩ := scribeRows_where a c row
    refine runs_scrWhere (e s) u ready (by rw [show wOp (wordOf a s) = c.1 from op]; exact admits) ?_
    rw [if_pos bad]
    exact (slotFault_faulted (sideIdx_lt _) (by decide) s).keep (sideIdx_lt _)

end Sys2Proof.Machine

/-! SUPPORT. The scribe commands that wait, and those that act past the scribe: heartbeat, pen, events, mailbox, HALT (R353). -/

namespace Sys2Proof.Machine

/-! ### The end of a wait -/

theorem scrGo_only (h : Nat) (s : State) : Only [.halves] [sf h F.SCRR_STATE.PC] s (scrGo h s) :=
  ((setHalf_only _ _ s).trans (scrNext_only _ _)).mono (by simp) (by simp)

@[simp] theorem half_scrGo_same (h : Nat) (s : State) : half (scrGo h s) h = { half s h with wait := .none } := by simp [scrGo]
theorem half_scrGo_other {h k : Nat} (s : State) (other : k ≠ h) : half (scrGo h s) k = half s k := by simp [scrGo, half_setHalf_other _ _ other]
@[simp] theorem scrPc_scrGo (h : Nat) (s : State) : scrPc (scrGo h s) h = (scrPc s h + 1) % 32768 := by simp [scrGo]

/-- The scribe has ended its wait and gone on. -/
def Woke (h : Nat) (s t : State) : Prop :=
  half t h = { half s h with wait := .none } ∧ (∀ k, k ≠ h → half t k = half s k) ∧ StepsOn h s t ∧ Only [.halves] [sf h F.SCRR_STATE.PC] s t

theorem Woke.of_scrGo {h : Nat} (hh : h < 2) (s : State) : Woke h s (keepAll s (scrGo h s)) :=
  ⟨by simp, fun k other => by simp [half_scrGo_other _ other], by rw [StepsOn, scrPc_keepAll _ _ hh, scrPc_scrGo], (scrGo_only h s).keepAll⟩

theorem WokeWith.of_scrGo {h i v : Nat} (hh : h < 2) (lt : v < 2 ^ 64) (s : State) : WokeWith h i v s (keepAll s (scrGo h (tbSet h i v s))) := by
  refine ⟨?_, fun j other => ?_, ?_, fun k other => ?_, ?_, ?_⟩
  · simp [tbGet, tbSet]
    omega
  · simp [tbGet, tbSet, mget_mput_other _ _ other]
  · simp [tbSet]
  · simp [tbSet, half_scrGo_other _ other, half_setHalf_other _ _ other]
  · rw [StepsOn, scrPc_keepAll _ _ hh, scrPc_scrGo]
    rfl
  · exact (((tbSet_only _ _ _ s).trans (scrGo_only _ _)).mono (by simp) (by simp)).keepAll

/-- A command that leaves the state as it was. -/
theorem runs_same {c : Instr} {ok : Bool} {f : State → State} {s : State} (e : exec c s = act ok f s) (u : Up s) (k : ok = true) (same : f s = s) :
    Runs c s (· = s) := runs_act e u k (by rw [same]; exact keepAll_self s)

/-- Settles O38: a wait is entered by `setHalf`, and ends by `scrGo`. -/
theorem scribeWaits : Obligations.ScribeWaits := by
  intro a s h w n wakes
  have hh : h < 2 := sideIdx_lt _
  refine ⟨fun at' => ⟨fun reached => ?_, fun later => ?_⟩, fun m u waits => ⟨fun reached => ?_, fun later => ?_⟩,
    fun at' => ⟨fun zero => ?_, fun some => ?_⟩, fun u waits => ?_, fun at' => ⟨fun raised => ?_, fun quiet => ?_⟩,
    fun x u waits => ⟨fun raised => ?_, fun quiet limit => ?_⟩, fun u waits => ?_⟩
  case refine_1 => exact runs_next (f := scrWaits) rfl at' (if_pos reached)
  case refine_2 =>
    refine runs_scr_at (h := h) (w := w) (f := scrWaits) rfl rfl rfl at' ?_
    rw [show scrWaits h w s = setHalf h (fun x => { x with wait := .strokes n }) s from if_neg (Nat.not_le.mpr later)]
    exact (WaitsOnly.of_setHalf h _ s).keep
  case refine_3 =>
    refine runs_act (f := waitsDone h) rfl u rfl ?_
    rw [show waitsDone h s = scrGo h s by simp only [waitsDone, waits, if_pos reached]]
    exact Woke.of_scrGo hh s
  case refine_4 => exact runs_same (f := waitsDone h) rfl u rfl (by simp only [waitsDone, waits, if_neg (Nat.not_le.mpr later)])
  case refine_5 => exact runs_next (f := scrWaitt) rfl at' (if_pos zero)
  case refine_6 =>
    refine runs_scr_at (h := h) (w := w) (f := scrWaitt) rfl rfl rfl at' ?_
    rw [show scrWaitt h w s = setHalf h (fun x => { x with wait := .time }) s from if_neg some]
    exact (WaitsOnly.of_setHalf h _ s).keep
  case refine_7 =>
    refine runs_act (f := waittDone h) rfl u rfl ?_
    rw [show waittDone h s = scrGo h s from if_pos waits]
    exact Woke.of_scrGo hh s
  case refine_8 => exact runs_tablet (f := scrWaite) rfl at' (if_pos raised) (by decide)
  case refine_9 =>
    refine runs_scr_at (h := h) (w := w) (f := scrWaite) rfl rfl rfl at' ?_
    rw [show scrWaite h w s = setHalf h (fun x => { x with wait := .event (wX w) }) s from if_neg (by simp [quiet])]
    exact (WaitsOnly.of_setHalf h _ s).keep
  case refine_10 =>
    refine runs_act (f := waiteDone h) rfl u rfl ?_
    rw [show waiteDone h s = scrGo h (tbSet h (wC w) 1 s) by simp only [waiteDone, waits, raised, if_true]; rfl]
    exact WokeWith.of_scrGo hh (by decide) s
  case refine_11 =>
    refine runs_act (f := waiteDone h) rfl u rfl ?_
    have limit' : wImm (scrWord s h) ≠ 0 := limit
    rw [show waiteDone h s = scrGo h (tbSet h (wC w) 0 s) by
      simp only [waiteDone, waits, quiet, Bool.false_eq_true, if_false, if_neg limit']; rfl]
    exact WokeWith.of_scrGo hh (by decide) s
  case refine_12 =>
    refine runs_act (f := waiteDone h) rfl u rfl ?_
    rw [show waiteDone h s = scrGo h (tbSet h (wC w) 1 s) by simp only [waiteDone, waits]; rfl]
    exact WokeWith.of_scrGo hh (by decide) s

/-! ### HBEAT, CLAIM, RELEASE and EVT -/

theorem leavePen_only (h cause : Nat) (s : State) : Only [.halves] [] s (leavePen h cause s) := setHalf_only _ _ s

theorem setHalfState_only (h v : Nat) (s : State) : Only [.eva] [sf h F.SCRR_STATE.STATE, F.EVT_PEND.PEND (halfPage h), F.MON_WEAR.HALVES_OK,
    F.EVT_PEND.PEND pMON] s (setHalfState h v s) := by
  unfold setHalfState
  split
  · exact (Only.refl s).mono (by simp) (by simp)
  · exact (((rset_only _ _ s).trans (raise_only _ _ _)).trans (wear_only _ _ _)).mono (by simp) (by simp)

/-- STATE is what it is made. -/
theorem halfState_setHalfState {h v : Nat} (hh : h < 2) (lt : v < 8) (s : State) : halfState (setHalfState h v s) h = v := by
  unfold setHalfState
  split
  case isTrue e => exact e
  case isFalse =>
    have late (x : Nat) : Only [.eva] [F.EVT_PEND.PEND (halfPage h), F.MON_WEAR.HALVES_OK, F.EVT_PEND.PEND pMON] (rset (sf h F.SCRR_STATE.STATE) v s)
        (wear F.MON_WEAR.HALVES_OK x (raise (halfPage h) 0 (rset (sf h F.SCRR_STATE.STATE) v s))) :=
      ((raise_only _ _ _).trans (wear_only _ _ _)).mono (by simp) (by simp)
    rw [halfState, (late _).get (by simp [halfPage]; omega), rget_rset_same]
    exact Nat.mod_eq_of_lt lt

@[simp] theorem half_setHalfState (h v : Nat) (s : State) (k : Nat) : half (setHalfState h v s) k = half s k := by
  unfold half
  rw [(setHalfState_only h v s).1 .halves (by simp)]

/-- RELEASE of another's pending claim, or of none. -/
def claimWithdrawn (h : Nat) (s : State) : State := s |> rset (sf h F.SCRR_STATE.CLAIM) 0 |> whenB (halfState s h == 3) (setHalfState h 2)

theorem claimWithdrawn_only (h : Nat) (s : State) : Only [.eva] [sf h F.SCRR_STATE.CLAIM, sf h F.SCRR_STATE.STATE, F.EVT_PEND.PEND (halfPage h),
    F.MON_WEAR.HALVES_OK, F.EVT_PEND.PEND pMON] s (claimWithdrawn h s) :=
  ((rset_only _ _ s).trans (Only.whenB (setHalfState_only _ _ _))).mono (by simp) (by simp)

theorem halfState_claimWithdrawn {h : Nat} (hh : h < 2) (s : State) :
    halfState (claimWithdrawn h s) h = if halfState s h = 3 then 2 else halfState s h := by
  unfold claimWithdrawn
  by_cases hold : halfState s h = 3
  · simp only [hold, beq_self_eq_true, whenB_true, if_true]
    exact halfState_setHalfState hh (by decide) _
  · simp only [if_neg hold, beq_eq_false_iff_ne.mpr hold, whenB_false]
    exact rget_rset_other _ _ (by simp)

theorem rget_claimWithdrawn (h : Nat) (s : State) : rget (claimWithdrawn h s) (sf h F.SCRR_STATE.CLAIM) = 0 := by
  have late : Only [.eva] [sf h F.SCRR_STATE.STATE, F.EVT_PEND.PEND (halfPage h), F.MON_WEAR.HALVES_OK, F.EVT_PEND.PEND pMON]
      (rset (sf h F.SCRR_STATE.CLAIM) 0 s) (claimWithdrawn h s) := Only.whenB (setHalfState_only _ _ _)
  rw [late.get (by simp [halfPage]; omega), rget_rset_same]
  rfl

/-! ### The tablets shown -/

/-- The first `n` tablets are shown in TB0 on. -/
def showFirst (h n : Nat) (s : State) : State := forAll (List.range n) (fun i s => rset (sf h (F.SCRR_TB.VALUE i)) (tbGet s h i) s) s

theorem showFirst_succ (h n : Nat) (s : State) :
    showFirst h (n + 1) s = rset (sf h (F.SCRR_TB.VALUE n)) (tbGet (showFirst h n s) h n) (showFirst h n s) := by
  simp [showFirst, forAll, List.range_succ]

theorem tbGet_showFirst (h n i : Nat) (s : State) : tbGet (showFirst h n s) h i = tbGet s h i :=
  forAll_keeps (fun s => tbGet s h i) (fun i s => rset (sf h (F.SCRR_TB.VALUE i)) (tbGet s h i) s) (fun _ _ => rfl) _ s

theorem rget_showFirst {h n i : Nat} (lt : i < n) (s : State) : rget (showFirst h n s) (sf h (F.SCRR_TB.VALUE i)) = tbGet s h i := by
  induction n with
  | zero => omega
  | succ n ih =>
    rw [showFirst_succ, rget_rset]
    split
    case isTrue e =>
      rw [show i = n by simp at e; omega, tbGet_showFirst]
      exact Nat.mod_eq_of_lt (tbGet_lt s h n)
    case isFalse e =>
      have before : i ≠ n := by rintro rfl; exact e rfl
      exact ih (by omega)

theorem rget_showTablets {h i : Nat} (lt : i < 16) (s : State) : rget (showTablets h s) (sf h (F.SCRR_TB.VALUE i)) = tbGet s h i :=
  rget_showFirst lt s

/-! ### HALT -/

/-- The slot ended and no slot pending, with the half about to leave the pen. -/
def slotsStopped (h : Nat) (s : State) : State := s |> endSlot h |> rset (sf h F.SCRR_SLOTS.PEND) 0 |> leavePen h 5

theorem slotsStopped_only (h : Nat) (s : State) :
    Only [.halves] [sf h F.SCRR_STATE.SLOT, sf h F.SCRR_STATE.IDLE, sf h F.SCRR_SLOTS.PEND] s (slotsStopped h s) :=
  (((endSlot_only h s).trans (rset_only _ _ _)).trans (leavePen_only _ _ _)).mono (by simp) (by simp)

theorem scrHalt_eq (h w : Nat) (s : State) : scrHalt h w s = (s |> showTablets h |> scrNext h |> slotsStopped h |> setHalfState h 5) := rfl

theorem half_slotsStopped (h : Nat) (s : State) :
    half (slotsStopped h s) h = { half s h with run := none, wait := .none, stack := [], drop := some 5 } := by
  simp [slotsStopped, leavePen]

theorem runs_halt {a : ScrAt} {s : State} (at' : AtCommand 0x3F a s) : let h := sideIdx a.side
    Runs (.scrHalt a) s (fun t =>
        halfState t h = 5 ∧ rget t (sf h F.SCRR_SLOTS.PEND) = 0 ∧ rget t (sf h F.SCRR_STATE.IDLE) = 1
          ∧ half t h = { half s h with run := none, wait := .none, stack := [], drop := some 5 } ∧ StepsOn h s t
          ∧ (∀ i, i < 16 → rget t (sf h (F.SCRR_TB.VALUE i)) = tbGet s h i)
          ∧ Only [.halves, .eva] (faultFields h ++ [sf h F.SCRR_SLOTS.PEND, sf h F.SCRR_STATE.STATE, F.MON_WEAR.HALVES_OK,
              F.EVT_PEND.PEND pMON]) s t) := by
  intro h
  have hh : h < 2 := sideIdx_lt _
  refine runs_scr_at (h := h) rfl rfl (f := scrHalt) rfl at' ?_
  rw [scrHalt_eq]
  set shown := scrNext h (showTablets h s) with shownEq
  set stopped := slotsStopped h shown with stoppedEq
  have toShown := (showTablets_only h s).trans (scrNext_only h (showTablets h s))
  have toStopped : Only _ _ shown stopped := slotsStopped_only h shown
  have toState := setHalfState_only h 5 stopped
  have late := toStopped.trans toState
  refine ⟨?_, ?_, ?_, ?_, ?_, fun i lt => ?_, ?_⟩
  · rw [halfState, rget_keepAll _ _ (sf_lt _ hh (by decide))]
    exact halfState_setHalfState hh (by decide) _
  · rw [rget_keepAll _ _ (sf_lt _ hh (by decide)), toState.get (by simp [halfPage]; omega)]
    simp [stoppedEq, slotsStopped, leavePen]
  · rw [rget_keepAll _ _ (sf_lt _ hh (by decide)), toState.get (by simp [halfPage]; omega)]
    simp [stoppedEq, slotsStopped, leavePen, endSlot, rget_rset]
  · rw [half_keepAll, half_setHalfState, half_slotsStopped, half_scrNext, half_showTablets]
  · rw [StepsOn, scrPc_keepAll _ _ hh, scrPc, late.get (by simp [halfPage]; omega)]
    show scrPc shown h = _
    rw [shownEq, scrPc_scrNext, scrPc, (showTablets_only h s).get (by simp; omega)]
    rfl
  · have low : i < 16 := lt
    rw [rget_keepAll _ _ (sf_lt _ hh (by simp; omega)), late.get (by simp [halfPage]; omega), shownEq, (scrNext_only _ _).get (by simp; omega),
      rget_showTablets lt]
  · refine ((toShown.trans late).mono (by simp) ?_).keepAll
    intro f hf
    simp only [List.mem_append, List.mem_cons, List.not_mem_nil, or_false] at hf
    rcases hf with (shows | rfl) | (rfl | rfl | rfl) | (rfl | rfl | rfl | rfl)
    · exact List.mem_append_left _ (List.mem_append_right _ shows)
    all_goals simp [faultFields]

/-! ### Items placed -/

theorem thrCheck_only (q before : Nat) (s : State) : Only [.eva] [F.EVT_PEND.PEND pQUE] s (thrCheck q before s) :=
  Only.ite (fun _ => raise_only _ _ s) (fun _ => (Only.refl s).mono (by simp) (by simp))

theorem setQueue_only (q : Nat) (x : QueueSt) (s : State) : Only [.queues] [] s (setQueue q x s) := queues_only _ s

theorem placeItem_only (q : Nat) (ws : List Nat) (s : State) : Only [.queues, .eva] [F.EVT_PEND.PEND pQUE] s (placeItem q ws s) :=
  ((setQueue_only _ _ s).trans (thrCheck_only _ _ _)).mono (by simp) (by simp)

@[simp] theorem queue_thrCheck (q before : Nat) (s : State) (k : Nat) : queue (thrCheck q before s) k = queue s k := by
  unfold queue
  rw [(thrCheck_only q before s).1 .queues (by simp)]

@[simp] theorem queue_placeItem_same (q : Nat) (ws : List Nat) (s : State) :
    queue (placeItem q ws s) q = { queue s q with words := (queue s q).words ++ tagItem ws } := by simp [placeItem]

theorem queue_placeItem_other {q k : Nat} (ws : List Nat) (s : State) (other : k ≠ q) : queue (placeItem q ws s) k = queue s k := by
  simp [placeItem, queue_setQueue_other _ _ other]

@[simp] theorem queue_rset (f : Fld) (v : Nat) (s : State) (k : Nat) : queue (rset f v s) k = queue s k := rfl
@[simp] theorem queue_scrNext (h : Nat) (s : State) (k : Nat) : queue (scrNext h s) k = queue s k := rfl
@[simp] theorem queue_keepAll (s t : State) (k : Nat) : queue (keepAll s t) k = queue t k := rfl

/-- Settles O39: each command's own update, and a step. -/
theorem scribeActions : Obligations.ScribeActions := by
  intro a s h w q
  have hh : h < 2 := sideIdx_lt _
  refine ⟨fun at' => ?_, fun at' free => ?_, fun at' frozen => ?_, fun at' holds => ?_, fun at' warm other => ?_, fun at' small => ?_,
    fun at' => runs_halt at', fun at' short open' empty fits => ?_⟩
  case refine_1 =>
    refine runs_scr_at (h := h) (w := w) (f := scrHbeat a) rfl rfl rfl at' ⟨?_, ?_, ?_, ?_, ?_⟩
    · rw [rget_keepAll _ _ (sf_lt _ hh (by decide))]
      simp only [scrHbeat, scrNext, setPc]
      rw [rget_rset_other _ _ (by simp), rget_setHalf, rget_rset_same]
      exact Nat.mod_eq_of_lt (Nat.lt_succ_of_le (Nat.sub_le 1 _))
    · simp [scrHbeat, dclkAt]
    · simp [scrHbeat, dclkAt]
    · rw [StepsOn, scrPc_keepAll _ _ hh]
      simp only [scrHbeat, scrPc_scrNext, scrPc_setHalf]
      rw [scrPc, rget_rset_other _ _ (by simp), scrPc]
    · exact ((((rset_only _ _ s).trans (setHalf_only _ _ _)).trans (scrNext_only _ _)).mono (by simp) (by simp)).keepAll
  case refine_2 =>
    refine runs_scr_at (h := h) (w := w) (f := scrClaim) rfl rfl rfl at' ?_
    rw [show scrClaim h w s = _ from if_neg free]
    refine ⟨?_, by simp, (((rset_only _ _ s).trans (setHalf_only _ _ _)).mono (by simp) (by simp)).keepAll⟩
    rw [rget_keepAll _ _ (sf_lt _ hh (by decide))]
    simp
  case refine_3 => exact runs_tablet (f := scrClaim) rfl at' (if_pos frozen) (by decide)
  case refine_4 =>
    have names : holderHalf (penHolder s) = some h := by
      rw [holds]
      rcases (by omega : h = 0 ∨ h = 1) with e | e <;> rw [e] <;> rfl
    refine runs_scr_at (h := h) (w := w) (f := scrRelease) rfl rfl rfl at' ?_
    rw [show scrRelease h w s = scrNext h (leavePen h 3 s) by
      simp only [scrRelease, if_neg (show penHolder s ≠ 3 by omega), if_pos names]]
    refine ⟨by simp [leavePen], ?_, (((leavePen_only _ _ s).trans (scrNext_only _ _)).mono (by simp) (by simp)).keepAll⟩
    rw [StepsOn, scrPc_keepAll _ _ hh, scrPc_scrNext]
    rfl
  case refine_5 =>
    have names : holderHalf (penHolder s) ≠ some h := by
      unfold holderHalf
      split_ifs with one two
      · simp; omega
      · simp; omega
      · simp
    refine runs_scr_at (h := h) (w := w) (f := scrRelease) rfl rfl rfl at' ?_
    rw [show scrRelease h w s = scrNext h (claimWithdrawn h s) by
      simp only [scrRelease, if_neg warm, if_neg names]
      rfl]
    refine ⟨?_, ?_, ?_, (((claimWithdrawn_only h s).trans (scrNext_only _ _)).mono (by simp) (by simp)).keepAll⟩
    · rw [rget_keepAll _ _ (sf_lt _ hh (by decide)), (scrNext_only _ _).get (by simp), rget_claimWithdrawn]
    · rw [halfState, rget_keepAll _ _ (sf_lt _ hh (by decide)), (scrNext_only _ _).get (by simp)]
      exact halfState_claimWithdrawn hh s
    · rw [StepsOn, scrPc_keepAll _ _ hh, scrPc_scrNext, scrPc, (claimWithdrawn_only h s).get (by simp [halfPage]; omega)]
      rfl
  case refine_6 =>
    refine runs_scr_at (h := h) (w := w) (f := scrEvt) rfl rfl rfl at' ?_
    rw [show scrEvt h w s = scrNext h (raise (halfPage h) (8 + wX w) s) from if_neg (Nat.not_lt.mpr small)]
    refine ⟨?_, ?_, (((raise_only _ _ s).trans (scrNext_only _ _)).mono (by simp) (by simp)).keepAll⟩
    · refine Pends.keepAll (by show 2 + h < 64; omega) ?_
      exact (raise_pends s (by omega)).only (scrNext_only _ _) (by simp [halfPage]; omega)
    · rw [StepsOn, scrPc_keepAll _ _ hh, scrPc_scrNext, scrPc, (raise_only _ _ s).get (by simp [halfPage]; omega)]
      rfl
  case refine_7 =>
    have whole : scrMbxs h w s = scrNext h (placeItem q (mbxItem s h (wAddr w)) (setQueue q { queue s q with pend := [], draining := false } s)) := by
      have len : (mbxItem s h (wAddr w)).length = slice 56 8 (memGet s h (wAddr w)) + 1 := by simp [mbxItem]
      simp only [scrMbxs, if_neg (Nat.not_lt.mpr short), show (queue s (mbxOf h)).draining = false from open', Bool.false_eq_true, if_false,
        show (queue s (mbxOf h)).pend.length = 0 by rw [show (queue s (mbxOf h)).pend = [] from empty]; rfl, List.drop_zero, len,
        show qFits s (mbxOf h) _ = true from fits, if_true]
      rfl
    refine runs_scr_at (h := h) (w := w) (f := scrMbxs) rfl rfl rfl at' ?_
    rw [whole]
    refine ⟨by simp, ?_, ((((setQueue_only _ _ s).trans (placeItem_only _ _ _)).trans (scrNext_only _ _)).mono (by simp) (by simp)).keepAll⟩
    rw [StepsOn, scrPc_keepAll _ _ hh, scrPc_scrNext, scrPc, (placeItem_only _ _ _).get (by simp; omega)]
    rfl

end Sys2Proof.Machine

/-! SUPPORT. The register accesses of a scribe (R353, R354). -/

namespace Sys2Proof.Machine

/-! ### What a read keeps -/

theorem setTag_live (q : Nat) (a b c d e g : Bool) (l : Nat) (s : State) (hq : q < 7) : (setTag q a b c d e g l s).live = s.live := by
  unfold setTag
  iterate 7 rw [rset_live_of_lt _ _ (by simp [strokeBase]; omega)]

theorem raiseD_live (p b : Nat) (d : Option Nat) (s : State) (hp : p < 64) : (raiseD p b d s).live = s.live := by
  have lt : (F.EVT_PEND.PEND p).key < strokeBase := by show (p * 4096 + 0x28) * 8 + 0 < 0x1000000; omega
  unfold raiseD
  split
  · rfl
  · dsimp only
    split <;> exact rset_live_of_lt _ _ lt

theorem popWord_live (q : Nat) (bad : Bool) (s : State) (hq : q < 7) : (popWord q bad s).live = s.live := by
  have count (i n : Nat) (hi : i < 64) (u : State) : (inc ⟨(0x1d0b0 + 0x40 * q) * 8 + i, n⟩ u).live = u.live :=
    rset_live_of_lt _ _ (by simp [strokeBase]; omega)
  unfold popWord
  dsimp only
  split
  · rw [count 48 16 (by decide)]
    exact setTag_live q _ _ _ _ _ _ _ s hq
  · cases bad
    · exact setTag_live q _ _ _ _ _ _ _ s hq
    · rw [whenB_true, raise, raiseD_live _ _ _ _ (by decide), count 32 16 (by decide)]
      exact setTag_live q _ _ _ _ _ _ _ s hq

theorem tsuNowRead_live (cyc : Nat) (s : State) : (tsuNowRead cyc s).live = s.live := by
  unfold tsuNowRead showStrike
  iterate 7 rw [rset_live_of_lt _ _ (by decide)]

/-- A read changes no live value that commits on a stroke. -/
theorem readReg_live (off cyc : Nat) (bad : Bool) (s : State) : (readReg off cyc bad s).2.live = s.live := by
  unfold readReg
  split
  case h_1 q at' => exact popWord_live q bad s (queueAt_lt at')
  case h_2 =>
    split
    · rfl
    · split
      · exact tsuNowRead_live cyc s
      · rfl

/-- The common frame of a state is that of any other with the same kept parts. -/
theorem keepAll_congr {ps : List Part} {rs : List Fld} {s t : State} (o : Only ps rs s t) (live : t.live = s.live)
    (apart : ∀ p ∈ ps, p ∉ [Part.pending, .boot, .nibs, .time, .filt, .duc, .ink, .trim]) (u : State) : keepAll t u = keepAll s u := by
  have kept (p : Part) (h : p ∈ [Part.pending, .boot, .nibs, .time, .filt, .duc, .ink, .trim]) : p.same s t := o.1 p (fun m => apart p m h)
  have pending := kept .pending (by simp)
  have boot := kept .boot (by simp)
  have nibs := kept .nibs (by simp)
  have time := kept .time (by simp)
  have filt := kept .filt (by simp)
  have duc := kept .duc (by simp)
  have ink := kept .ink (by simp)
  have trim := kept .trim (by simp)
  simp only [Part.same] at pending boot nibs time filt duc ink trim
  simp [keepAll, keepLive, keepTables, keepTime, keepWear, keepPower, live, pending, boot, nibs, time, filt, duc, ink, trim]

theorem keepAll_readReg (off cyc : Nat) (bad : Bool) (s u : State) : keepAll (readReg off cyc bad s).2 u = keepAll s u :=
  keepAll_congr (readReg_only off cyc bad s) (readReg_live off cyc bad s) (by decide) u

/-- A write of a field outside the live table may be made before or after the common frame is restored. -/
theorem keepAll_rset {f : Fld} (lt : f.key < strokeBase) (v : Nat) (s t : State) : keepAll s (rset f v t) = rset f v (keepAll s t) := by
  simp [keepAll, keepLive, keepTables, keepTime, keepWear, keepPower, rset, Nat.not_le.mpr lt]

theorem keepAll_scrNext {h : Nat} (hh : h < 2) (s t : State) : keepAll s (scrNext h t) = scrNext h (keepAll s t) := by
  rw [scrNext, scrNext, setPc, setPc, scrPc_keepAll s t hh, keepAll_rset (pc_lt hh)]

theorem keepAll_tbSet (h i v : Nat) (s t : State) : keepAll s (tbSet h i v t) = tbSet h i v (keepAll s t) := rfl

theorem half_readReg (off cyc : Nat) (bad : Bool) (s : State) (h : Nat) : half (readReg off cyc bad s).2 h = half s h := by
  unfold half
  rw [(readReg_only off cyc bad s).1 .halves (by simp)]

/-- No read touches a scribe's PC. -/
theorem pc_notMem_readFields : ∀ h < 2, (sf h F.SCRR_STATE.PC).key ∉ readFields.map (·.key) := by decide

/-! ### The reads of POLL -/

/-- The further reads of a POLL write at most what a read does. -/
theorem pollReads_only (a : ScrAt) (h w : Nat) : ∀ (n last : Nat) (s : State), Only [.queues, .eva] readFields s (pollReads a h w n last s).2
  | 0, _, s => (Only.refl s).mono (by simp) (by simp)
  | n + 1, last, s => by
    have first := readReg_only (wOff w) a.cyc a.blot s
    simp only [pollReads]
    split
    · exact first
    · exact first.seq (pollReads_only a h w n _ _)

/-! ### RD, POLL and POLL_DONE -/

/-- What a scribe command leaves that puts `v` into tablet `i` after reads that led to `x`, and goes on. -/
theorem tbSet_after {h i v : Nat} {s x : State} (hh : h < 2) (o : Only [.queues, .eva] readFields s x) :
    let t := keepAll s (scrNext h (tbSet h i v x))
    tbGet t h i = v % 2 ^ 64 ∧ (∀ j, j ≠ i → tbGet t h j = tbGet s h j) ∧ { half t h with tb := (half s h).tb } = half s h ∧ StepsOn h s t
      ∧ Only [.halves, .queues, .eva] (sf h F.SCRR_STATE.PC :: readFields) s t := by
  have sameHalf : half x h = half s h := by unfold half; rw [o.1 .halves (by simp)]
  obtain ⟨same, others, rest, -, steps, only⟩ := TabletOnly.of_tbSet h i v x
  refine ⟨same, fun j other => ?_, ?_, ?_, ?_⟩
  · exact (others j other).trans (by simp only [tbGet, sameHalf])
  · rw [half_keepAll, ← sameHalf]
    exact rest
  · rw [StepsOn, scrPc_keepAll _ _ hh, steps, scrPc, o.get (pc_notMem_readFields h hh)]
    rfl
  · exact ((o.trans only).mono (by simp) (by simp)).keepAll

theorem writeReg_mono {r : Req} {off v : Nat} {s : State} (notBar0 : r.who ≠ .bar0) : wideWrite r off v s = writeReg r off v s := by
  rw [wideWrite, accessBegins, if_neg notBar0]

theorem halfReq_ne_bar0 (h : Nat) : halfReq h ≠ .bar0 := by
  unfold halfReq
  split <;> decide

/-- A register write of a half with PORST_N high is `writeReg` within the common frame. -/
theorem runs_halfWrite {h cyc off v : Nat} {s : State} {P : State → Prop} (u : Up s) (p : P (keepAll s (writeReg ⟨halfReq h, cyc⟩ off v s))) :
    Runs (.registerWrite ⟨halfReq h, cyc⟩ off v) s P := by
  have e : exec (.registerWrite ⟨halfReq h, cyc⟩ off v) s = act true (wideWrite ⟨halfReq h, cyc⟩ off v) s := rfl
  refine runs_act e u rfl ?_
  rw [writeReg_mono (halfReq_ne_bar0 h)]
  exact p

/-- Settles O37: the reads by `readReg_only`, the writes by the commutation of the common frame with the scribe's own update. -/
theorem scribeRegisterAccess : Obligations.ScribeRegisterAccess := by
  intro a s h w x hit
  have hh : h < 2 := sideIdx_lt _
  have read : Only [.queues, .eva] readFields s x.2 := readReg_only _ _ _ s
  refine ⟨fun at' even => ?_, fun at' even found => ?_, fun at' even missed => ?_, fun last n u waits => ?_, fun at' even => ?_, fun at' even => ?_,
    fun at' even => ?_⟩
  case refine_1 =>
    refine runs_scr_at (h := h) (w := w) (f := scrRd a) rfl rfl rfl at' ?_
    rw [show scrRd a h w s = scrNext h (tbSet h (wA w) x.1 x.2) from scrReg_even even]
    exact tbSet_after hh read
  case refine_2 =>
    have poll : scrPoll a h w s = scrNext h (tbSet h (wC w) x.1 x.2) := by
      refine (scrReg_even even).trans (if_pos ?_)
      simpa [pollMatch] using found
    refine runs_scr_at (h := h) (w := w) (f := scrPoll a) rfl rfl rfl at' ?_
    rw [poll]
    obtain ⟨same, -, rest, steps, only⟩ := tbSet_after (i := wC w) (v := x.1) hh read
    refine ⟨same, ?_, steps, only⟩
    obtain ⟨-, -, ready, -⟩ := at'
    simp only [scrReady, Bool.and_eq_true, beq_iff_eq] at ready
    have idle : (half s h).wait = .none := ready.2
    rw [← idle, ← rest]
  case refine_3 =>
    have poll : scrPoll a h w s = setHalf h (fun y => { y with wait := .poll x.1 }) x.2 := by
      refine (scrReg_even even).trans (if_neg ?_)
      simpa [pollMatch] using missed
    refine runs_scr_at (h := h) (w := w) (f := scrPoll a) rfl rfl rfl at' ?_
    rw [poll]
    refine ⟨?_, ((read.trans (setHalf_only _ _ _)).mono (by simp) (by simp)).keepAll⟩
    rw [half_keepAll, half_setHalf_same, half_readReg]
  case refine_4 =>
    set y := pollReads a h w n last s with yEq
    have reads : Only [.queues, .eva] readFields s y.2 := pollReads_only a h w n last s
    refine runs_act (f := pollDone n a) rfl u rfl ?_
    rw [show pollDone n a s = scrGo h (tbSet h (wC w) y.1 y.2) by
      have waits' : (half s (sideIdx a.side)).wait = .poll last := waits
      simp only [pollDone, waits']
      rfl]
    have stepped := (tbSet_only h (wC w) y.1 y.2).trans (scrGo_only h _)
    refine ⟨by simp [tbGet, tbSet], by simp, ?_, ((reads.trans stepped).mono (by simp) (by simp)).keepAll⟩
    rw [StepsOn, scrPc_keepAll _ _ hh, scrPc_scrGo, scrPc, (reads.trans (tbSet_only h (wC w) y.1 y.2)).get (by
      simpa using pc_notMem_readFields h hh)]
    rfl
  case refine_5 =>
    refine runs_halfWrite at'.1 (runs_scr_at (h := h) (w := w) (f := scrWr a) rfl rfl rfl at' ?_)
    rw [show scrWr a h w s = _ from scrReg_even even, keepAll_scrNext hh]
  case refine_6 =>
    refine runs_halfWrite at'.1 (runs_scr_at (h := h) (w := w) (f := scrWri a) rfl rfl rfl at' ?_)
    rw [show scrWri a h w s = _ from scrReg_even even, keepAll_scrNext hh]
  case refine_7 =>
    have up : Up x.2 := by
      have same := read.1 .boot (by simp)
      simp only [Part.same] at same
      rw [Up, same]
      exact at'.1
    refine runs_halfWrite up (runs_scr_at (h := h) (w := w) (f := scrRmw a) rfl rfl rfl at' ?_)
    rw [show scrRmw a h w s = _ from scrReg_even even, keepAll_scrNext hh, keepAll_tbSet, keepAll_readReg]

end Sys2Proof.Machine

/-! SUPPORT. The pen's losses and votes (R346, R348), the slots' starts (R351, R352), the resets of a half and its mailbox (R356, R357). -/

namespace Sys2Proof.Machine

/-! ### The pen's updates -/

theorem setPen_only (f : Pen → Pen) (s : State) : Only [.pen] [] s (setPen f s) := pen_only _ s
theorem setCommitSet_only (k : Nat) (x : CommitSet) (s : State) : Only [.sets] [] s (setCommitSet k x s) := sets_only _ s
theorem disarmSet_only (k : Nat) (s : State) : Only [.sets] [] s (disarmSet k s) := setCommitSet_only _ _ s

theorem useAgreed_only (x : PenCopy) (s : State) :
    Only [.eva] [F.EVT_PEND.PEND pPEN, F.PEN_STATE.HOLDER, F.PEN_STATE.EPOCH, F.PEN_STATE.GEN] s (useAgreed x s) :=
  ((((Only.whenB (raise_only pPEN 0 s)).trans (rset_only _ _ _)).trans (rset_only _ _ _)).trans (rset_only _ _ _)).mono (by simp) (by simp)

theorem penHolder_useAgreed {x : PenCopy} (lt : x.holder < 4) (s : State) : penHolder (useAgreed x s) = x.holder := by
  simp only [penHolder, useAgreed]
  rw [rget_rset_other _ _ (by decide), rget_rset_other _ _ (by decide), rget_rset_same]
  exact Nat.mod_eq_of_lt lt

theorem fixCopy_only (f : Fld) (x : PenCopy) (s : State) : Only [.pen, .eva] [f, F.EVT_PEND.PEND pPEN] s (fixCopy f x s) :=
  (((setPen_only _ s).trans (inc_only _ _)).trans (raise_only _ _ _)).mono (by simp) (by simp)

theorem penLast_only (cause from' who : Nat) (s : State) :
    Only [] [F.PEN_LAST.CAUSE, F.PEN_LAST.FROM, F.PEN_LAST.TO, F.PEN_LAST.STROKE_LO] s (penLast cause from' who s) :=
  ((((rset_only _ _ s).trans (rset_only _ _ _)).trans (rset_only _ _ _)).trans (rset_only _ _ _)).mono (by simp) (by simp)

/-- The fields that a change of either half's state writes. -/
def stateFields : List Fld :=
  [sf 0 F.SCRR_STATE.STATE, sf 1 F.SCRR_STATE.STATE, F.EVT_PEND.PEND pSCRR, F.EVT_PEND.PEND pSCRV, F.MON_WEAR.HALVES_OK, F.EVT_PEND.PEND pMON]

theorem setHalfState_within {h : Nat} (hh : h < 2) (v : Nat) (s : State) : Only [.eva] stateFields s (setHalfState h v s) := by
  refine (setHalfState_only h v s).mono (by simp) ?_
  rcases (by omega : h = 0 ∨ h = 1) with rfl | rfl <;> simp [stateFields, halfPage]

theorem holderHalf_lt {v h : Nat} (k : holderHalf v = some h) : h < 2 := by
  unfold holderHalf at k
  split_ifs at k <;> simp at k <;> omega

theorem penLeft_only (old : Nat) (s : State) : Only [.eva] stateFields s (penLeft old s) := by
  unfold penLeft
  split
  case h_1 => exact (Only.refl s).mono (by simp) (by simp)
  case h_2 h names =>
    split
    · exact setHalfState_within (holderHalf_lt names) 2 s
    · exact (Only.refl s).mono (by simp) (by simp)

/-- What a freeze does once HOLDER reads 3 and the freeze is raised. -/
def freezeRest (old : Nat) (s : State) : State :=
  s |> penLast 8 old 3 |> wear F.MON_WEAR.PEN_OK 0 |> setPen (fun p => { p with withdraw := false })
    |> forAll (List.range 8) (fun k s => if (commitSet s k).isSealed then s else disarmSet k s) |> penLeft old

theorem penFreeze_eq (s : State) : penFreeze s =
    freezeRest (penHolder s) (s |> rset F.PEN_STATE.HOLDER 3 |> rset F.PEN_STATE.FROZEN 1 |> inc F.PEN_VOTE.FREEZES |> raise pPEN 5) := rfl

theorem unsealedDisarmed_only (s : State) :
    Only [.sets] [] s (forAll (List.range 8) (fun k s => if (commitSet s k).isSealed then s else disarmSet k s) s) :=
  Only.forAll _ (fun k _ s => Only.ite (fun _ => (Only.refl s).mono (by simp) (by simp)) (fun _ => disarmSet_only k s)) s

theorem freezeRest_only (old : Nat) (s : State) : Only [.pen, .sets, .eva]
    ([F.PEN_LAST.CAUSE, F.PEN_LAST.FROM, F.PEN_LAST.TO, F.PEN_LAST.STROKE_LO, F.MON_WEAR.PEN_OK, F.EVT_PEND.PEND pMON] ++ stateFields) s (freezeRest old s) :=
  (((((penLast_only 8 old 3 s).trans (wear_only _ _ _)).trans (setPen_only _ _)).trans (unsealedDisarmed_only _)).trans (penLeft_only _ _)).mono
    (by simp) (by simp)

theorem copies_freezeRest (old : Nat) (s : State) : (freezeRest old s).pen.copies = s.pen.copies := by
  have before := ((penLast_only 8 old 3 s).trans (wear_only F.MON_WEAR.PEN_OK 0 _)).1 .pen (by simp)
  have after := ((unsealedDisarmed_only (setPen (fun p => { p with withdraw := false }) (wear F.MON_WEAR.PEN_OK 0 (penLast 8 old 3 s)))).trans
    (penLeft_only old _)).1 .pen (by simp)
  simp only [Part.same] at before after
  rw [freezeRest, after, setPen_pen, before]

/-- Settles O41: the loss is counted, the agreeing copies' value is taken, and three that differ freeze the pen. -/
theorem penLossAndVote : Obligations.PenLossAndVote := by
  intro s cyc h a b c u hh
  refine ⟨fun holds here late => ?_, fun warm same differs small => ?_, fun warm ab bc ac => ?_⟩
  case refine_1 =>
    have names : holderHalf (penHolder s) = some h := by
      rw [holds]
      rcases (by omega : h = 0 ∨ h = 1) with rfl | rfl <;> rfl
    have acts : heartbeatTimeout (s.strikeDclk + cyc) s
        = raise pPEN 3 (inc F.PEN_COUNT.HB_LOSSES (setPen (fun p => { p with withdraw := true }) s)) := by
      simp only [heartbeatTimeout, names, here, Bool.false_or, decide_eq_true_eq, if_neg (Nat.not_lt.mpr late)]
    refine runs_act (f := fun s => heartbeatTimeout (s.strikeDclk + cyc) s) rfl u rfl ?_
    dsimp only
    rw [acts]
    refine ⟨?_, ?_, Pends.keepAll (by decide) (raise_pends _ (by decide)), ?_⟩
    · show (raise pPEN 3 _).pen.withdraw = true
      rw [(raise_only _ _ _).1 .pen (by simp)]
      rfl
    · rw [rget_keepAll _ _ (by decide), (raise_only _ _ _).get (by decide), rget_inc_same]
      rfl
    · exact ((((setPen_only _ s).trans (inc_only _ _)).trans (raise_only _ _ _)).mono (by simp) (by simp)).keepAll
  case refine_2 =>
    subst same
    have acts : penCompare a a c s = fixCopy F.PEN_VOTE.FIX_C a (useAgreed a (setPen (fun p => { p with copies := [a, a, c] }) s)) := by
      simp only [penCompare, if_neg warm, true_and, if_neg differs, if_true]
    refine runs_act (f := penCompare a a c) rfl u rfl ?_
    rw [acts]
    set agreed := useAgreed a (setPen (fun p => { p with copies := [a, a, c] }) s) with agreedEq
    have fixed : Only [.pen, .eva] _ agreed (fixCopy F.PEN_VOTE.FIX_C a agreed) := fixCopy_only _ _ _
    refine ⟨?_, ?_, Pends.keepAll (by decide) (raise_pends _ (by decide)), ?_⟩
    · show (raise pPEN 4 _).pen.copies = _
      rw [(raise_only _ _ _).1 .pen (by simp)]
      rfl
    · rw [penHolder, rget_keepAll _ _ (by decide), fixed.get (by decide)]
      exact penHolder_useAgreed small _
    · rw [rget_keepAll _ _ (by decide), fixCopy, (raise_only _ _ _).get (by decide), rget_inc_same, rget_setPen, (useAgreed_only _ _).get (by decide),
        rget_setPen]
  case refine_3 =>
    have acts : penCompare a b c s = penFreeze (setPen (fun p => { p with copies := [a, b, c] }) s) := by
      simp only [penCompare, if_neg warm, ab, bc, ac, false_and, if_false]
    refine runs_act (f := penCompare a b c) rfl u rfl ?_
    rw [acts, penFreeze_eq]
    set marked := setPen (fun p => { p with copies := [a, b, c] }) s with markedEq
    have rest := freezeRest_only (penHolder marked) (marked |> rset F.PEN_STATE.HOLDER 3 |> rset F.PEN_STATE.FROZEN 1 |> inc F.PEN_VOTE.FREEZES |> raise pPEN 5)
    refine ⟨?_, ?_, Pends.keepAll (by decide) ((raise_pends _ (by decide)).only rest (by decide)), ?_⟩
    · rw [penHolder, rget_keepAll _ _ (by decide), rest.get (by decide), (raise_only _ _ _).get (by decide), (inc_only _ _).get (by decide),
        rget_rset_other _ _ (by decide), rget_rset_same]
      rfl
    · rw [rget_keepAll _ _ (by decide), rest.get (by decide), (raise_only _ _ _).get (by decide), (inc_only _ _).get (by decide), rget_rset_same]
      rfl
    · show (freezeRest _ _).pen.copies = _
      rw [copies_freezeRest, (raise_only _ _ _).1 .pen (by simp)]
      rfl

/-! ### Bits cleared -/

/-- The lowest bit of a conjunction. -/
theorem and_mod_two_eq_ite (v m : Nat) : (v &&& m) % 2 = if v % 2 = 1 ∧ m % 2 = 1 then 1 else 0 := by
  have low := Nat.and_mod_two_pow (a := v) (b := m) (n := 1)
  rw [Nat.pow_one] at low
  rw [low]
  rcases Nat.mod_two_eq_zero_or_one v with a | a <;> rcases Nat.mod_two_eq_zero_or_one m with b | b <;> rw [a, b] <;> rfl

theorem testBit_sub_and (v m i : Nat) : (v - (v &&& m)).testBit i = (v.testBit i && !m.testBit i) := by
  induction i generalizing v m with
  | zero =>
    have low := and_mod_two_eq_ite v m
    have le : v &&& m ≤ v := Nat.and_le_left
    have sub : (v - (v &&& m)) % 2 = if v % 2 = 1 ∧ m % 2 = 0 then 1 else 0 := by split_ifs at low ⊢ <;> omega
    simp only [Nat.testBit_zero, sub]
    rcases Nat.mod_two_eq_zero_or_one v with a | a <;> rcases Nat.mod_two_eq_zero_or_one m with b | b <;> simp [a, b]
  | succ i ih =>
    have half : (v - (v &&& m)) / 2 = v / 2 - (v / 2 &&& m / 2) := by
      have low := and_mod_two_eq_ite v m
      have le : v &&& m ≤ v := Nat.and_le_left
      rw [← Nat.and_div_two]
      split_ifs at low <;> omega
    rw [Nat.testBit_succ, half, ih, Nat.testBit_succ, Nat.testBit_succ]

theorem bitSet_clrBits (v m i : Nat) : bitSet (clrBits v m) i = (bitSet v i && !bitSet m i) := by
  simp only [bitSet_eq_testBit, clrBits, testBit_sub_and]

theorem clrBit_eq (v i : Nat) : clrBit v i = clrBits v (2 ^ i) := by
  unfold clrBit clrBits
  rw [Nat.and_two_pow, bitSet_eq_testBit, Nat.one_shiftLeft]
  cases v.testBit i <;> simp

theorem bitSet_clrBit (v i j : Nat) : bitSet (clrBit v i) j = (bitSet v j && decide (i ≠ j)) := by
  rw [clrBit_eq, bitSet_clrBits, bitSet_eq_testBit (2 ^ i), Nat.testBit_two_pow]
  simp

/-! ### Slots -/

theorem mem_indicesWhere {n k : Nat} {p : Nat → Bool} : k ∈ indicesWhere n p ↔ k < n ∧ p k = true := by simp [indicesWhere]

theorem bitSet_clrBit_same (v i : Nat) : bitSet (clrBit v i) i = false := by simp [bitSet_clrBit]

/-- Settles O43: `slotStart` takes the first of its list of triggers, and the timer triggers slot 2. -/
theorem slotsStart : Obligations.SlotsStart := by
  intro s x k u h pend
  have hh : h < 2 := sideIdx_lt _
  refine ⟨fun running idle first => ?_, fun period running enabled => ?_⟩
  case refine_1 =>
    have small : k < 16 := by
      rcases first with ⟨rfl, -⟩ | ⟨-, head⟩
      · decide
      · exact (mem_indicesWhere.mp (List.mem_of_mem_head? head)).1
    obtain ⟨later, list⟩ : ∃ later, (if bitSet pend 1 then [1] else indicesWhere 16 (bitSet pend)) = k :: later := by
      rcases first with ⟨rfl, one⟩ | ⟨notOne, head⟩
      · exact ⟨[], by rw [if_pos one]⟩
      · rw [if_neg (by simp [notOne])]
        exact ⟨_, (List.eq_cons_of_mem_head? head)⟩
    set v := s |> clrBitOf (sf h F.SCRR_SLOTS.PEND) k |> setHalf h (fun y => { y with run := some k, wait := .none, stack := [] })
      |> rset (sf h F.SCRR_STATE.SLOT) k |> rset (sf h F.SCRR_STATE.IDLE) 0 |> inc (sf h F.SCRR_COUNT.SLOTS_RUN) with vEq
    have acts : slotStart h false s = setPc h (memGet v h k) v := by
      unfold slotStart
      simp only [running, idle, Bool.not_true, Option.isSome_none, Bool.or_self, Bool.false_eq_true, if_false]
      rw [show (if bitSet (rget s (sf h F.SCRR_SLOTS.PEND)) 1 then [1] else indicesWhere 16 (bitSet (rget s (sf h F.SCRR_SLOTS.PEND)))) = k :: later
        from list]
    have toV : Only [.halves] [sf h F.SCRR_SLOTS.PEND, sf h F.SCRR_STATE.SLOT, sf h F.SCRR_STATE.IDLE, sf h F.SCRR_COUNT.SLOTS_RUN] s v :=
      (((((clrBitOf_only _ _ s).trans (setHalf_only _ _ _)).trans (rset_only _ _ _)).trans (rset_only _ _ _)).trans (inc_only _ _)).mono
        (by simp) (by simp)
    refine runs_act (f := slotStart h false) rfl u rfl ?_
    rw [acts]
    refine ⟨?_, ?_, ?_, ?_, ?_, ((toV.trans (setPc_only _ _ _)).mono (by simp) (by simp)).keepAll⟩
    · simp [vEq]
    · rw [rget_keepAll _ _ (sf_lt _ hh (by decide)), (setPc_only _ _ _).get (by simp), vEq, (inc_only _ _).get (by simp),
        rget_rset_other _ _ (by simp), rget_rset_same]
      exact Nat.mod_eq_of_lt small
    · rw [rget_keepAll _ _ (sf_lt _ hh (by decide)), (setPc_only _ _ _).get (by simp), vEq, (inc_only _ _).get (by simp), rget_rset_same]
      rfl
    · rw [rget_keepAll _ _ (sf_lt _ hh (by decide)), (setPc_only _ _ _).get (by simp), vEq, (inc_only _ _).get (by simp),
        rget_rset_other _ _ (by simp), rget_rset_other _ _ (by simp), rget_setHalf, clrBitOf, rget_rset_same, bitSet_mod _ _ _ small,
        bitSet_clrBit_same]
    · rw [scrPc_keepAll _ _ hh, scrPc_setPc]
      congr 1
      simp only [memGet, vEq, half_inc, half_rset, half_setHalf_same]
      rfl
  case refine_2 =>
    have acts : scribeTimer h s = setBitOf (sf h F.SCRR_SLOTS.PEND) 2 s := by
      simp only [scribeTimer, if_neg period, triggerSlot, running, enabled, Bool.and_self, if_true]
    refine runs_act (f := scribeTimer h) rfl u rfl ?_
    rw [acts]
    refine ⟨?_, (setBitOf_only _ _ s).keepAll⟩
    rw [rget_keepAll _ _ (sf_lt _ hh (by decide)), setBitOf, rget_rset_same, bitSet_mod _ _ _ (show 2 < 16 by decide), bitSet_setBit]
    simp

end Sys2Proof.Machine

/-! SUPPORT. The resets of a half and its mailbox window (R356, R357). -/

namespace Sys2Proof.Machine

/-! ### What a reset of a half leaves -/

theorem wear_pends {p b : Nat} {f : Fld} {v : Nat} {s : State} (hp : Pends p b s) (hb : b < 17) (apart : (F.EVT_PEND.PEND p).key ≠ f.key) :
    Pends p b (wear f v s) := by
  unfold wear
  split
  · exact hp
  · exact pend_kept none (hp.only (rset_only f v s) (by simpa using apart)) hb

theorem setHalfState_pends {h p b v : Nat} {s : State} (hp : Pends p b s) (hb : b < 17)
    (apart : (F.EVT_PEND.PEND p).key ∉ [(sf h F.SCRR_STATE.STATE).key, F.MON_WEAR.HALVES_OK.key]) : Pends p b (setHalfState h v s) := by
  simp only [List.mem_cons, List.not_mem_nil, or_false, not_or] at apart
  unfold setHalfState
  split
  · exact hp
  · refine wear_pends (pend_kept none (hp.only (rset_only _ v s) ?_) hb) hb apart.2
    simpa using apart.1

theorem mbxDiscard_only (h : Nat) (s : State) : Only [.queues] [F.QUE_q_COUNT2.DRAINED (mbxOf h)] s (mbxDiscard h s) := by
  unfold mbxDiscard
  dsimp only
  split
  · exact (Only.refl s).mono (by simp) (by simp)
  · exact ((setQueue_only _ _ s).trans (inc_only _ _)).mono (by simp) (by simp)

@[simp] theorem half_mbxDiscard (h k : Nat) (s : State) : half (mbxDiscard h s) k = half s k := by
  unfold half
  rw [(mbxDiscard_only h s).1 .halves (by simp)]

/-- The half's own part of a reset, before its state and its registers change. -/
def halfCleared (h : Nat) (newSeal : Bool) (s : State) : State :=
  s |> slotsStopped h |> mbxDiscard h |> mbinClear h
    |> setHalf h (fun x => { x with newSeal, cold := false, fails := if newSeal then 0 else x.fails })

theorem halfReset_eq (h : Nat) (newSeal : Bool) (s : State) : halfReset h newSeal s =
    (s |> halfCleared h newSeal |> setHalfState h 1 |> rset (sf h F.SCRR_BOOT.STATUS) 0x0100 |> inc (sf h F.SCRR_COUNT.BOOTS) |> inc F.SYS_COUNT.BOOTS) := rfl

theorem halfCleared_only (h : Nat) (newSeal : Bool) (s : State) : Only [.halves, .queues]
    [sf h F.SCRR_STATE.SLOT, sf h F.SCRR_STATE.IDLE, sf h F.SCRR_SLOTS.PEND, F.QUE_q_COUNT2.DRAINED (mbxOf h), sf h F.SCRR_MBIN_CTRL.COUNT,
      sf h F.SCRR_MBIN_CTRL.BUSY] s (halfCleared h newSeal s) :=
  ((((slotsStopped_only h s).trans (mbxDiscard_only h _)).trans (mbinClear_only h _)).trans (setHalf_only _ _ _)).mono (by simp) (by simp)

theorem half_halfCleared (h : Nat) (newSeal : Bool) (s : State) :
    half (halfCleared h newSeal s) h = { half s h with
      run := none, wait := .none, stack := [], drop := some 5, inbox := [], newSeal := newSeal, cold := false
      fails := if newSeal then 0 else (half s h).fails } := by
  simp only [halfCleared, half_setHalf_same, half_mbinClear, half_mbxDiscard, half_slotsStopped]

/-- The last writes of a reset: the boot's status and its two counters. -/
theorem bootCounted_only (h : Nat) (s : State) : Only [] [sf h F.SCRR_BOOT.STATUS, sf h F.SCRR_COUNT.BOOTS, F.SYS_COUNT.BOOTS] s
    (s |> rset (sf h F.SCRR_BOOT.STATUS) 0x0100 |> inc (sf h F.SCRR_COUNT.BOOTS) |> inc F.SYS_COUNT.BOOTS) :=
  (((rset_only _ _ s).trans (inc_only _ _)).trans (inc_only _ _)).mono (by simp) (by simp)

/-- A half that a reset has put into BOOT. -/
def Booted (h : Nat) (t : State) : Prop := halfState t h = 1 ∧ (half t h).run = none ∧ (half t h).inbox = [] ∧ (half t h).drop = some 5
  ∧ rget t (sf h F.SCRR_BOOT.STATUS) = 0x0100

theorem booted_halfReset {h : Nat} (hh : h < 2) (newSeal : Bool) (s : State) : Booted h (halfReset h newSeal s) := by
  rw [halfReset_eq]
  have last := bootCounted_only h (setHalfState h 1 (halfCleared h newSeal s))
  have halfEq : half (s |> halfCleared h newSeal |> setHalfState h 1 |> rset (sf h F.SCRR_BOOT.STATUS) 0x0100 |> inc (sf h F.SCRR_COUNT.BOOTS)
      |> inc F.SYS_COUNT.BOOTS) h = half (halfCleared h newSeal s) h := by
    simp
  refine ⟨?_, by rw [halfEq, half_halfCleared], by rw [halfEq, half_halfCleared], by rw [halfEq, half_halfCleared], ?_⟩
  · rw [halfState, last.get (by simp; omega)]
    exact halfState_setHalfState hh (by decide) _
  · rw [(inc_only _ _).get (by simp; omega), (inc_only _ _).get (by simp), rget_rset_same]
    rfl

theorem Booted.keepAll {h : Nat} (hh : h < 2) {s t : State} (b : Booted h t) : Booted h (Machine.keepAll s t) := by
  obtain ⟨state, run, inbox, drop, status⟩ := b
  refine ⟨?_, by rw [half_keepAll, run], by rw [half_keepAll, inbox], by rw [half_keepAll, drop], ?_⟩
  · rw [halfState, rget_keepAll _ _ (sf_lt _ hh (by decide))]
    exact state
  · rw [rget_keepAll _ _ (sf_lt _ hh (by decide)), status]

/-! ### Writes of a half's registers -/

theorem pageEffect_half {h : Nat} (hh : h < 2) {f : Fld} (inPage : f.key / 32768 = pSCRR) (r : Req) (v : Nat) (before s : State) :
    pageEffect r (regOff (sf h f)) v before s = scribeEffect r h (slotAt (regOff (sf h f))) v before s := by
  have page : pageAt (regOff (sf h f)) = pSCRR + h := by
    rcases (by omega : h = 0 ∨ h = 1) with rfl | rfl <;> simp only [pageAt, regOff, strokeBase, pSCRR] at inPage ⊢ <;> omega
  unfold pageEffect
  rw [page]
  rcases (by omega : h = 0 ∨ h = 1) with rfl | rfl <;> rfl

theorem half_of_stored {off : Nat} {s u : State} (st : Stored off s u) (h : Nat) : half u h = half s h := by
  unfold half
  rw [st.2.2 .halves (by simp) (by simp)]

theorem Stored.get {off : Nat} {s u : State} (st : Stored off s u) {f : Fld} (other : f.key ∉ (rowFields off).map (·.key))
    (notCount : f.key % 32768 ≠ 243) : rget u f = rget s f := st.2.1 f notCount other

/-- A command that writes a plain register of a half does what the half's page does with the word. -/
theorem runs_halfReg {c : Instr} {s : State} {P : State → Prop} {r : Req} {h v o : Nat} {f : Fld} (hh : h < 2) (inPage : f.key / 32768 = pSCRR)
    (slot : slotAt (regOff f) = o) (plain : ∀ h < 2, plainReg (regOff (sf h f)) = true)
    (e : exec c s = act true (wideWrite r (regOff (sf h f)) v) s) (served : Served r.who (regOff (sf h f)) s)
    (p : ∀ u, Stored (regOff (sf h f)) s u → P (keepAll s (scribeEffect r h o (v % 2 ^ 64) (accessBegins r.who s) u))) : Runs c s P := by
  refine runs_plain e rfl served (plain h hh) fun u st => ?_
  have sameSlot : slotAt (regOff (sf h f)) = o := by
    rw [← slot]
    rcases (by omega : h = 0 ∨ h = 1) with rfl | rfl <;> simp only [slotAt, regOff, strokeBase, pSCRR] at inPage ⊢ <;> omega
  rw [pageEffect_half hh inPage, sameSlot]
  exact p u st

/-- A write with one bit of a register made 1 has that bit. -/
theorem bitSet_wordWith_one {f : Fld} {k : Nat} (v : Nat) (one : f.width = 1) (place : f.key % 64 = k) :
    bitSet (wordWith f 1 v % 2 ^ 64) k = true := by
  have bit := slice_wordWith (f := f) 1 v (by omega)
  rw [one, place, slice_eq] at bit
  rw [bitSet_mod _ _ _ (by omega), bitSet_iff]
  simpa using bit

/-- The bits outside the field are those of the word written. -/
theorem bitSet_wordWith_other {f : Fld} {k : Nat} (x v : Nat) (fits : f.key % 64 + f.width ≤ 64) (small : k < 64)
    (apart : k < f.key % 64 ∨ f.key % 64 + f.width ≤ k) : bitSet (wordWith f x v % 2 ^ 64) k = bitSet v k := by
  rw [bitSet_mod _ _ _ small]
  simp only [bitSet, bit]
  rcases apart with below | above
  · rw [slice_wordWith_low x v k 1 fits below]
  · rw [slice_wordWith_high x v k 1 fits above (by omega)]

/-- The watchdog's period that ends resets the half. -/
theorem watchdogExpiry_late {s : State} {h now : Nat} (enabled : on s (sf h F.SCRR_CTRL.WD_EN) = true) (running : halfRuns s h = true)
    (late : rget s (sf h F.SCRR_WD.WD_MS) * 512000 ≤ now - (half s h).wdFrom) :
    watchdogExpiry h now s = halfReset h false (raise (halfPage h) 2 (inc (sf h F.SCRR_COUNT.WD_EXP) s)) := by
  simp only [watchdogExpiry, enabled, running, late, decide_true, Bool.and_self, if_true]

theorem halfReset_pends {h b : Nat} (newSeal : Bool) {s : State} (hp : Pends (halfPage h) b s) (hb : b < 17) :
    Pends (halfPage h) b (halfReset h newSeal s) := by
  rw [halfReset_eq]
  have cleared : Pends (halfPage h) b (halfCleared h newSeal s) := hp.only (halfCleared_only h newSeal s) (by simp [halfPage]; omega)
  have state : Pends (halfPage h) b (setHalfState h 1 (halfCleared h newSeal s)) := setHalfState_pends cleared hb (by simp [halfPage]; omega)
  exact state.only (bootCounted_only h _) (by simp [halfPage]; omega)

theorem rget_halfReset_wdExp {h : Nat} (hh : h < 2) (newSeal : Bool) (s : State) :
    rget (halfReset h newSeal s) (sf h F.SCRR_COUNT.WD_EXP) = rget s (sf h F.SCRR_COUNT.WD_EXP) := by
  rw [halfReset_eq, (bootCounted_only h _).get (by simp; omega), (setHalfState_only h _ _).get (by simp [halfPage]; omega),
    (halfCleared_only h _ _).get (by simp [mbxOf]; omega)]

theorem triggerSlot_only (h k : Nat) (s : State) : Only [] [sf h F.SCRR_SLOTS.PEND] s (triggerSlot h k s) :=
  Only.ite (fun _ => setBitOf_only _ _ s) (fun _ => (Only.refl s).mono (by simp) (by simp))

/-- Settles O44: a reset leaves the half booted, whatever began it; the mailbox's commands act on its words and BUSY. -/
theorem halfResetAndMailbox : Obligations.HalfResetAndMailbox := by
  intro s r x v cyc h booted
  have hh : h < 2 := sideIdx_lt _
  refine ⟨fun u enabled running late => ?_, fun served => ?_, fun served idle room => ?_, fun served => ⟨fun some' idle => ?_, ?_⟩⟩
  case refine_1 =>
    refine runs_act (f := fun s => watchdogExpiry h (s.strikeDclk + cyc) s) rfl u rfl ?_
    rw [watchdogExpiry_late enabled running late]
    set raised := raise (halfPage h) 2 (inc (sf h F.SCRR_COUNT.WD_EXP) s)
    refine ⟨(booted_halfReset hh false raised).keepAll hh, Pends.keepAll (by show 2 + h < 64; omega) ?_, ?_⟩
    · exact halfReset_pends false (raise_pends _ (by decide)) (by decide)
    · rw [rget_keepAll _ _ (sf_lt _ hh (by decide)), rget_halfReset_wdExp hh, (raise_only _ _ _).get (by simp [halfPage]; omega), rget_inc_same]
      rfl
  case refine_2 =>
    refine runs_halfReg (v := wordWith (sf h F.SCRR_CTRL.BOOT) 1 v) (o := 0x80) hh rfl rfl (by decide) rfl served fun u st => ?_
    have one : bitSet (wordWith (sf h F.SCRR_CTRL.BOOT) 1 v % 2 ^ 64) 0 = true :=
      bitSet_wordWith_one v rfl (by simp; omega)
    simp only [scribeEffect, if_true, one, whenB_true]
    exact (booted_halfReset hh true _).keepAll hh
  case refine_3 =>
    refine runs_halfReg (o := 0xC8) hh rfl rfl (by decide) rfl served fun u st => ?_
    have dataAlone : ∀ k < 2, (sf k F.SCRR_MBIN_CTRL.BUSY).key ∉ (rowFields (regOff (sf k F.SCRR_MBIN_DATA.DATA))).map (·.key) := by decide
    have idle' : on u (sf h F.SCRR_MBIN_CTRL.BUSY) = false := by
      rw [on, st.get (dataAlone h hh) (by simp)]
      exact idle
    have acts : scribeEffect r h 0xC8 (v % 2 ^ 64) (accessBegins r.who s) u
        = (u |> setHalf h (fun y => { y with inbox := y.inbox ++ [v % 2 ^ 64] }) |> rset (sf h F.SCRR_MBIN_CTRL.COUNT) ((half s h).inbox.length + 1)) := by
      have short : ¬64 ≤ (half s h).inbox.length := by omega
      simp only [scribeEffect, show ¬0xC8 = 0x80 by decide, if_false, if_true, mbinPush, idle', Bool.false_or, half_of_stored st, short, decide_false,
        Bool.false_eq_true]
    rw [acts]
    refine ⟨by simp [half_of_stored st], ?_⟩
    rw [rget_keepAll _ _ (sf_lt _ hh (by decide)), rget_rset_same]
    exact Nat.mod_eq_of_lt (by show _ < 128; omega)
  case refine_4 =>
    have ctrlAlone : ∀ k < 2, rowFields (regOff (sf k F.SCRR_MBIN_CTRL.SEND)) = [] := by decide
    refine runs_halfReg (o := 0xD0) hh rfl rfl (by decide) rfl served fun u st => ?_
    have same {f : Fld} (notCount : f.key % 32768 ≠ 243) : rget u f = rget s f := st.get (by simp [ctrlAlone h hh]) notCount
    have idle' : on u (sf h F.SCRR_MBIN_CTRL.BUSY) = false := by
      rw [on, same (by simp)]
      exact idle
    have words : (half u h).inbox.isEmpty = false := by
      rw [half_of_stored st]
      exact List.isEmpty_eq_false_iff.mpr some'
    have acts : scribeEffect r h 0xD0 (2 ^ 8 % 2 ^ 64) (accessBegins r.who s) u = triggerSlot h 3 (rset (sf h F.SCRR_MBIN_CTRL.BUSY) 1 u) := by
      have bits : bitSet (2 ^ 8 % 2 ^ 64) 10 = false ∧ bitSet (2 ^ 8 % 2 ^ 64) 8 = true := by decide
      simp only [scribeEffect, show ¬0xD0 = 0x80 by decide, show ¬0xD0 = 0xC8 by decide, if_false, if_true, bits.1, bits.2, whenB_false, whenB_true,
        mbinSend, words, idle', Bool.or_self, Bool.false_eq_true]
    rw [acts]
    refine ⟨?_, fun running enabled => ?_⟩
    · rw [rget_keepAll _ _ (sf_lt _ hh (by decide)), (triggerSlot_only _ _ _).get (by simp), rget_rset_same]
      rfl
    · have runs : halfRuns (rset (sf h F.SCRR_MBIN_CTRL.BUSY) 1 u) h = true := by
        simp only [halfRuns, halfState, rget_rset_other _ _ (show (sf h F.SCRR_STATE.STATE).key ≠ (sf h F.SCRR_MBIN_CTRL.BUSY).key by simp)]
        rw [same (by simp)]
        exact running
      have enables : bitSet (rget (rset (sf h F.SCRR_MBIN_CTRL.BUSY) 1 u) (sf h F.SCRR_SLOTS.EN)) 3 = true := by
        rw [rget_rset_other _ _ (by simp), same (by simp)]
        exact enabled
      rw [rget_keepAll _ _ (sf_lt _ hh (by decide)), triggerSlot, runs, enables, Bool.and_self, if_pos rfl, setBitOf, rget_rset_same,
        bitSet_mod _ _ _ (show 3 < 16 by decide), bitSet_setBit]
      simp
  case refine_5 =>
    have sameReg : ∀ k < 2, regOff (sf k F.SCRR_MBIN_CTRL.SEND) = regOff (sf k F.SCRR_MBIN_CTRL.CLEAR) := by decide
    rw [sameReg h hh] at served
    refine runs_halfReg (o := 0xD0) hh rfl rfl (by decide) rfl served fun u st => ?_
    have acts : scribeEffect r h 0xD0 (2 ^ 10 % 2 ^ 64) (accessBegins r.who s) u = mbinClear h u := rfl
    rw [acts]
    refine ⟨?_, ?_, ?_⟩
    · rw [half_keepAll, half_mbinClear]
    · rw [rget_keepAll _ _ (sf_lt _ hh (by decide)), mbinClear, rget_rset_same]
      rfl
    · rw [rget_keepAll _ _ (sf_lt _ hh (by decide)), mbinClear, rget_rset_other _ _ (by simp), rget_rset_same]
      rfl

end Sys2Proof.Machine

/-! SUPPORT. The frame by pages, `Within`: its rules, beside those of the frame by fields, `Only`. -/

namespace Sys2Proof.Machine

theorem Within.refl (s : State) : Within [] [] s s := ⟨fun p _ => Part.same_refl s p, fun _ _ => rfl⟩

theorem Within.mono {ps ps' : List Part} {pgs pgs' : List Nat} {s t : State} (h : Within ps pgs s t) (hp : ps ⊆ ps') (hg : pgs ⊆ pgs') :
    Within ps' pgs' s t :=
  ⟨fun p k => h.1 p fun m => k (hp m), fun f k => h.2 f fun m => k (hg m)⟩

theorem Within.trans {ps ps' : List Part} {pgs pgs' : List Nat} {s t u : State} (h : Within ps pgs s t) (k : Within ps' pgs' t u) :
    Within (ps ++ ps') (pgs ++ pgs') s u := by
  refine ⟨fun p hp => ?_, fun f hf => ?_⟩
  · rw [List.mem_append, not_or] at hp
    exact Part.same_trans p (h.1 p hp.1) (k.1 p hp.2)
  · rw [List.mem_append, not_or] at hf
    exact (k.2 f hf.2).trans (h.2 f hf.1)

theorem Within.seq {ps : List Part} {pgs : List Nat} {s t u : State} (h : Within ps pgs s t) (k : Within ps pgs t u) : Within ps pgs s u :=
  ⟨fun p hp => Part.same_trans p (h.1 p hp) (k.1 p hp), fun f hf => (k.2 f hf).trans (h.2 f hf)⟩

/-- A change of fields is one within their pages. -/
theorem Only.within {ps : List Part} {rs : List Fld} {s t : State} (h : Only ps rs s t) : Within ps (rs.map pageOf) s t := by
  refine ⟨h.1, fun f hf => h.2 f fun m => hf ?_⟩
  obtain ⟨g, hg, e⟩ := List.mem_map.mp m
  refine List.mem_map.mpr ⟨g, hg, ?_⟩
  simp only [pageOf]
  rw [e]

/-- A change of fields that all stand on some pages. -/
theorem Only.withinPages {ps ps' : List Part} {rs : List Fld} {pgs : List Nat} {s t : State} (h : Only ps rs s t) (hp : ps ⊆ ps')
    (hg : rs.map pageOf ⊆ pgs) : Within ps' pgs s t := h.within.mono hp hg

theorem Within.nothing {ps : List Part} {pgs : List Nat} (s : State) : Within ps pgs s s := (Within.refl s).mono (by simp) (by simp)

theorem Within.ite {c : Prop} [Decidable c] {ps : List Part} {pgs : List Nat} {s t u : State} (h : c → Within ps pgs s t) (k : ¬c → Within ps pgs s u) :
    Within ps pgs s (if c then t else u) := by
  split
  case isTrue yes => exact h yes
  case isFalse no => exact k no

theorem Within.whenB {c : Bool} {f : State → State} {ps : List Part} {pgs : List Nat} {s : State} (h : Within ps pgs s (f s)) :
    Within ps pgs s (Machine.whenB c f s) := by
  cases c
  · exact Within.nothing s
  · exact h

theorem Within.forAll {α : Type} {f : α → State → State} {ps : List Part} {pgs : List Nat} (xs : List α)
    (h : ∀ x ∈ xs, ∀ s, Within ps pgs s (f x s)) (s : State) : Within ps pgs s (Machine.forAll xs f s) := by
  induction xs generalizing s with
  | nil => exact Within.nothing s
  | cons x xs ih => exact (h x List.mem_cons_self s).seq (ih (fun y hy => h y (List.mem_cons_of_mem _ hy)) _)

theorem Within.get {ps : List Part} {pgs : List Nat} {s t : State} (h : Within ps pgs s t) {f : Fld} (k : pageOf f ∉ pgs) : rget t f = rget s f := h.2 f k

/-- The common frame adds no change. -/
theorem Within.keepAll {ps : List Part} {pgs : List Nat} {s t : State} (h : Within ps pgs s t) : Within ps pgs s (Machine.keepAll s t) := by
  refine ⟨fun p hp => ?_, fun f hf => ?_⟩
  · have := h.1 p hp
    cases p <;> simp_all [Part.same, Machine.keepAll, keepLive, keepTables, keepTime, keepWear, keepPower]
  · by_cases k : strokeBase ≤ f.key
    · simp [rget, Machine.keepAll, keepLive, k]
    · rw [rget_keepAll _ _ (by omega)]
      exact h.2 f hf

/-- Nor does the frame of a flourish's end. -/
theorem Within.keepFlour {ps : List Part} {pgs : List Nat} {s t : State} (h : Within ps pgs s t) : Within ps pgs s (Machine.keepFlour s t) := by
  refine ⟨fun p hp => ?_, h.2⟩
  have := h.1 p hp
  cases p <;> simp_all [Part.same, Machine.keepFlour, keepTables, keepTime, keepWear, keepPower]

/-- Nor does the frame of a flourish's end to a change of fields. -/
theorem Only.keepFlour {ps : List Part} {rs : List Fld} {s t : State} (h : Only ps rs s t) : Only ps rs s (Machine.keepFlour s t) := by
  refine ⟨fun p hp => ?_, h.2⟩
  have := h.1 p hp
  cases p <;> simp_all [Part.same, Machine.keepFlour, keepTables, keepTime, keepWear, keepPower]

/-- Nor does the frame of a ledger write. -/
theorem Only.keepFuses {ps : List Part} {rs : List Fld} {s t : State} (h : Only ps rs s t) : Only ps rs s (Machine.keepFuses s t) := by
  refine ⟨fun p hp => ?_, fun f hf => ?_⟩
  · have := h.1 p hp
    cases p <;> simp_all [Part.same, Machine.keepFuses, keepLive, keepTables, keepTime, keepPower]
  · by_cases k : strokeBase ≤ f.key
    · simp [rget, Machine.keepFuses, keepLive, k]
    · have same : rget (Machine.keepFuses s t) f = rget t f := by simp [rget, Machine.keepFuses, keepLive, keepTables, keepTime, keepPower, k]
      rw [same]
      exact h.2 f hf

/-- The common frame adds nothing to what a served write changes. -/
theorem Stored.keepAllWithin {off : Nat} {ps : List Part} {pgs : List Nat} {s u t : State} (st : Stored off s u) (h : Within ps pgs u t) :
    Within ps pgs u (Machine.keepAll s t) := by
  have same : ∀ p, p ∉ ps → p.same u t := h.1
  refine ⟨fun p hp => ?_, fun f hf => ?_⟩
  · have a := h.1 p hp
    have b := st.2.2 p
    cases p <;> simp_all [Part.same, Machine.keepAll, keepLive, keepTables, keepTime, keepWear, keepPower]
  · by_cases k : strokeBase ≤ f.key
    · simp [rget, Machine.keepAll, keepLive, k, st.1]
    · rw [rget_keepAll _ _ (by omega)]
      exact h.2 f hf

end Sys2Proof.Machine

/-! SUPPORT. The nib pool: requests (R87), the effect of a decided change (R85, R91, R92), the end of a ledger write (R88, R89). -/

namespace Sys2Proof.Machine

/-! ### Requests -/

/-- The word that NIB_RETIRE is written with. -/
def retireWord (nib op key : Nat) : Nat := nib % 2 ^ 7 + op * 2 ^ 8 + key % 2 ^ 16 * 2 ^ 16

theorem retireWord_fields {nib op : Nat} (key : Nat) (small : nib < 72) (op4 : op < 4) :
    slice 0 7 (retireWord nib op key % 2 ^ 64) = nib ∧ slice 8 2 (retireWord nib op key % 2 ^ 64) = op
      ∧ slice 16 16 (retireWord nib op key % 2 ^ 64) = key % 2 ^ 16 := by
  simp only [slice_eq, retireWord]
  omega

/-- What a write of NIB_RETIRE does with its word, in the state that the write stores. -/
theorem nibRequest_eq {nib op key : Nat} (small : nib < 72) (opOn : op ≠ 0) (s : State) : nibRequest nib op key s =
    if key = 0x9B1D ∧ ((op = 1 ∧ nibState s nib ≠ 3) ∨ (op = 2 ∧ nibState s nib < 2) ∨ (op = 3 ∧ nibState s nib = 2))
    then decideNib nib op (if op = 1 then 6 else 0) s else inc F.NIB_COUNT.RETIRE_REFUSED s := by
  simp only [nibRequest, small, opOn, true_and, if_false]
  by_cases keyed : key = 0x9B1D
  · simp only [keyed, ne_eq, not_true_eq_false, if_false, true_and]
  · simp only [keyed, ne_eq, not_false_eq_true, if_true, false_and, if_false]

/-- A command of NIB_RETIRE is one request, made in the state that the write leaves. -/
theorem runs_nibCommand {c : Instr} {s : State} {P : State → Prop} {r : Req} {nib op key : Nat} (small : nib < 72) (op4 : op < 4)
    (e : exec c s = act true (nibCommand r op nib key) s) (served : Served r.who (regOff F.NIB_RETIRE.OP) s)
    (p : ∀ u, Stored (regOff F.NIB_RETIRE.OP) s u → P (keepAll s (nibRequest nib op (key % 2 ^ 16) u))) : Runs c s P := by
  obtain ⟨nibOf, opOf, keyOf⟩ := retireWord_fields key small op4
  refine runs_plain (v := retireWord nib op key) e rfl served (by decide) fun u st => ?_
  have acts : pageEffect r (regOff F.NIB_RETIRE.OP) (retireWord nib op key % 2 ^ 64) (accessBegins r.who s) u
      = nibEffectW 0x548 (retireWord nib op key % 2 ^ 64) u := rfl
  rw [acts, nibEffectW, if_pos rfl, nibOf, opOf, keyOf]
  exact p u st

theorem nibState_of_stored {s u : State} (st : Stored (regOff F.NIB_RETIRE.OP) s u) (nib : Nat) :
    nibState u nib = nibState s nib := by
  have fields : (rowFields (regOff F.NIB_RETIRE.OP)) = [] := by decide
  exact st.get (by simp [fields]) (by simp; omega)

theorem decideNib_fresh {s : State} {nib : Nat} (none' : ∀ x ∈ s.nibs.retiring, x.1 ≠ nib) (op reason : Nat) :
    decideNib nib op reason s = { s with nibs := { s.nibs with retiring := s.nibs.retiring ++ [(nib, op, reason)] } } := by
  have fresh : (s.nibs.retiring.any fun x => x.1 == nib) = false := by
    rw [List.any_eq_false]
    intro x hx
    simpa using none' x hx
  rw [decideNib, fresh]
  rfl

/-- Settles O24: the eight forms of a request are the two branches of `nibRequest_eq`. -/
theorem nibRequests : Obligations.NibRequests := by
  intro s r nib key served small none' off decided refused
  have decides {op reason : Nat} {u : State} (st : Stored off s u) : decided op reason (keepAll s (decideNib nib op reason u)) := by
    have nibsEq : u.nibs = s.nibs := st.2.2 .nibs (by simp) (by simp)
    rw [decideNib_fresh (by rwa [nibsEq])]
    exact ⟨by rw [← nibsEq]; rfl, u, st, st.keepAll (nibs_only _ u)⟩
  have refuses {u : State} (st : Stored off s u) : refused (keepAll s (inc F.NIB_COUNT.RETIRE_REFUSED u)) := by
    refine ⟨?_, u, st, st.keepAll (inc_only _ u)⟩
    rw [rget_keepAll _ _ (by decide), rget_inc_same, st.get (by decide) (by decide)]
    rfl
  have accepts {c : Instr} {op : Nat} (e : exec c s = act true (nibCommand r op nib 0x9B1D) s)
      (allowed : (op = 1 ∧ nibState s nib ≠ 3) ∨ (op = 2 ∧ nibState s nib < 2) ∨ (op = 3 ∧ nibState s nib = 2)) :
      Runs c s (decided op (if op = 1 then 6 else 0)) := by
    refine runs_nibCommand small (by omega) e served fun u st => ?_
    rw [nibRequest_eq small (by omega), nibState_of_stored st, if_pos (show 0x9B1D % 2 ^ 16 = 0x9B1D ∧ _ from ⟨by decide, allowed⟩)]
    exact decides st
  have rejects {c : Instr} {op k : Nat} (e : exec c s = act true (nibCommand r op nib k) s) (asks : op ≠ 0 ∧ op < 4)
      (barred : k % 2 ^ 16 ≠ 0x9B1D ∨ ¬((op = 1 ∧ nibState s nib ≠ 3) ∨ (op = 2 ∧ nibState s nib < 2) ∨ (op = 3 ∧ nibState s nib = 2))) :
      Runs c s refused := by
    refine runs_nibCommand small asks.2 e served fun u st => ?_
    rw [nibRequest_eq small asks.1, nibState_of_stored st, if_neg (by tauto)]
    exact refuses st
  exact ⟨fun live => accepts (op := 1) rfl (by omega), fun low => accepts (op := 2) rfl (by omega), fun parked => accepts (op := 3) rfl (by omega),
    fun gone => rejects (op := 1) rfl (by decide) (by omega), fun high => rejects (op := 2) rfl (by decide) (by omega),
    fun other => rejects (op := 3) rfl (by decide) (by omega), fun wrong => ⟨rejects (op := 1) rfl (by decide) (.inl wrong),
      rejects (op := 2) rfl (by decide) (.inl wrong), rejects (op := 3) rfl (by decide) (.inl wrong)⟩⟩

end Sys2Proof.Machine

/-! SUPPORT. A trim run: how it ends and what it leaves in TRIM_HIST (R98, R107, R110, R112). -/

namespace Sys2Proof.Machine

/-! ### Triggers and the end of a run -/

theorem trimHold_only (cause : Nat) (s : State) : Only [.trim] [F.TRIM_STATUS.PENDING] s (trimHold cause s) :=
  Only.ite (fun _ => (Only.refl s).mono (by simp) (by simp)) fun _ => ((rset_only _ _ s).trans (trim_only _ _)).mono (by simp) (by simp)

theorem trimTrigger_only (cause : Nat) (s : State) : Only [.trim] [F.TRIM_STATUS.PENDING] s (trimTrigger cause s) :=
  Only.ite (fun _ => trimHold_only _ s) fun _ => Only.ite (fun _ => trimHold_only _ s) fun _ =>
    Only.ite (fun _ => (Only.refl s).mono (by simp) (by simp)) fun _ => ((rset_only _ _ s).trans (trim_only _ _)).mono (by simp) (by simp)

theorem trimNext_only (s : State) : Only [.trim] [F.TRIM_STATUS.PENDING] s (trimNext s) :=
  Only.ite (fun _ => ((rset_only _ _ s).trans (trim_only _ _)).mono (by simp) (by simp)) fun _ => (Only.refl s).mono (by simp) (by simp)

/-- Of trim's own state only the run that is due changes as a held trigger is taken up. -/
theorem trimNext_trim (s : State) : ∃ due, (trimNext s).trim = { s.trim with due := due } := by
  unfold trimNext
  split
  · exact ⟨_, rfl⟩
  · exact ⟨s.trim.due, rfl⟩

/-- An entry of TRIM_HIST moves one place on. -/
def histShift (i : Nat) (s : State) : State :=
  s |> rset (F.TRIM_HIST.OUTCOME (i + 1)) (rget s (F.TRIM_HIST.OUTCOME i)) |> rset (F.TRIM_HIST.CAUSE (i + 1)) (rget s (F.TRIM_HIST.CAUSE i))
    |> rset (F.TRIM_HIST.STRETCH (i + 1)) (rget s (F.TRIM_HIST.STRETCH i)) |> rset (F.TRIM_HIST.COMMIT_LO (i + 1)) (rget s (F.TRIM_HIST.COMMIT_LO i))

/-- The entries of TRIM_HIST move on, the staged results' among them. -/
def histShifted (s : State) : State :=
  { s with trim := { s.trim with staged := s.trim.staged.map (fun g => { g with hist := g.hist + 1 }) } } |> forAll [6, 5, 4, 3, 2, 1, 0] histShift

/-- The run that ends is the newest. -/
def histFirst (outcome cause stretch : Nat) (s : State) : State :=
  s |> rset (F.TRIM_HIST.OUTCOME 0) outcome |> rset (F.TRIM_HIST.CAUSE 0) cause |> rset (F.TRIM_HIST.STRETCH 0) stretch
    |> rset (F.TRIM_HIST.COMMIT_LO 0) 0 |> rset F.TRIM_LAST.OUTCOME outcome

theorem trimHist_eq (outcome : Nat) (s : State) :
    trimHist outcome s = histFirst outcome (rget s F.TRIM_STATUS.CAUSE) (rget s F.TRIM_STATUS.STRETCH) (histShifted s) := rfl

/-- The fields of TRIM_HIST, with the latest outcome. -/
def histFields : List Fld :=
  F.TRIM_LAST.OUTCOME :: (List.range 8).flatMap fun i => [F.TRIM_HIST.OUTCOME i, F.TRIM_HIST.CAUSE i, F.TRIM_HIST.STRETCH i, F.TRIM_HIST.COMMIT_LO i]

theorem histShift_only {i : Nat} (lt : i < 7) (s : State) : Only [] histFields s (histShift i s) := by
  refine ((((rset_only _ _ s).trans (rset_only _ _ _)).trans (rset_only _ _ _)).trans (rset_only _ _ _)).mono (by simp) fun f hf => ?_
  refine List.mem_cons_of_mem _ (List.mem_flatMap.mpr ⟨i + 1, List.mem_range.mpr (by omega), ?_⟩)
  simpa using hf

theorem histShifted_only (s : State) : Only [.trim] histFields s (histShifted s) := by
  refine ((trim_only _ s).trans (Only.forAll _ (fun i hi s => histShift_only ?_ s) _)).mono (by simp) (by simp)
  simp at hi
  omega

theorem histFirst_only (outcome cause stretch : Nat) (s : State) : Only [] histFields s (histFirst outcome cause stretch s) :=
  (((((rset_only _ _ s).trans (rset_only _ _ _)).trans (rset_only _ _ _)).trans (rset_only _ _ _)).trans (rset_only _ _ _)).mono (by simp)
    (by simp [histFields, List.range_succ])

theorem trimHist_only (outcome : Nat) (s : State) : Only [.trim] histFields s (trimHist outcome s) :=
  ((histShifted_only s).trans (histFirst_only _ _ _ _)).mono (by simp) (by simp)

theorem rget_trimHist_outcome (outcome : Nat) (s : State) : rget (trimHist outcome s) (F.TRIM_HIST.OUTCOME 0) = outcome % 2 ^ 3 := by
  rw [trimHist_eq, histFirst, rget_rset_other _ _ (by decide), rget_rset_other _ _ (by decide), rget_rset_other _ _ (by decide),
    rget_rset_other _ _ (by decide), rget_rset_same]

theorem rget_trimHist_last (outcome : Nat) (s : State) : rget (trimHist outcome s) F.TRIM_LAST.OUTCOME = outcome % 2 ^ 3 := by
  rw [trimHist_eq, histFirst, rget_rset_same]

theorem rget_trimHist_cause (outcome : Nat) (s : State) :
    rget (trimHist outcome s) (F.TRIM_HIST.CAUSE 0) = rget s F.TRIM_STATUS.CAUSE % 2 ^ 3 := by
  rw [trimHist_eq, histFirst, rget_rset_other _ _ (by decide), rget_rset_other _ _ (by decide), rget_rset_other _ _ (by decide), rget_rset_same]

/-- What a run that ends leaves of trim's own state; `due` is the run that a held trigger starts. -/
def trimRested (stroke : Nat) (due : Option Nat) (x : Trim) : Trim :=
  { x with staged := x.staged.map (fun g => { g with hist := g.hist + 1 }), lastEnd := some stroke, feOn := false, due := due }

theorem trimHist_trim (outcome : Nat) (s : State) :
    (trimHist outcome s).trim = { s.trim with staged := s.trim.staged.map (fun g => { g with hist := g.hist + 1 }) } := rfl

/-- The end of a run is noted. -/
def trimStopped (s : State) : State := { s with trim := { s.trim with lastEnd := some (strokeNow s), feOn := false } }

theorem rget_trimStopped (s : State) (f : Fld) : rget (trimStopped s) f = rget s f := rfl
theorem trimStopped_trim (s : State) : (trimStopped s).trim = { s.trim with lastEnd := some (strokeNow s), feOn := false } := rfl

/-- The end of a run up to the trigger that may be held. -/
def trimRests (outcome : Nat) (s : State) : State := s |> trimHist outcome |> rset F.TRIM_STATUS.STATE (trimRest s) |> trimStopped

theorem trimEnd_eq (outcome : Nat) (s : State) : trimEnd outcome s = trimNext (trimRests outcome s) := rfl

theorem trimRests_only (outcome : Nat) (s : State) : Only [.trim] (F.TRIM_STATUS.STATE :: histFields) s (trimRests outcome s) :=
  (((trimHist_only outcome s).trans (rset_only _ _ _)).trans (trim_only _ _)).mono (by simp) (by simp)

theorem trimEnd_only (outcome : Nat) (s : State) :
    Only [.trim] (F.TRIM_STATUS.PENDING :: F.TRIM_STATUS.STATE :: histFields) s (trimEnd outcome s) :=
  ((trimRests_only outcome s).trans (trimNext_only _)).mono (by simp) (by simp)

theorem trimEnd_trim (outcome : Nat) (s : State) : ∃ due, (trimEnd outcome s).trim = trimRested (strokeNow s) due s.trim := by
  obtain ⟨due, e⟩ := trimNext_trim (trimRests outcome s)
  refine ⟨due, ?_⟩
  have stroke : strokeNow (rset F.TRIM_STATUS.STATE (trimRest s) (trimHist outcome s)) = strokeNow s := by
    rw [strokeNow, rget_rset_other _ _ (by decide), (trimHist_only outcome s).get (by decide)]
    rfl
  rw [trimEnd_eq, e, trimRests, trimStopped_trim, stroke, rset_trim, trimHist_trim]
  rfl

theorem trimState_trimEnd (outcome : Nat) (s : State) : trimState (trimEnd outcome s) = trimRest s := by
  rw [trimState, trimEnd_eq, (trimNext_only _).get (by decide)]
  rw [trimRests, rget_trimStopped, rget_rset_same]
  exact Nat.mod_eq_of_lt (by show _ < 8; unfold trimRest; split <;> decide)

/-- What a run that has ended shows of its outcome. -/
theorem trimEnd_shows {outcome : Nat} (small : outcome < 8) (s : State) :
    rget (trimEnd outcome s) (F.TRIM_HIST.OUTCOME 0) = outcome ∧ rget (trimEnd outcome s) F.TRIM_LAST.OUTCOME = outcome
      ∧ rget (trimEnd outcome s) (F.TRIM_HIST.CAUSE 0) = rget s F.TRIM_STATUS.CAUSE % 2 ^ 3 := by
  have after {f : Fld} (apart : f.key ∉ [F.TRIM_STATUS.PENDING.key, F.TRIM_STATUS.STATE.key]) :
      rget (trimEnd outcome s) f = rget (trimHist outcome s) f := by
    simp only [List.mem_cons, List.not_mem_nil, or_false, not_or] at apart
    rw [trimEnd_eq, (trimNext_only _).get (by simpa using apart.1)]
    rw [trimRests, rget_trimStopped, rget_rset_other _ _ apart.2]
  refine ⟨?_, ?_, ?_⟩
  · rw [after (by decide), rget_trimHist_outcome]
    exact Nat.mod_eq_of_lt small
  · rw [after (by decide), rget_trimHist_last]
    exact Nat.mod_eq_of_lt small
  · rw [after (by decide), rget_trimHist_cause]

theorem trimAbortRun_only (s : State) : Only [.trim, .eva]
    (F.TRIM_COUNT.ABORTED :: F.EVT_PEND.PEND pTRIM :: F.TRIM_STATUS.PENDING :: F.TRIM_STATUS.STATE :: histFields) s (trimAbortRun s) :=
  (((inc_only _ s).trans (raise_only _ _ _)).trans (trimEnd_only _ _)).mono (by simp) (by simp)

end Sys2Proof.Machine

/-! SUPPORT. The trim run from its start to its outcome (R98 to R110). -/

namespace Sys2Proof.Machine

/-! ### The start -/

/-- What the start of a run shows. -/
def trimShown (cause : Nat) (s : State) : State :=
  s |> rset F.TRIM_STATUS.STATE 1 |> rset F.TRIM_STATUS.CAUSE cause |> inc F.TRIM_COUNT.RUNS |> raise pTRIM 0
    |> rset F.TRIM_PROGRESS.NIB_DONE 0 |> rset F.TRIM_PROGRESS.FE_DONE 0

theorem trimStart_due {s : State} {cause : Nat} (due : s.trim.due = some cause) : ∃ (x : Trim) (ls : Table Lane) (nb : Nibs),
    trimStart s = trimShown cause { s with trim := x, lanes := ls, nibs := nb } ∧ x.due = none ∧ x.start = strokeNow s ∧ x.runNo = s.trim.runNo + 1
      ∧ x.corr = [] ∧ x.feOn = on s F.TRIM_CTRL.FE_EN ∧ x.hold = on s F.TRIM_CTRL.HOLD := by
  unfold trimStart
  rw [due]
  exact ⟨_, _, _, rfl, rfl, rfl, rfl, rfl, rfl, rfl⟩

theorem trimShown_only (cause : Nat) (s : State) : Only [.eva] [F.TRIM_STATUS.STATE, F.TRIM_STATUS.CAUSE, F.TRIM_COUNT.RUNS, F.EVT_PEND.PEND pTRIM,
    F.TRIM_PROGRESS.NIB_DONE, F.TRIM_PROGRESS.FE_DONE] s (trimShown cause s) :=
  ((((((rset_only _ _ s).trans (rset_only _ _ _)).trans (inc_only _ _)).trans (raise_only _ _ _)).trans (rset_only _ _ _)).trans
    (rset_only _ _ _)).mono (by simp) (by simp)

theorem runs_trimStart {s : State} {cause : Nat} (u : Up s) (due : s.trim.due = some cause) (small : cause < 8) :
    Runs .trimRunStart s (fun t => trimState t = 1 ∧ rget t F.TRIM_STATUS.CAUSE = cause ∧ t.trim.due = none ∧ t.trim.start = strokeNow s
        ∧ t.trim.runNo = s.trim.runNo + 1 ∧ t.trim.corr = [] ∧ t.trim.feOn = on s F.TRIM_CTRL.FE_EN ∧ t.trim.hold = on s F.TRIM_CTRL.HOLD
        ∧ rget t F.TRIM_COUNT.RUNS = min 65535 (rget s F.TRIM_COUNT.RUNS + 1) ∧ rget t F.TRIM_PROGRESS.NIB_DONE = 0 ∧ rget t F.TRIM_PROGRESS.FE_DONE = 0 ∧ Pends pTRIM 0 t
        ∧ Only [.trim, .lanes, .nibs, .eva] [F.TRIM_STATUS.STATE, F.TRIM_STATUS.CAUSE, F.TRIM_COUNT.RUNS, F.EVT_PEND.PEND pTRIM, F.TRIM_PROGRESS.NIB_DONE, F.TRIM_PROGRESS.FE_DONE] s t) := by
  obtain ⟨x, ls, nb, acts, dueX, startX, runX, corrX, feX, holdX⟩ := trimStart_due due
  refine runs_act (f := trimStart) rfl u rfl ?_
  rw [acts]
  set begun := { s with trim := x, lanes := ls, nibs := nb } with begunEq
  have trimEq : (trimShown cause begun).trim = x := (trimShown_only cause begun).1 .trim (by simp)
  have toBegun : Only [.trim, .lanes, .nibs] [] s begun :=
    (((trim_only x s).trans (lanes_only ls _)).trans (nibs_only nb _)).mono (by simp) (by simp)
  have tail (y : State) : Only [] [F.TRIM_PROGRESS.NIB_DONE, F.TRIM_PROGRESS.FE_DONE] y
      (rset F.TRIM_PROGRESS.FE_DONE 0 (rset F.TRIM_PROGRESS.NIB_DONE 0 y)) := ((rset_only _ _ y).trans (rset_only _ _ _)).mono (by simp) (by simp)
  have pend : Pends pTRIM 0 (trimShown cause begun) := (raise_pends _ (by decide)).only (tail _) (by decide)
  refine ⟨?_, ?_, ?_, ?_, ?_, ?_, ?_, ?_, ?_, ?_, ?_, Pends.keepAll (by decide) pend, ?_⟩
  · rw [trimState, rget_keepAll _ _ (by decide), trimShown, (tail _).get (by decide), (raise_only _ _ _).get (by decide), (inc_only _ _).get (by decide),
      rget_rset_other _ _ (by decide), rget_rset_same]
    rfl
  · rw [rget_keepAll _ _ (by decide), trimShown, (tail _).get (by decide), (raise_only _ _ _).get (by decide), (inc_only _ _).get (by decide),
      rget_rset_same]
    exact Nat.mod_eq_of_lt small
  · show (trimShown cause begun).trim.due = _
    rw [trimEq, dueX]
  · show (trimShown cause begun).trim.start = _
    rw [trimEq, startX]
  · show (trimShown cause begun).trim.runNo = _
    rw [trimEq, runX]
  · show (trimShown cause begun).trim.corr = _
    rw [trimEq, corrX]
  · show (trimShown cause begun).trim.feOn = _
    rw [trimEq, feX]
  · show (trimShown cause begun).trim.hold = _
    rw [trimEq, holdX]
  · rw [rget_keepAll _ _ (by decide), trimShown, (tail _).get (by decide), (raise_only _ _ _).get (by decide), rget_inc_same,
      rget_rset_other _ _ (by decide), rget_rset_other _ _ (by decide)]
    rfl
  · rw [rget_keepAll _ _ (by decide), trimShown, rget_rset_other _ _ (by decide), rget_rset_same]
    rfl
  · rw [rget_keepAll _ _ (by decide), trimShown, rget_rset_same]
    rfl
  · exact ((toBegun.trans (trimShown_only cause begun)).mono (by simp) (by simp)).keepAll

/-! ### The solver -/

/-- The fields of the solver's report. -/
def reportFields : List Fld :=
  [F.TRIM_REFS.REF_DEV, F.TRIM_REFS.INJ_DEV, F.TRIM_NIBFAIL0.FAIL, F.TRIM_NIBFAIL1.FAIL, F.TRIM_LANEFAIL.FAIL, F.EVT_PEND.PEND pEXC,
    F.EVT_PEND.PEND pTRIM, F.TRIM_COUNT.ITEM_FAILS] ++ (List.range 8).map F.TRIM_FEFAIL.FAIL ++ (List.range 8).map F.TRIM_FEUNM.UNM
    ++ (List.range 16).map F.EXC_STATUS.TRIM_FAIL

theorem setMap_only (f : Nat → Fld) (n : Nat) (xs : List Nat) (s : State) : Only [] ((List.range n).map f) s (setMap f n xs s) :=
  Only.forAll _ (fun j hj s => (rset_only _ _ s).mono (by simp) (by simpa using ⟨j, by simpa using hj, rfl⟩)) s

theorem ageRest_only (s : State) : Only [.trim] [] s (ageRest s) := trim_only _ s

/-- Every source that the solver judges is one of the 16. -/
theorem verdict_excs (s : State) (v : Solved) : ∀ r ∈ (verdict s v).excs, r.src < 16 := by
  intro r hr
  have inList : r ∈ if on s F.TRIM_CTRL.LANE_EN then v.exc.filter (fun r => decide (r.src < 16)) else [] := hr
  split at inList
  · simpa using (List.mem_filter.mp inList).2
  · exact absurd inList List.not_mem_nil

/-- The registers of the report that are written one by one. -/
def reportShown (v : Solved) (d : Verdict) (s : State) : State :=
  s |> rset F.TRIM_REFS.REF_DEV (ofInt 16 (clampSigned 16 v.ref)) |> rset F.TRIM_REFS.INJ_DEV (min 65535 v.inj)
    |> rset F.TRIM_NIBFAIL0.FAIL (bitsOf (d.nibBad.filter (· < 64)))
    |> rset F.TRIM_NIBFAIL1.FAIL (bitsOf ((d.nibBad.filter (64 ≤ ·)).map (· - 64)))
    |> setMap F.TRIM_FEFAIL.FAIL 8 d.feBad |> setMap F.TRIM_FEUNM.UNM 8 d.unm |> rset F.TRIM_LANEFAIL.FAIL (bitsOf d.laneBad)

/-- The sources' failures, the sources of EVT_PEND and the count. -/
def reportRaised (d : Verdict) (s : State) : State :=
  s |> forAll d.excs (fun r => rset (F.EXC_STATUS.TRIM_FAIL r.src) (d.excBad.contains r).toNat)
    |> whenB (!d.excBad.isEmpty) (raise pEXC 1) |> whenB (!d.unm.isEmpty) (raise pTRIM 7) |> incBy F.TRIM_COUNT.ITEM_FAILS d.items

theorem solverShow_eq (v : Solved) (d : Verdict) (s : State) : solverShow v d s = ageRest (reportRaised d (reportShown v d s)) := rfl

theorem reportShown_only (v : Solved) (d : Verdict) (s : State) : Only [] reportFields s (reportShown v d s) :=
  (((((((rset_only _ _ s).trans (rset_only _ _ _)).trans (rset_only _ _ _)).trans (rset_only _ _ _)).trans (setMap_only _ _ _ _)).trans
    (setMap_only _ _ _ _)).trans (rset_only _ _ _)).mono (by simp) (by simp [reportFields, List.range_succ])

theorem reportRaised_only {d : Verdict} (sources : ∀ r ∈ d.excs, r.src < 16) (s : State) : Only [.eva] reportFields s (reportRaised d s) := by
  have fails (s : State) : Only [] ((List.range 16).map F.EXC_STATUS.TRIM_FAIL) s
      (forAll d.excs (fun r => rset (F.EXC_STATUS.TRIM_FAIL r.src) (d.excBad.contains r).toNat) s) :=
    Only.forAll _ (fun r hr s => (rset_only _ _ s).mono (by simp) (by simpa using sources r hr)) s
  exact ((((fails s).trans (Only.whenB (raise_only _ _ _))).trans (Only.whenB (raise_only _ _ _))).trans (incBy_only _ _ _)).mono (by simp)
    (by simp [reportFields, List.range_succ])

theorem solverShow_only {v : Solved} {d : Verdict} (sources : ∀ r ∈ d.excs, r.src < 16) (s : State) :
    Only [.trim, .eva] reportFields s (solverShow v d s) :=
  (((reportShown_only v d s).trans (reportRaised_only sources _)).trans (ageRest_only _)).mono (by simp) (by simp)

/-- Of trim's own state the report changes the ages only. -/
theorem solverShow_trim {v : Solved} {d : Verdict} (sources : ∀ r ∈ d.excs, r.src < 16) (s : State) :
    ∃ age, (solverShow v d s).trim = { s.trim with age := age } := by
  have same : (reportRaised d (reportShown v d s)).trim = s.trim :=
    (((reportShown_only v d s).trans (reportRaised_only sources _)).1 .trim (by simp))
  refine ⟨(ageRest (reportRaised d (reportShown v d s))).trim.age, ?_⟩
  rw [solverShow_eq, ageRest, same]

theorem setNibSt_only (n : Nat) (x : NibSt) (s : State) : Only [.nibs] [] s (setNibSt n x s) := nibs_only _ s

theorem decideNib_only (nib op reason : Nat) (s : State) : Only [.nibs] [] s (decideNib nib op reason s) :=
  Only.ite (fun _ => (Only.refl s).mono (by simp) (by simp)) fun _ => nibs_only _ s

/-- A record of FLTQ is placed, or refused and counted. -/
theorem pushFault_only (ws : List Nat) (s : State) :
    Only [.queues, .eva] [F.EVT_PEND.PEND pQUE, F.QUE_q_COUNT2.PUSH_REFUSED qFLT] s (pushItem qFLT ws s) :=
  Only.ite (fun k => absurd k (by decide)) fun _ => Only.ite (fun _ => (placeItem_only _ _ s).mono (by simp) (by simp)) fun _ =>
    ((inc_only _ s).trans (raise_only _ _ _)).mono (by simp) (by simp)

/-- The fields of a nib's failing check. -/
def checkFields : List Fld := [F.EVT_PEND.PEND pQUE, F.QUE_q_COUNT2.PUSH_REFUSED qFLT, F.EVT_PEND.PEND pNIB]

theorem checkFailed_only (nib reason : Nat) (retire : Bool) (s : State) : Only [.nibs, .queues, .eva] checkFields s (checkFailed nib reason retire s) :=
  (((pushFault_only _ s).trans (Only.whenB (decideNib_only _ _ _ _))).trans (Only.whenB (raise_only _ _ _))).mono (by simp) (by simp [checkFields])

theorem nibTrimmed_only (nib : Nat) (pass : Bool) (s : State) : Only [.nibs, .queues, .eva] checkFields s (nibTrimmed nib pass s) :=
  ((setNibSt_only _ _ s).trans (Only.whenB (checkFailed_only _ _ _ _))).mono (by simp) (by simp)

/-- Passing results are staged: what trim's own state becomes. -/
theorem stageResults_trim (nibs : List NibResult) (fe : List (Nat × Nat × Nat)) (exc : List ExcResult) (s : State) :
    ∃ g, (stageResults nibs fe exc s).trim = { s.trim with staged := some g } := by
  unfold stageResults
  dsimp only
  rw [(raise_only _ _ _).1 .trim (by simp)]
  cases s.trim.staged.isSome
  · exact ⟨_, rfl⟩
  · exact ⟨_, rfl⟩

theorem stageResults_only (nibs : List NibResult) (fe : List (Nat × Nat × Nat)) (exc : List ExcResult) (s : State) :
    Only [.trim, .eva] [F.TRIM_COUNT.SUPERSEDED, F.EVT_PEND.PEND pTRIM] s (stageResults nibs fe exc s) :=
  (((Only.whenB (inc_only _ s)).trans (trim_only _ _)).trans (raise_only _ _ _)).mono (by simp) (by simp)

/-- The fields of the staging. -/
def stageFields : List Fld := F.TRIM_COUNT.SUPERSEDED :: F.EVT_PEND.PEND pTRIM :: checkFields

/-- A passing run: its nibs counted, its results staged with SRC[1] pending, and the run's state kept for its rest. -/
theorem solverStage_does (d : Verdict) (s : State) : Only [.trim, .nibs, .queues, .eva] stageFields s (solverStage d s)
    ∧ (∃ g, (solverStage d s).trim = { s.trim with staged := some g }) ∧ Pends pTRIM 1 (solverStage d s) := by
  set counted := forAll d.nibs (fun r => nibTrimmed r.nib (!d.nibBad.contains r.nib)) s with countedEq
  have toCounted : Only [.nibs, .queues, .eva] checkFields s counted := Only.forAll _ (fun r _ s => nibTrimmed_only _ _ s) s
  set nibs := d.nibs.filter (fun r => !d.nibBad.contains r.nib)
  set exc := d.excs.filter (fun r => !d.excBad.contains r && rget s (F.EXC_CFG.ICODE r.src) != 0)
  have acts : solverStage d s = whenB (d.outcome == 2) (raise pTRIM 3) (stageResults nibs d.fe exc counted) := rfl
  have last (y : State) : Only [.eva] [F.EVT_PEND.PEND pTRIM] y (whenB (d.outcome == 2) (raise pTRIM 3) y) := Only.whenB (raise_only _ _ y)
  rw [acts]
  refine ⟨((toCounted.trans (stageResults_only _ _ _ _)).trans (last _)).mono (by simp) (by simp [stageFields]), ?_, ?_⟩
  · obtain ⟨g, e⟩ := stageResults_trim nibs d.fe exc counted
    refine ⟨g, ?_⟩
    rw [(last _).1 .trim (by simp), e, toCounted.1 .trim (by simp)]
  · have staged : Pends pTRIM 1 (stageResults nibs d.fe exc counted) := raise_pends _ (by decide)
    cases d.outcome == 2
    · exact staged
    · exact pend_kept none staged (by decide)

theorem verdict_outcome_lt (s : State) (v : Solved) : (verdict s v).outcome < 8 := by
  show solvedOutcome s v _ _ < 8
  unfold solvedOutcome
  split_ifs <;> decide

theorem solverDone_eq {s : State} (solving : trimState s = 2) (v : Solved) (cyc : Nat) : solverDone v cyc s =
    if (verdict s v).outcome ≤ 2 then solverArm cyc (trimEnd (verdict s v).outcome (solverStage (verdict s v) (solverShow v (verdict s v) s)))
    else trimEnd (verdict s v).outcome (raise pTRIM 4 (solverShow v (verdict s v) s)) := by
  rw [solverDone, if_neg (by simp [solving])]

/-- With HOLD the hub arms nothing. -/
theorem solverArm_hold {s : State} (held : s.trim.hold = true) (cyc : Nat) :
    solverArm cyc s = { s with trim := { s.trim with staged := s.trim.staged.map (fun g => { g with hist := 0 }) } } := by
  have still : ({ s with trim := { s.trim with staged := s.trim.staged.map (fun g => { g with hist := 0 }) } } : State).trim.hold = true := held
  rw [solverArm, still]
  rfl

/-- The state of a run that has ended with an outcome, by what it leaves in the registers and in trim's own state. -/
def RunRests (s : State) (o : Nat) (t : State) : Prop := rget t (F.TRIM_HIST.OUTCOME 0) = o ∧ rget t F.TRIM_LAST.OUTCOME = o
  ∧ rget t (F.TRIM_HIST.CAUSE 0) = rget s F.TRIM_STATUS.CAUSE % 2 ^ 3 ∧ t.trim.lastEnd = some (strokeNow s) ∧ t.trim.feOn = false

/-- A run that ends on a state that shows the run's cause and stroke rests. -/
theorem runRests_trimEnd {s x : State} {o : Nat} (small : o < 8) (cause : rget x F.TRIM_STATUS.CAUSE = rget s F.TRIM_STATUS.CAUSE)
    (stroke : strokeNow x = strokeNow s) : RunRests s o (trimEnd o x) := by
  obtain ⟨outcome, last, first⟩ := trimEnd_shows small x
  obtain ⟨due, own⟩ := trimEnd_trim o x
  exact ⟨outcome, last, first.trans (by rw [cause]), by rw [own, trimRested, stroke], by rw [own]; rfl⟩

theorem RunRests.keepAll {s t : State} {o : Nat} (h : RunRests s o t) : RunRests s o (Machine.keepAll s t) := by
  obtain ⟨outcome, last, cause, stroke, fe⟩ := h
  exact ⟨by rwa [rget_keepAll _ _ (by decide)], by rwa [rget_keepAll _ _ (by decide)], by rwa [rget_keepAll _ _ (by decide)], stroke, fe⟩

/-- The end of a run writes on TRIM's page only. -/
theorem endFields_pages : (F.TRIM_STATUS.PENDING :: F.TRIM_STATUS.STATE :: histFields).map pageOf ⊆ [pTRIM] := by decide

theorem trimRest_of_some {s : State} (staged : s.trim.staged.isSome = true) : trimRest s = 3 := by rw [trimRest, if_pos staged]

/-- A run whose results passed: staged, and at rest in STATE 3. -/
theorem passing_rests {s : State} {v : Solved} {d : Verdict} (sources : ∀ r ∈ d.excs, r.src < 16) (small : d.outcome < 8) (held : s.trim.hold = true)
    (cyc : Nat) {t : State} (acts : t = solverArm cyc (trimEnd d.outcome (solverStage d (solverShow v d s)))) :
    RunRests s d.outcome t ∧ trimState t = 3 ∧ t.trim.staged.isSome = true ∧ Pends pTRIM 1 t
      ∧ Within [.trim, .nibs, .queues, .eva] [pTRIM, pNIB, pEXC, pQUE] s t := by
  have toShown : Only [.trim, .eva] reportFields s (solverShow v d s) := solverShow_only sources s
  obtain ⟨age, shownOwn⟩ := solverShow_trim (v := v) sources s
  obtain ⟨toStaged, ⟨g, own⟩, pend⟩ := solverStage_does d (solverShow v d s)
  rw [shownOwn] at own
  generalize solverStage d (solverShow v d s) = staged at *
  generalize solverShow v d s = shown at *
  have toEnd : Only [.trim] _ staged (trimEnd d.outcome staged) := trimEnd_only d.outcome staged
  have same {f : Fld} (k : f.key ∉ reportFields.map (·.key)) (k' : f.key ∉ stageFields.map (·.key)) : rget staged f = rget s f := by
    rw [toStaged.get k', toShown.get k]
  have rests : RunRests s d.outcome (trimEnd d.outcome staged) := runRests_trimEnd small (same (by decide) (by decide)) (same (by decide) (by decide))
  have state : trimState (trimEnd d.outcome staged) = 3 := by rw [trimState_trimEnd, trimRest_of_some (by rw [own]; rfl)]
  obtain ⟨due, endOwn⟩ := trimEnd_trim d.outcome staged
  generalize trimEnd d.outcome staged = ended at *
  rw [solverArm_hold (by rw [endOwn, trimRested, own, held])] at acts
  subst acts
  have pendEnd : Pends pTRIM 1 ended := pend.only toEnd (by decide)
  refine ⟨rests, state, ?_, pendEnd, ?_⟩
  · show (ended.trim.staged.map _).isSome = true
    rw [endOwn, trimRested, own]
    rfl
  · have toShown' : Within [.trim, .nibs, .queues, .eva] [pTRIM, pNIB, pEXC, pQUE] s shown := toShown.withinPages (by simp) (by decide)
    have toStaged' : Within [.trim, .nibs, .queues, .eva] [pTRIM, pNIB, pEXC, pQUE] shown staged := toStaged.withinPages (by simp) (by decide)
    have toEnd' : Within [.trim, .nibs, .queues, .eva] [pTRIM, pNIB, pEXC, pQUE] staged ended :=
      toEnd.withinPages (by simp) (List.Subset.trans endFields_pages (by simp))
    exact ((toShown'.seq toStaged').seq toEnd').seq ((trim_only _ ended).withinPages (by simp) (by simp))

/-- A run that ends without staging: what was staged before stays so. -/
theorem ending_rests {s x : State} {o : Nat} (small : o < 8) (cause : rget x F.TRIM_STATUS.CAUSE = rget s F.TRIM_STATUS.CAUSE)
    (stroke : strokeNow x = strokeNow s) (staged : x.trim.staged = s.trim.staged) :
    RunRests s o (trimEnd o x) ∧ trimState (trimEnd o x) = (if s.trim.staged.isSome then 3 else 0)
      ∧ (trimEnd o x).trim.staged.isSome = s.trim.staged.isSome := by
  obtain ⟨due, own⟩ := trimEnd_trim o x
  refine ⟨runRests_trimEnd small cause stroke, ?_, ?_⟩
  · rw [trimState_trimEnd, trimRest, staged]
  · rw [own, trimRested, staged, Option.isSome_map]

/-- A run that is rejected as a whole: its report, SRC[4] pending. -/
theorem rejected_shows {v : Solved} {d : Verdict} (sources : ∀ r ∈ d.excs, r.src < 16) (s : State) :
    Only [.trim, .eva] reportFields s (raise pTRIM 4 (solverShow v d s)) ∧ (raise pTRIM 4 (solverShow v d s)).trim.staged = s.trim.staged
      ∧ Pends pTRIM 4 (raise pTRIM 4 (solverShow v d s)) := by
  obtain ⟨age, own⟩ := solverShow_trim (v := v) sources s
  refine ⟨((solverShow_only sources s).trans (raise_only _ _ _)).mono (by simp) (by simp [reportFields, List.range_succ]), ?_, raise_pends _ (by decide)⟩
  rw [(raise_only _ _ _).1 .trim (by simp), own]

theorem keepAll_staged (s t : State) : (keepAll s t).trim.staged = t.trim.staged := rfl

theorem keepAll_lastEnd (s t : State) : (keepAll s t).trim.lastEnd = t.trim.lastEnd := rfl
theorem keepAll_feOn (s t : State) : (keepAll s t).trim.feOn = t.trim.feOn := rfl

theorem runs_passing {s : State} {v : Solved} (cyc : Nat) (u : Up s) (solving : trimState s = 2) (passes : (verdict s v).outcome ≤ 2)
    (held : s.trim.hold = true) : Runs (.trimSolverDone v cyc) s (fun t => RunRests s (verdict s v).outcome t ∧ trimState t = 3
      ∧ t.trim.staged.isSome = true ∧ Pends pTRIM 1 t ∧ Within [.trim, .nibs, .queues, .eva] [pTRIM, pNIB, pEXC, pQUE] s t) := by
  obtain ⟨rested, state, staged, pend, within⟩ := passing_rests (v := v) (verdict_excs s v) (verdict_outcome_lt s v) held cyc rfl
  refine runs_act (f := solverDone v cyc) rfl u rfl ?_
  rw [solverDone_eq solving, if_pos passes]
  refine ⟨rested.keepAll, ?_, by rw [keepAll_staged, staged], Pends.keepAll (by decide) pend, within.keepAll⟩
  rw [trimState, rget_keepAll _ _ (by decide)]
  exact state

theorem runs_rejected {s : State} {v : Solved} (cyc : Nat) (u : Up s) (solving : trimState s = 2) (fails : 3 ≤ (verdict s v).outcome) :
    Runs (.trimSolverDone v cyc) s (fun t => RunRests s (verdict s v).outcome t ∧ trimState t = (if s.trim.staged.isSome then 3 else 0)
      ∧ t.trim.staged.isSome = s.trim.staged.isSome ∧ Pends pTRIM 4 t ∧ Within [.trim, .eva] [pTRIM, pEXC] s t) := by
  obtain ⟨report, same, pend⟩ := rejected_shows (v := v) (verdict_excs s v) s
  obtain ⟨rested, state, staged⟩ := ending_rests (verdict_outcome_lt s v) (report.get (by decide)) (report.get (by decide)) same
  have last := trimEnd_only (verdict s v).outcome (raise pTRIM 4 (solverShow v (verdict s v) s))
  refine runs_act (f := solverDone v cyc) rfl u rfl ?_
  rw [solverDone_eq solving, if_neg (Nat.not_le.mpr fails)]
  refine ⟨rested.keepAll, ?_, by rw [keepAll_staged, staged], Pends.keepAll (by decide) (pend.only last (by decide)), Within.keepAll ?_⟩
  · rw [trimState, rget_keepAll _ _ (by decide)]
    exact state
  · have report' : Within [.trim, .eva] [pTRIM, pEXC] s _ := report.withinPages (by simp) (by decide)
    exact report'.seq (last.withinPages (by simp) (List.Subset.trans endFields_pages (by simp)))

/-! ### ABORT -/

theorem dropStaged_only (s : State) : Only [.trim] [F.TRIM_STATUS.STATE] s (dropStaged s) :=
  Only.ite (fun _ => ((trim_only _ s).trans (Only.whenB (rset_only _ _ _))).mono (by simp) (by simp)) fun _ => (Only.refl s).mono (by simp) (by simp)

theorem dropStaged_trim (s : State) : (dropStaged s).trim = { s.trim with staged := none } := by
  unfold dropStaged
  split
  · cases rget s F.TRIM_STATUS.STATE == 3 <;> rfl
  · next none' =>
    rw [Bool.not_eq_true, Option.isSome_eq_false_iff, Option.isNone_iff_eq_none] at none'
    rw [← none']

/-- A run at rest whose staged results are dropped is idle. -/
theorem trimState_dropStaged {s : State} (rest : trimState s = trimRest s) : trimState (dropStaged s) = 0 := by
  unfold dropStaged
  split
  case isTrue staged =>
    have three : rget s F.TRIM_STATUS.STATE = 3 := rest.trans (trimRest_of_some staged)
    rw [three]
    exact rget_rset_same _ _ _
  case isFalse none' =>
    rw [rest, trimRest, if_neg none']

theorem trimAbortRun_eq (s : State) : trimAbortRun s = trimEnd 6 (raise pTRIM 6 (inc F.TRIM_COUNT.ABORTED s)) := rfl

theorem RunRests.dropStaged {s t : State} {o : Nat} (h : RunRests s o t) : RunRests s o (Machine.dropStaged t) := by
  obtain ⟨outcome, last, cause, stroke, fe⟩ := h
  have only := dropStaged_only t
  refine ⟨by rwa [only.get (by decide)], by rwa [only.get (by decide)], by rwa [only.get (by decide)], ?_, ?_⟩
  · rw [dropStaged_trim]
    exact stroke
  · rw [dropStaged_trim]
    exact fe

/-- ABORT on a run whose set is not sealed: outcome 6, nothing staged. -/
theorem aborted_rests {s : State} (busy : trimBusy s = true) (open' : pageSealed s pTRIM = false) :
    (trimAbort s).trim.staged = none ∧ trimState (trimAbort s) = 0 ∧ RunRests s 6 (trimAbort s)
      ∧ rget (trimAbort s) F.TRIM_COUNT.ABORTED = min 65535 (rget s F.TRIM_COUNT.ABORTED + 1) ∧ Pends pTRIM 6 (trimAbort s)
      ∧ Within [.trim, .eva] [pTRIM] s (trimAbort s) := by
  have toRaised : Only [.eva] [F.TRIM_COUNT.ABORTED, F.EVT_PEND.PEND pTRIM] s (raise pTRIM 6 (inc F.TRIM_COUNT.ABORTED s)) :=
    ((inc_only _ s).trans (raise_only _ _ _)).mono (by simp) (by simp)
  have counted : rget (raise pTRIM 6 (inc F.TRIM_COUNT.ABORTED s)) F.TRIM_COUNT.ABORTED = min 65535 (rget s F.TRIM_COUNT.ABORTED + 1) := by
    rw [(raise_only _ _ _).get (by decide), rget_inc_same]
    rfl
  have pend : Pends pTRIM 6 (raise pTRIM 6 (inc F.TRIM_COUNT.ABORTED s)) := raise_pends _ (by decide)
  have toEnd := trimAbortRun_only s
  have acts : trimAbort s = dropStaged (trimAbortRun s) := by
    have still : pageSealed (trimAbortRun s) pTRIM = false := by
      rw [pageSealed, setOf, toEnd.get (by decide), commitSet, toEnd.1 .sets (by simp)]
      exact open'
    simp only [trimAbort, busy, if_true, dropUnsealed, still, Bool.false_eq_true, if_false]
  have abort := trimAbortRun_eq s
  generalize raise pTRIM 6 (inc F.TRIM_COUNT.ABORTED s) = raised at *
  have last : Only [.trim] _ raised (trimEnd 6 raised) := trimEnd_only 6 raised
  have rests : RunRests s 6 (trimEnd 6 raised) := runRests_trimEnd (by decide) (toRaised.get (by decide)) (toRaised.get (by decide))
  have state : trimState (trimEnd 6 raised) = trimRest (trimEnd 6 raised) := by
    obtain ⟨due, own⟩ := trimEnd_trim 6 raised
    rw [trimState_trimEnd, trimRest, trimRest, own, trimRested, Option.isSome_map]
  rw [acts, abort]
  have drop := dropStaged_only (trimEnd 6 raised)
  refine ⟨by rw [dropStaged_trim], trimState_dropStaged state, rests.dropStaged, ?_, (pend.only last (by decide)).only drop (by decide), ?_⟩
  · rw [drop.get (by decide), last.get (by decide), counted]
  · have toRaised' : Within [.trim, .eva] [pTRIM] s raised := toRaised.withinPages (by simp) (by decide)
    have last' : Within [.trim, .eva] [pTRIM] raised (trimEnd 6 raised) := last.withinPages (by simp) endFields_pages
    exact (toRaised'.seq last').seq (drop.withinPages (by simp) (by decide))

/-- Settles O27: each event of a run acts by the lemma named for it. -/
theorem trimRuns : Obligations.TrimRuns := by
  intro s r w cyc cause v u off rests o
  refine ⟨fun due small => runs_trimStart u due small, fun running fe done => ?_, fun running nibs fe => ?_, fun solving passes held => ?_,
    fun solving fails => ?_, fun served noGo busy open' => ?_⟩
  case refine_1 =>
    have acts : trimFeEnd s = { s with trim := { s.trim with feOn := false } } := by rw [trimFeEnd, if_pos ⟨running, fe, done⟩]
    refine runs_act (f := trimFeEnd) rfl u rfl ?_
    rw [acts]
    exact ⟨rfl, (trim_only _ s).keepAll⟩
  case refine_2 =>
    have acts : trimRunEnd s = rset F.TRIM_STATUS.STATE 2 { s with trim := { s.trim with feOn := false } } := by
      rw [trimRunEnd, if_pos ⟨running, nibs, fe⟩]
    refine runs_act (f := trimRunEnd) rfl u rfl ?_
    rw [acts]
    refine ⟨?_, rfl, (((trim_only _ s).trans (rset_only _ _ _)).mono (by simp) (by simp)).keepAll⟩
    rw [trimState, rget_keepAll _ _ (by decide), rget_rset_same]
    rfl
  case refine_3 => exact runs_passing cyc u solving passes held
  case refine_4 => exact runs_rejected cyc u solving fails
  case refine_5 =>
    refine runs_plain (v := wordWith F.TRIM_CTRL.ABORT 1 w) rfl rfl served (by decide) fun t st => ?_
    have noGo' : bitSet (wordWith F.TRIM_CTRL.ABORT 1 w % 2 ^ 64) 0 = false :=
      (bitSet_wordWith_other 1 w (by decide) (by decide) (.inl (by decide))).trans noGo
    have abort : bitSet (wordWith F.TRIM_CTRL.ABORT 1 w % 2 ^ 64) 1 = true := bitSet_wordWith_one w rfl rfl
    have acts : pageEffect r (regOff F.TRIM_CTRL.ABORT) (wordWith F.TRIM_CTRL.ABORT 1 w % 2 ^ 64) (accessBegins r.who s) t = trimAbort t := by
      show trimEffect 0x80 _ t = _
      rw [trimEffect, if_pos rfl, noGo', abort]
      rfl
    have same {f : Fld} (k : f.key ∉ (rowFields (regOff F.TRIM_CTRL.ABORT)).map (·.key)) (k' : f.key % 32768 ≠ 243) : rget t f = rget s f := st.get k k'
    have busy' : trimBusy t = true := by
      rw [trimBusy, trimState, same (by decide) (by decide)]
      exact busy
    have stillOpen : pageSealed t pTRIM = false := by
      rw [pageSealed, setOf, same (by decide) (by decide), commitSet, st.2.2 .sets (by simp) (by simp)]
      exact open'
    obtain ⟨none', state, rested, count, pend, within⟩ := aborted_rests busy' stillOpen
    obtain ⟨outcome, last, causeEq, stroke, fe⟩ := rested
    have strokeEq : strokeNow t = strokeNow s := same (by decide) (by decide)
    rw [acts]
    refine ⟨?_, ?_, ⟨?_, ?_, ?_, ?_, ?_⟩, ?_, Pends.keepAll (by decide) pend, t, st, st.keepAllWithin within⟩
    · rw [keepAll_staged, none']
    · rw [trimState, rget_keepAll _ _ (by decide)]
      exact state
    · rw [rget_keepAll _ _ (by decide), outcome]
    · rw [rget_keepAll _ _ (by decide), last]
    · rw [rget_keepAll _ _ (by decide), causeEq, same (by decide) (by decide)]
    · rw [keepAll_lastEnd, stroke, strokeEq]
    · rw [keepAll_feOn, fe]
    · rw [rget_keepAll _ _ (by decide), count, same (by decide) (by decide)]

end Sys2Proof.Machine

/-! SUPPORT. A decided change of a nib takes effect (R85, R91, R92), and a ledger write ends (R88, R89). -/

namespace Sys2Proof.Machine

/-! ### The pool's registers -/

/-- The requests that wait and the entries on their way to the ledger stay. -/
def WaitsKept (s t : State) : Prop := t.nibs.retiring = s.nibs.retiring ∧ t.nibs.ledgerQ = s.nibs.ledgerQ

theorem WaitsKept.trans {s t u : State} (h : WaitsKept s t) (k : WaitsKept t u) : WaitsKept s u := ⟨k.1.trans h.1, k.2.trans h.2⟩

theorem WaitsKept.of_only {ps : List Part} {rs : List Fld} {s t : State} (o : Only ps rs s t) (k : Part.nibs ∉ ps) : WaitsKept s t := by
  have same : t.nibs = s.nibs := o.1 .nibs k
  exact ⟨by rw [same], by rw [same]⟩

/-- The fields that show the pool. -/
def poolFields : List Fld :=
  [F.EVT_PEND.PEND pNIB, F.EVT_PEND.PEND pTRIM, F.EVT_PEND.PEND pMON, F.NIB_STATE.LADDER_STROKE, F.NIB_STATE.SERVICEABLE, F.NIB_STATE.IN_SERVICE,
    F.NIB_STATE.ROUNDS, F.NIB_STATE.DUAL_ON, F.NIB_STATE.LADDER, F.NIB_STATE.KEPT, F.NIB_STATE.RESERVES, F.NIB_SLOTS.IDLE, F.NIB_SLOTS.REFG_RES,
    F.NIB_SLOTS.TRIM, F.NIB_SLOTS.SLOTS, F.NIB_SVC0.SVC_LO, F.NIB_SVC1.SVC_HI, F.TRIM_STATUS.STRETCH, F.MON_WEAR.NIB_STEP]

theorem poolFields_pages : poolFields.map pageOf ⊆ [pNIB, pTRIM, pMON] := by decide

/-- What a change of the pool raises. -/
def poolRaised (n step shed stretch : Nat) (dual : Bool) (s : State) : State :=
  s |> whenB (step != rget s F.NIB_STATE.LADDER) (fun s => s |> raise pNIB 2 |> rset F.NIB_STATE.LADDER_STROKE n)
    |> whenB (shed != s.nibs.shed) (raise pNIB 5) |> whenB (dual != on s F.NIB_STATE.DUAL_ON) (raise pNIB 6)
    |> whenB (stretch != rget s F.TRIM_STATUS.STRETCH) (raise pTRIM 5)

/-- The pool's counts are shown. -/
def poolCounted (t : SlotTable) (step : Nat) (s : State) : State :=
  s |> rset F.NIB_STATE.SERVICEABLE t.n |> rset F.NIB_STATE.IN_SERVICE t.nin |> rset F.NIB_STATE.ROUNDS t.rounds
    |> rset F.NIB_STATE.DUAL_ON t.dual.toNat |> rset F.NIB_STATE.LADDER step |> rset F.NIB_STATE.KEPT t.kept
    |> rset F.NIB_STATE.RESERVES (t.n - t.nin)

/-- The slot table is shown, with the nibs in use, the stretch and the ladder step. -/
def poolTabled (t : SlotTable) (lo hi stretch step : Nat) (s : State) : State :=
  s |> rset F.NIB_SLOTS.IDLE (min 0xFFFF t.idle) |> rset F.NIB_SLOTS.REFG_RES t.refgRes
    |> rset F.NIB_SLOTS.TRIM (min 0xFFFF t.trim) |> rset F.NIB_SLOTS.SLOTS (min 0xFFFF t.slots)
    |> rset F.NIB_SVC0.SVC_LO lo |> rset F.NIB_SVC1.SVC_HI hi |> rset F.TRIM_STATUS.STRETCH stretch |> wear F.MON_WEAR.NIB_STEP step

theorem poolRaised_only (n step shed stretch : Nat) (dual : Bool) (s : State) : Only [.eva] poolFields s (poolRaised n step shed stretch dual s) :=
  ((((Only.whenB ((raise_only _ _ s).trans (rset_only _ _ _))).trans (Only.whenB (raise_only _ _ _))).trans (Only.whenB (raise_only _ _ _))).trans
    (Only.whenB (raise_only _ _ _))).mono (by simp) (by simp [poolFields])

theorem poolCounted_only (t : SlotTable) (step : Nat) (s : State) : Only [] poolFields s (poolCounted t step s) :=
  (((((((rset_only _ _ s).trans (rset_only _ _ _)).trans (rset_only _ _ _)).trans (rset_only _ _ _)).trans (rset_only _ _ _)).trans
    (rset_only _ _ _)).trans (rset_only _ _ _)).mono (by simp) (by simp [poolFields])

theorem poolTabled_only (t : SlotTable) (lo hi stretch step : Nat) (s : State) : Only [.eva] poolFields s (poolTabled t lo hi stretch step s) :=
  ((((((((rset_only _ _ s).trans (rset_only _ _ _)).trans (rset_only _ _ _)).trans (rset_only _ _ _)).trans (rset_only _ _ _)).trans
    (rset_only _ _ _)).trans (rset_only _ _ _)).trans (wear_only _ _ _)).mono (by simp) (by simp [poolFields])

/-- The nibs in service or in reserve, as SVC_LO and SVC_HI show them. -/
def svcLo (s : State) : Nat := bitsOf (indicesWhere 64 (fun i => nibState s i == 0 || nibState s i == 1))
def svcHi (s : State) : Nat := bitsOf (indicesWhere 8 (fun i => nibState s (64 + i) == 0 || nibState s (64 + i) == 1))

/-- What the pool's registers show before the map of the groups shed is kept. -/
def poolShown (n : Nat) (t : SlotTable) (step shed stretch lo hi : Nat) (s : State) : State :=
  s |> poolRaised n step shed stretch t.dual |> poolCounted t step |> poolTabled t lo hi stretch step

theorem poolShown_only (n : Nat) (t : SlotTable) (step shed stretch lo hi : Nat) (s : State) :
    Only [.eva] poolFields s (poolShown n t step shed stretch lo hi s) :=
  (((poolRaised_only _ _ _ _ _ s).trans (poolCounted_only _ _ _)).trans (poolTabled_only _ _ _ _ _ _)).mono (by simp) (by simp)

/-- The map of the groups shed is kept. -/
def shedKept (shed : Nat) (s : State) : State := { s with nibs := { s.nibs with shed := shed } }

theorem shedKept_waits (shed : Nat) (s : State) : WaitsKept s (shedKept shed s) := ⟨rfl, rfl⟩

theorem showPool_eq (n : Nat) (s : State) : showPool n s =
    shedKept (shedMask s (slotTable s)) (poolShown n (slotTable s) (ladderStep s (slotTable s)) (shedMask s (slotTable s))
      (stretchOf (mLive s) (slotTable s).trim) (svcLo s) (svcHi s) s) := by
  simp only [showPool, shedKept, poolShown, poolTabled, poolCounted, poolRaised, svcLo, svcHi]

theorem showPool_only (n : Nat) (s : State) : Only [.nibs, .eva] poolFields s (showPool n s) := by
  rw [showPool_eq]
  exact ((poolShown_only _ _ _ _ _ _ _ s).trans (nibs_only _ _)).mono (by simp) (by simp)

theorem showPool_waits (n : Nat) (s : State) : WaitsKept s (showPool n s) := by
  rw [showPool_eq]
  exact WaitsKept.trans (.of_only (poolShown_only _ _ _ _ _ _ _ s) (by simp)) (shedKept_waits _ _)

/-! ### Reserves that join -/

/-- A nib that joins with its seeds asks for a trim run. -/
def seedsJoin (s : State) : State := { s with nibs := { s.nibs with joinSeeded := true } }

/-- A reserve joins the service list. -/
def joinOne (r : Nat) (s : State) : State :=
  s |> rset (F.NIB_STAT.STATE r) 0 |> raise pNIB 1 |> whenB (on s (F.NIB_STAT.SEEDED r)) seedsJoin

theorem seedsJoin_only (s : State) : Only [.nibs] [] s (seedsJoin s) := nibs_only _ s

theorem fillService_succ (fuel : Nat) (s : State) : fillService (fuel + 1) s = s
    ∨ ∃ r, r ∈ reserveList s ∧ fillService (fuel + 1) s = fillService fuel (joinOne r s) := by
  rw [fillService]
  split
  case h_1 => exact .inl rfl
  case h_2 r _ e =>
    split
    · exact .inr ⟨r, by rw [e]; exact List.mem_cons_self, rfl⟩
    · exact .inl rfl

theorem mem_reserveList {s : State} {r : Nat} (k : r ∈ reserveList s) : r < 72 ∧ nibState s r = 1 := by
  unfold reserveList at k
  split at k
  · simpa [mem_indicesWhere] using k
  · exact absurd k List.not_mem_nil

theorem joinOne_only (r : Nat) (s : State) : Only [.nibs, .eva] [F.NIB_STAT.STATE r, F.EVT_PEND.PEND pNIB] s (joinOne r s) :=
  (((rset_only _ _ s).trans (raise_only _ _ _)).trans (Only.whenB (seedsJoin_only _))).mono (by simp) (by simp)

theorem joinOne_waits (r : Nat) (s : State) : WaitsKept s (joinOne r s) := by
  have raised : WaitsKept s (raise pNIB 1 (rset (F.NIB_STAT.STATE r) 0 s)) :=
    WaitsKept.of_only ((rset_only (F.NIB_STAT.STATE r) 0 s).trans (raise_only _ _ _)) (by simp)
  refine raised.trans ?_
  unfold joinOne
  cases on s (F.NIB_STAT.SEEDED r)
  · exact ⟨rfl, rfl⟩
  · exact ⟨rfl, rfl⟩

theorem nibState_joinOne {r n : Nat} (small : n < 72) (s : State) : nibState (joinOne r s) n = if n = r then 0 else nibState s n := by
  have late : Only [.nibs, .eva] [F.EVT_PEND.PEND pNIB] (rset (F.NIB_STAT.STATE r) 0 s) (joinOne r s) :=
    ((raise_only _ _ _).trans (Only.whenB (seedsJoin_only _))).mono (by simp) (by simp)
  rw [nibState, late.get (by simp; omega)]
  split
  case isTrue e => rw [e, rget_rset_same]; rfl
  case isFalse e => exact rget_rset_other _ _ (by simp; omega)

/-- Filling the list changes the states of reserves only, and makes them 0. -/
theorem nibState_fillService {n : Nat} (small : n < 72) (fuel : Nat) (s : State) :
    nibState (fillService fuel s) n = nibState s n ∨ (nibState s n = 1 ∧ nibState (fillService fuel s) n = 0) := by
  induction fuel generalizing s with
  | zero => exact .inl rfl
  | succ fuel ih =>
    rcases fillService_succ fuel s with e | ⟨r, reserve, e⟩
    · exact .inl (by rw [e])
    · have joined := nibState_joinOne (r := r) small s
      rw [e]
      by_cases same : n = r
      · rw [if_pos same] at joined
        refine .inr ⟨same ▸ (mem_reserveList reserve).2, ?_⟩
        rcases ih (joinOne r s) with k | ⟨one, -⟩
        · rw [k, joined]
        · omega
      · rw [if_neg same] at joined
        rw [← joined]
        exact ih _

theorem fillService_within (fuel : Nat) (s : State) : Within [.nibs, .eva] [pNIB] s (fillService fuel s) := by
  induction fuel generalizing s with
  | zero => exact Within.nothing s
  | succ fuel ih =>
    rcases fillService_succ fuel s with e | ⟨r, reserve, e⟩
    · rw [e]
      exact Within.nothing s
    · have small := (mem_reserveList reserve).1
      rw [e]
      exact ((joinOne_only r s).withinPages (by simp) (by simp [pageOf, strokeBase, pNIB]; omega)).seq (ih _)

theorem rget_fillService {f : Fld} (apart : f.key ≠ (F.EVT_PEND.PEND pNIB).key) (notState : ∀ r < 72, f.key ≠ (F.NIB_STAT.STATE r).key) (fuel : Nat)
    (s : State) : rget (fillService fuel s) f = rget s f := by
  induction fuel generalizing s with
  | zero => rfl
  | succ fuel ih =>
    rcases fillService_succ fuel s with e | ⟨r, reserve, e⟩
    · rw [e]
    · rw [e, ih, (joinOne_only r s).get]
      simp only [List.map_cons, List.map_nil, List.mem_cons, List.not_mem_nil, or_false, not_or]
      exact ⟨notState r (mem_reserveList reserve).1, apart⟩

theorem fillService_waits (fuel : Nat) (s : State) : WaitsKept s (fillService fuel s) := by
  induction fuel generalizing s with
  | zero => exact ⟨rfl, rfl⟩
  | succ fuel ih =>
    rcases fillService_succ fuel s with e | ⟨r, -, e⟩
    · rw [e]
      exact ⟨rfl, rfl⟩
    · rw [e]
      exact (joinOne_waits r s).trans (ih _)

/-! ### Groups that rejoin, and trim -/

theorem setChain_only (c : Nat) (x : Chain) (s : State) : Only [.filt] [] s (setChain c x s) := filt_only _ s
theorem setFlour_only (c : Nat) (x : Option Flourish) (s : State) : Only [.filt] [] s (setFlour c x s) := filt_only _ s

theorem setQueued_only (c : Nat) (x : Option (Nat × Nat)) (s : State) : Only [.filt] [F.FLT_QUEUE.QUEUED (c / 64)] s (setQueued c x s) := by
  unfold setQueued
  cases x
  · exact ((filt_only _ s).trans (clrBitOf_only _ _ _)).mono (by simp) (by simp)
  · exact ((filt_only _ s).trans (setBitOf_only _ _ _)).mono (by simp) (by simp)

theorem flrLive_only (c e : Nat) (s : State) : Only [.shad] [fltDesc c] s (flrLive c e s) :=
  ((rset_only _ _ s).trans (Only.whenB (sset_only _ _ _))).mono (by simp) (by simp)

theorem flrEnd_only (c : Nat) (f : Flourish) (s : State) :
    Only [.filt, .shad] [fltDesc c, F.FLT_PRIME.PRIME (c / 64), F.FLT_FADE.FADE (c / 64)] s (flrEnd c f s) :=
  (((((flrLive_only _ _ s).trans (setChain_only _ _ _)).trans (setFlour_only _ _ _)).trans (clrBitOf_only _ _ _)).trans (clrBitOf_only _ _ _)).mono
    (by simp) (by simp)

theorem flrStart_only (b c e len : Nat) (s : State) :
    Only [.filt, .eva] [F.FLT_PRIME.PRIME (c / 64), F.FLT_FADE.FADE (c / 64), F.EVT_PEND.PEND pFLT] s (flrStart b c e len s) :=
  ((((setFlour_only _ _ s).trans (setBitOf_only _ _ _)).trans (clrBitOf_only _ _ _)).trans (raise_only _ _ _)).mono (by simp) (by simp)

theorem flrRefuse_only (n c reason : Nat) (s : State) : Only [.eva] [F.FLT_REFUSED.REFUSED (c / 64), F.FLT_REFUSE.CHAN, F.FLT_REFUSE.REASON,
    F.FLT_REFUSE.KIND, F.FLT_REFUSE.BY_SYS, F.FLT_REFUSE.STROKE_LO, F.FLT_COUNT.FLR_REFUSED, F.EVT_PEND.PEND pFLT] s (flrRefuse n c reason s) :=
  ((((((((setBitOf_only _ _ s).trans (rset_only _ _ _)).trans (rset_only _ _ _)).trans (rset_only _ _ _)).trans (rset_only _ _ _)).trans
    (rset_only _ _ _)).trans (inc_only _ _)).trans (raise_only _ _ _)).mono (by simp) (by simp)

/-- The fields of channel `c`'s flourishes and of the refusals of FLT. -/
def flrFields (c : Nat) : List Fld :=
  [fltDesc c, F.FLT_PRIME.PRIME (c / 64), F.FLT_FADE.FADE (c / 64), F.FLT_QUEUE.QUEUED (c / 64), F.FLT_REFUSED.REFUSED (c / 64), F.FLT_REFUSE.CHAN,
    F.FLT_REFUSE.REASON, F.FLT_REFUSE.KIND, F.FLT_REFUSE.BY_SYS, F.FLT_REFUSE.STROKE_LO, F.FLT_COUNT.FLR_REFUSED, F.EVT_PEND.PEND pFLT]

theorem flrFields_pages {c : Nat} (small : c < 512) : (flrFields c).map pageOf ⊆ [pFLT] := by
  simp [flrFields, pageOf, strokeBase, pFLT]
  omega

theorem flrQueued_only (n c : Nat) (s : State) : Only [.filt, .eva] (flrFields c) s (flrQueued n c s) := by
  unfold flrQueued
  split
  case h_1 => exact (Only.refl s).mono (by simp) (by simp)
  case h_2 =>
    dsimp only
    split
    · exact ((setQueued_only _ _ s).trans (flrStart_only _ _ _ _ _)).mono (by simp) (by simp [flrFields])
    · exact ((setQueued_only _ _ s).trans (flrRefuse_only _ _ _ _)).mono (by simp) (by simp [flrFields])

theorem rejoinChan_only (n c : Nat) (s : State) : Only [.filt, .shad, .eva] (flrFields c) s (rejoinChan n c s) := by
  unfold rejoinChan
  split
  · exact (((flrEnd_only _ _ s).trans (setChain_only _ _ _)).trans (flrQueued_only _ _ _)).mono (by simp) (by simp [flrFields])
  · exact ((setChain_only _ _ s).trans (flrQueued_only _ _ _)).mono (by simp) (by simp [flrFields])

theorem trimTrigger_nibs (cause : Nat) (s : State) : (trimTrigger cause s).nibs = s.nibs := (trimTrigger_only cause s).1 .nibs (by simp)

/-- The reserves' seeds ask for a run. -/
def seedsAsk (s : State) : State := if s.nibs.joinSeeded then trimTrigger 5 { s with nibs := { s.nibs with joinSeeded := false } } else s

theorem trimPool_eq (s : State) : trimPool s = if trimBusy (seedsAsk s) && nServ (seedsAsk s) == 0 then trimAbortRun (seedsAsk s) else seedsAsk s := rfl

theorem seedsAsk_only (s : State) : Only [.nibs, .trim] [F.TRIM_STATUS.PENDING] s (seedsAsk s) :=
  Only.ite (fun _ => ((nibs_only _ s).trans (trimTrigger_only _ _)).mono (by simp) (by simp)) fun _ => (Only.refl s).mono (by simp) (by simp)

theorem seedsAsk_waits (s : State) : WaitsKept s (seedsAsk s) := by
  unfold seedsAsk
  split
  · unfold WaitsKept
    rw [trimTrigger_nibs]
    exact ⟨rfl, rfl⟩
  · exact ⟨rfl, rfl⟩

theorem trimPool_within (s : State) : Within [.nibs, .trim, .eva] [pTRIM] s (trimPool s) := by
  have asked : Within [.nibs, .trim, .eva] [pTRIM] s (seedsAsk s) := (seedsAsk_only s).withinPages (by simp) (by decide)
  rw [trimPool_eq]
  exact asked.seq (Within.ite (fun _ => (trimAbortRun_only _).withinPages (by simp) (by decide)) fun _ => Within.nothing _)

theorem trimPool_waits (s : State) : WaitsKept s (trimPool s) := by
  rw [trimPool_eq]
  split
  · exact (seedsAsk_waits s).trans (.of_only (trimAbortRun_only _) (by simp))
  · exact seedsAsk_waits s

/-- The channels of the groups that rejoin. -/
def groupsRejoin (n : Nat) (gs : List Nat) (s : State) : State := forAll gs (fun g => forAll (List.range 16) (fun i => rejoinChan n (16 * g + i))) s

theorem poolChanged_eq (n : Nat) (before s : State) : poolChanged n before s =
    trimPool (groupsRejoin n (indicesWhere 32 (fun g => bitSet before.nibs.shed g && !bitSet s.nibs.shed g)) s) := rfl

theorem groupsRejoin_within {n : Nat} {gs : List Nat} (small : ∀ g ∈ gs, g < 32) (s : State) :
    Within [.filt, .shad, .eva] [pFLT] s (groupsRejoin n gs s) := by
  refine Within.forAll _ (fun g hg s => Within.forAll _ (fun i hi s => (rejoinChan_only _ _ s).withinPages (by simp) (flrFields_pages ?_)) s) s
  have := small g hg
  have := List.mem_range.mp hi
  omega

theorem groupsRejoin_nibs (n : Nat) (gs : List Nat) (s : State) : (groupsRejoin n gs s).nibs = s.nibs :=
  forAll_keeps State.nibs _ (fun g s => forAll_keeps State.nibs _ (fun i s => (rejoinChan_only _ _ s).1 .nibs (by simp)) _ s) gs s

theorem poolChanged_within (n : Nat) (before s : State) : Within [.nibs, .filt, .trim, .eva, .shad] [pTRIM, pFLT] s (poolChanged n before s) := by
  rw [poolChanged_eq]
  refine ((groupsRejoin_within (fun g hg => (mem_indicesWhere.mp hg).1) s).mono (by simp) (by simp)).seq ((trimPool_within _).mono (by simp) (by simp))

theorem poolChanged_waits (n : Nat) (before s : State) : WaitsKept s (poolChanged n before s) := by
  rw [poolChanged_eq]
  refine WaitsKept.trans ?_ (trimPool_waits _)
  unfold WaitsKept
  rw [groupsRejoin_nibs]
  exact ⟨rfl, rfl⟩

/-! ### The effect -/

/-- What follows a change of a nib's state: reserves join, the pool is shown, and what it brings. -/
def poolSettled (n : Nat) (before s : State) : State := s |> fillService 72 |> showPool n |> poolChanged n before

theorem poolSettled_within (n : Nat) (before s : State) :
    Within [.nibs, .filt, .trim, .eva, .shad] [pNIB, pTRIM, pFLT, pMON] s (poolSettled n before s) := by
  have filled : Within [.nibs, .filt, .trim, .eva, .shad] [pNIB, pTRIM, pFLT, pMON] s (fillService 72 s) :=
    (fillService_within 72 s).mono (by simp) (by simp)
  have shown : Within [.nibs, .filt, .trim, .eva, .shad] [pNIB, pTRIM, pFLT, pMON] (fillService 72 s) (showPool n (fillService 72 s)) :=
    (showPool_only n _).withinPages (by simp) (List.Subset.trans poolFields_pages (by simp))
  exact (filled.seq shown).seq ((poolChanged_within n before _).mono (by simp) (by simp))

theorem poolSettled_waits (n : Nat) (before s : State) : WaitsKept s (poolSettled n before s) :=
  ((fillService_waits 72 s).trans (showPool_waits n _)).trans (poolChanged_waits n before _)

/-- On NIB's page the settling changes what shows the pool and the states of reserves that join. -/
theorem rget_poolSettled {f : Fld} (page : pageOf f = pNIB) (hidden : f.key ∉ poolFields.map (·.key)) (n : Nat) (before s : State) :
    rget (poolSettled n before s) f = rget (fillService 72 s) f := by
  rw [poolSettled, (poolChanged_within n before _).get (by rw [page]; decide), (showPool_only n _).get hidden]

theorem nibState_poolSettled {nib : Nat} (small : nib < 72) (n : Nat) (before s : State) : nibState (poolSettled n before s) nib = nibState s nib
    ∨ (nibState s nib = 1 ∧ nibState (poolSettled n before s) nib = 0) := by
  have same : nibState (poolSettled n before s) nib = nibState (fillService 72 s) nib :=
    rget_poolSettled (by simp [pageOf, strokeBase, pNIB]; omega) (by simp [poolFields]; omega) n before s
  rw [same]
  exact nibState_fillService small 72 s

/-- A request that has been taken off the list of those that wait. -/
def requestTaken (nib : Nat) (s : State) : State := { s with nibs := { s.nibs with retiring := s.nibs.retiring.filter (fun x => x.1 != nib) } }

theorem requestTaken_only (nib : Nat) (s : State) : Only [.nibs] [] s (requestTaken nib s) := nibs_only _ s

/-- A nib leaves the pool for good: its reason, SRC[0] and its entry for the ledger. -/
def nibRetired (nib reason : Nat) (s : State) : State :=
  s |> requestTaken nib |> rset (F.NIB_STAT.STATE nib) 3 |> rset (F.NIB_STAT.REASON nib) reason |> raise pNIB 0 |> ledgerPut 1 nib reason

theorem takes_retire {s : State} {nib reason : Nat} (waits : s.nibs.retiring.find? (fun x => x.1 == nib) = some (nib, 1, reason))
    (live : nibState s nib ≠ 3) : nibTakesEffect nib s = poolSettled (nextStroke s) s (nibRetired nib reason s) := by
  have live' : nibState (requestTaken nib s) nib ≠ 3 := live
  simp only [nibTakesEffect, waits, nibEffect]
  rw [if_pos ⟨trivial, live'⟩]
  rfl

theorem takes_park {s : State} {nib : Nat} (waits : s.nibs.retiring.find? (fun x => x.1 == nib) = some (nib, 2, 0)) (low : nibState s nib < 2) :
    nibTakesEffect nib s = poolSettled (nextStroke s) s (rset (F.NIB_STAT.STATE nib) 2 (requestTaken nib s)) := by
  have low' : nibState (requestTaken nib s) nib < 2 := low
  simp only [nibTakesEffect, waits, nibEffect]
  rw [if_neg (by simp), if_pos ⟨trivial, low'⟩]
  rfl

theorem takes_unpark {s : State} {nib : Nat} (waits : s.nibs.retiring.find? (fun x => x.1 == nib) = some (nib, 3, 0)) (parked : nibState s nib = 2) :
    nibTakesEffect nib s = poolSettled (nextStroke s) s (rset (F.NIB_STAT.STATE nib) 1 (requestTaken nib s)) := by
  have parked' : nibState (requestTaken nib s) nib = 2 := parked
  simp only [nibTakesEffect, waits, nibEffect]
  rw [if_neg (by simp), if_neg (by simp), if_pos ⟨trivial, parked'⟩]
  rfl

/-- An entry depends on the die's temperature and the time alone. -/
theorem ledgerEntry_congr {s t : State} (kind unit reason : Nat) (nibs : t.nibs.dxHas = s.nibs.dxHas ∧ t.nibs.dxVal = s.nibs.dxVal)
    (tsu : t.tsu = s.tsu) : ledgerEntry kind unit reason t = ledgerEntry kind unit reason s := by
  simp only [ledgerEntry, dieTemp, ledgerSecs, nibs.1, nibs.2, tsu]

theorem nibRetired_only (nib reason : Nat) (s : State) :
    Only [.nibs, .eva] [F.NIB_STAT.STATE nib, F.NIB_STAT.REASON nib, F.EVT_PEND.PEND pNIB] s (nibRetired nib reason s) :=
  (((((requestTaken_only nib s).trans (rset_only _ _ _)).trans (rset_only _ _ _)).trans (raise_only _ _ _)).trans (nibs_only _ _)).mono
    (by simp) (by simp)

theorem nibRetired_waits (nib reason : Nat) (s : State) : (nibRetired nib reason s).nibs.retiring = s.nibs.retiring.filter (fun x => x.1 != nib)
    ∧ (nibRetired nib reason s).nibs.ledgerQ = s.nibs.ledgerQ ++ [{ entry := ledgerEntry 1 nib reason s }] := by
  have raised := raise_only pNIB 0 (rset (F.NIB_STAT.REASON nib) reason (rset (F.NIB_STAT.STATE nib) 3 (requestTaken nib s)))
  have nibsEq := raised.1 .nibs (by simp)
  have tsuEq := raised.1 .tsu (by simp)
  simp only [Part.same, rset_nibs, rset_tsu] at nibsEq tsuEq
  unfold nibRetired ledgerPut
  dsimp only
  rw [ledgerEntry_congr (s := s) 1 nib reason ⟨by rw [nibsEq]; rfl, by rw [nibsEq]; rfl⟩ (by rw [tsuEq]; rfl), nibsEq]
  exact ⟨rfl, rfl⟩

theorem rget_nibRetired (nib reason : Nat) (s : State) : nibState (nibRetired nib reason s) nib = 3
    ∧ rget (nibRetired nib reason s) (F.NIB_STAT.REASON nib) = reason % 2 ^ 4 := by
  have late (x : State) : Only [.nibs, .eva] [F.EVT_PEND.PEND pNIB] x (ledgerPut 1 nib reason (raise pNIB 0 x)) :=
    ((raise_only _ _ x).trans (nibs_only _ _)).mono (by simp) (by simp)
  constructor
  · rw [nibState, nibRetired, (late _).get (by simp [pNIB]; omega), rget_rset_other _ _ (by simp), rget_rset_same]
    rfl
  · rw [nibRetired, (late _).get (by simp [pNIB]; omega), rget_rset_same]

/-- A change of a nib acts within the frame of a flourish's end, which keeps what the change leaves of the pool. -/
theorem runs_nibTakesEffect {s : State} {nib : Nat} {P : State → Prop} (u : Up s) (small : nib < 72) (p : P (keepFlour s (nibTakesEffect nib s))) :
    Runs (.nibRetireEffect nib) s P :=
  runs_actIn (keep := keepFlour) (f := nibTakesEffect nib) rfl u (decide_eq_true small) p

theorem keepFlour_waits (s t : State) : WaitsKept t (keepFlour s t) := ⟨rfl, rfl⟩
theorem nibState_keepFlour (s t : State) (nib : Nat) : nibState (keepFlour s t) nib = nibState t nib := rfl
theorem rget_keepFlour (s t : State) (f : Fld) : rget (keepFlour s t) f = rget t f := rfl

/-- The NIB page's fields of one nib stand on its page. -/
theorem nibStat_page {nib : Nat} (small : nib < 72) : pageOf (F.NIB_STAT.STATE nib) = pNIB ∧ pageOf (F.NIB_STAT.REASON nib) = pNIB := by
  simp [pageOf, strokeBase, pNIB]
  omega

/-- A change of a nib that only moves its state: what waits otherwise stays. -/
theorem stateMoved {s : State} {nib v : Nat} (small : nib < 72) (n : Nat) :
    let t := keepFlour s (poolSettled n s (rset (F.NIB_STAT.STATE nib) v (requestTaken nib s)))
    (nibState t nib = v % 4 ∨ (v % 4 = 1 ∧ nibState t nib = 0)) ∧ t.nibs.retiring = s.nibs.retiring.filter (fun x => x.1 != nib)
      ∧ t.nibs.ledgerQ = s.nibs.ledgerQ ∧ Within [.nibs, .filt, .trim, .eva, .shad] [pNIB, pTRIM, pFLT, pMON] s t := by
  intro t
  set moved := rset (F.NIB_STAT.STATE nib) v (requestTaken nib s) with movedEq
  have toMoved : Only [.nibs] [F.NIB_STAT.STATE nib] s moved := ((requestTaken_only nib s).trans (rset_only _ _ _)).mono (by simp) (by simp)
  have value : nibState moved nib = v % 4 := rget_rset_same _ _ _
  obtain ⟨retiring, queue⟩ := (poolSettled_waits n s moved).trans (keepFlour_waits s _)
  refine ⟨?_, retiring, queue, ?_⟩
  · rw [← value]
    exact nibState_poolSettled small n s moved
  · have moved' : Within [.nibs, .filt, .trim, .eva, .shad] [pNIB, pTRIM, pFLT, pMON] s moved :=
      toMoved.withinPages (by simp) (by simp [(nibStat_page small).1])
    exact (moved'.seq (poolSettled_within n s moved)).keepFlour

/-! ### The ledger -/

/-- A ledger write ends within a frame that lets the ledger grow. -/
theorem runs_ledgerWriteDone {s : State} {v : Nat} {P : State → Prop} (u : Up s) (p : P (keepFuses s (ledgerDone v s))) :
    Runs (.ledgerWriteDone v) s P := runs_actIn (keep := keepFuses) (f := ledgerDone v) rfl u rfl p

theorem rget_keepFuses {s t : State} {f : Fld} (low : f.key < strokeBase) : rget (keepFuses s t) f = rget t f := by
  simp [rget, keepFuses, keepLive, keepTables, keepTime, keepPower, Nat.not_le.mpr low]

theorem ledgerTaken_only (v : Nat) (rest : List LedgerReq) (s : State) : Only [.nibs] [] s (ledgerTaken v rest s) := nibs_only _ s

theorem ledgerTaken_nibs {s : State} {v : Nat} {rest : List LedgerReq} (room : ledgerNext s.nibs.ledger < 512) :
    (ledgerTaken v rest s).nibs.ledger = mput zeroAt (ledgerNext s.nibs.ledger) (v % 2 ^ 64) s.nibs.ledger
      ∧ (ledgerTaken v rest s).nibs.ledgerQ = rest := by
  refine ⟨?_, rfl⟩
  show ledgerPlus v s.nibs.ledger = _
  rw [ledgerPlus, if_pos room]

theorem rget_ledgerShown_used (s : State) : rget (ledgerShown s) F.NIB_LEDGER_SEL.USED = ledgerNext s.nibs.ledger % 2 ^ 10 := by
  have last (x : State) : Only [.eva] [F.EVT_PEND.PEND pNIB] x (whenB (decide (512 ≤ ledgerNext s.nibs.ledger)) (raise pNIB 4) x) :=
    Only.whenB (raise_only _ _ x)
  rw [ledgerShown, (last _).get (by decide), showLedger, (wear_only _ _ _).get (by decide), (wear_only _ _ _).get (by decide),
    rget_rset_other _ _ (by decide), rget_rset_same]

/-- Settles O25: a change settles the pool by `poolSettled`, a ledger write by `ledgerDone_cons`. -/
theorem nibEffects : Obligations.NibEffects := by
  intro s nib reason v u small reasons
  refine ⟨fun waits live => ?_, fun waits low => ?_, fun waits parked => ?_, fun q rest waits room notEmpty fits => ?_,
    fun q rest waits room notEmpty differs first => ?_⟩
  case refine_1 =>
    refine runs_nibTakesEffect u small ?_
    rw [takes_retire waits live]
    obtain ⟨gone, why⟩ := rget_nibRetired nib reason s
    obtain ⟨taken, queued⟩ := nibRetired_waits nib reason s
    obtain ⟨retiring, queue⟩ := (poolSettled_waits (nextStroke s) s (nibRetired nib reason s)).trans (keepFlour_waits s _)
    refine ⟨?_, ?_, retiring.trans taken, queue.trans queued, ?_⟩
    · rw [nibState_keepFlour]
      rcases nibState_poolSettled small (nextStroke s) s (nibRetired nib reason s) with e | ⟨e, -⟩
      · rw [e, gone]
      · omega
    · rw [rget_keepFlour, rget_poolSettled (nibStat_page small).2 (by simp [poolFields]; omega),
        rget_fillService (by simp; omega) (by simp; omega), why]
      exact Nat.mod_eq_of_lt reasons
    · have retired : Within [.nibs, .filt, .trim, .eva, .shad] [pNIB, pTRIM, pFLT, pMON] s (nibRetired nib reason s) :=
        (nibRetired_only nib reason s).withinPages (by simp) (by simp [nibStat_page small]; decide)
      exact (retired.seq (poolSettled_within _ s _)).keepFlour
  case refine_2 =>
    refine runs_nibTakesEffect u small ?_
    rw [takes_park waits low]
    obtain ⟨state, retiring, queue, within⟩ := stateMoved (s := s) (v := 2) small (nextStroke s)
    exact ⟨by omega, retiring, queue, within⟩
  case refine_3 =>
    refine runs_nibTakesEffect u small ?_
    rw [takes_unpark waits parked]
    obtain ⟨state, retiring, queue, within⟩ := stateMoved (s := s) (v := 1) small (nextStroke s)
    exact ⟨by omega, retiring, queue, within⟩
  case refine_4 =>
    obtain ⟨ledger, queue⟩ := ledgerTaken_nibs (s := s) (v := q.entry) (rest := rest) room
    rw [Nat.mod_eq_of_lt fits] at ledger
    refine runs_ledgerWriteDone u ?_
    have acts : ledgerDone q.entry s = ledgerShown (ledgerTaken q.entry rest s) := by
      rw [ledgerDone_cons waits]
      simp only [if_neg (Nat.not_le.mpr room), if_true]
    have shown := ledgerShown_nibs (ledgerTaken q.entry rest s)
    have keeps : (keepFuses s (ledgerShown (ledgerTaken q.entry rest s))).nibs = (ledgerTaken q.entry rest s).nibs := shown
    rw [acts]
    refine ⟨by rw [keeps, ledger], by rw [keeps, queue], ?_, Only.keepFuses ?_⟩
    · rw [rget_keepFuses (by decide), rget_ledgerShown_used, keeps]
    · exact ((ledgerTaken_only _ _ s).trans (ledgerShown_only _)).mono (by simp) (by simp [ledgerFields])
  case refine_5 =>
    obtain ⟨ledger, queue⟩ := ledgerTaken_nibs (s := s) (v := v) (rest := rest) room
    refine runs_ledgerWriteDone u ?_
    set shown := ledgerShown (ledgerTaken v rest s) with shownEq
    have acts : ledgerDone v s = { shown with nibs := { shown.nibs with ledgerQ := { q with retry := true } :: shown.nibs.ledgerQ } } := by
      rw [ledgerDone_cons waits, shownEq]
      simp only [if_neg (Nat.not_le.mpr room), differs, first, if_false, Bool.false_eq_true]
    have nibsEq : shown.nibs = (ledgerTaken v rest s).nibs := ledgerShown_nibs _
    rw [acts]
    refine ⟨?_, ?_, Only.keepFuses ?_⟩
    · show shown.nibs.ledger = _
      rw [nibsEq, ledger]
    · show _ :: shown.nibs.ledgerQ = _
      rw [nibsEq, queue]
    · exact (((ledgerTaken_only _ _ s).trans (ledgerShown_only _)).trans (nibs_only _ shown)).mono (by simp) (by simp [ledgerFields])

end Sys2Proof.Machine

/-! SUPPORT. The monitor second (R395) and the JTAG port (R407). -/

namespace Sys2Proof.Machine

theorem rget_incBy_same (f : Fld) (n : Nat) (s : State) : rget (incBy f n s) f = min (2 ^ f.width - 1) (rget s f + n) := by
  have pos := Nat.two_pow_pos f.width
  rw [incBy, rget_rset_same, satAdd_eq, Nat.mod_eq_of_lt (by omega)]

/-- The acceleration factor fits into AF_NOW. -/
theorem arrhenius_lt (q : Int) : arrhenius q < 2 ^ 16 := Nat.lt_of_le_of_lt (Nat.min_le_left _ _) (by decide)

/-- The fraction of a second of life, and PTP's counts of the second that ends. -/
def secondBase (af : Nat) (s : State) : State :=
  { s with mon := { s.mon with eqFrac := (s.mon.eqFrac + af) % 4096 }, ptp := { s.ptp with pps := 0, limiting := false } }

/-- The state in which a second's counters are written: a holdover's seconds count on. -/
def secondBegun (af : Nat) (s : State) : State := secondBase af s |> whenB (rget s F.TSU_STATUS.STATE == 3) (inc F.TSU_HOLD_INFO.SINCE_S)

theorem monSecond_eq (s : State) : monSecond s =
    (s |> secondBegun (arrhenius (rgetI s F.MON_TJ.TJ)) |> rset F.MON_LIFE.AF_NOW (arrhenius (rgetI s F.MON_TJ.TJ))
      |> incBy F.MON_LIFE.EQ_S ((s.mon.eqFrac + arrhenius (rgetI s F.MON_TJ.TJ)) / 4096) |> inc F.MON_UPTIME.UPTIME_S) := rfl

theorem secondBase_only (af : Nat) (s : State) : Only [.mon, .ptp] [] s (secondBase af s) :=
  ⟨fun p hp => by cases p <;> simp_all [Part.same, secondBase], fun _ _ => rfl⟩

theorem secondBegun_only (af : Nat) (s : State) : Only [.mon, .ptp] [F.TSU_HOLD_INFO.SINCE_S] s (secondBegun af s) :=
  ((secondBase_only af s).trans (Only.whenB (inc_only _ _))).mono (by simp) (by simp)

theorem secondBegun_mon (af : Nat) (s : State) : (secondBegun af s).mon = { s.mon with eqFrac := (s.mon.eqFrac + af) % 4096 } := by
  have counted : Only [] [F.TSU_HOLD_INFO.SINCE_S] (secondBase af s) (secondBegun af s) := Only.whenB (inc_only _ _)
  rw [counted.1 .mon (by simp)]
  rfl

theorem setTst_only (f : Tst → Tst) (s : State) : Only [.tst] [] s (setTst f s) := tst_only _ s

/-- An instruction shows in IR_LAST and leaves in the scan register what it selects. -/
def jtagShown (ir : Nat) (scan : Option JtagIns) (s : State) : State := s |> rset F.TEST_JTAG.IR_LAST ir |> setTst (fun t => { t with scan := scan })

theorem jtagShown_only (ir : Nat) (scan : Option JtagIns) (s : State) : Only [.tst] [F.TEST_JTAG.IR_LAST] s (jtagShown ir scan s) :=
  ((rset_only _ _ s).trans (setTst_only _ _)).mono (by simp) (by simp)

theorem rget_jtagShown (ir : Nat) (scan : Option JtagIns) (s : State) : rget (jtagShown ir scan s) F.TEST_JTAG.IR_LAST = ir % 256 := by
  show rget (rset F.TEST_JTAG.IR_LAST ir s) _ = ir % 2 ^ 8
  exact rget_rset_same _ _ _

theorem jtagLoad_eq (ins : JtagIns) (ir : Nat) (s : State) : jtagLoad ins ir s =
    if jtagIntrusive ins then
      if on s F.TEST_JTAG.EXT_EN then jtagShown ir (some ins) s else raise pTEST 7 (inc F.TEST_JTAG.EXT_REFUSED (jtagShown ir none s))
    else jtagShown ir none s := by
  have enabled : on (rset F.TEST_JTAG.IR_LAST ir s) F.TEST_JTAG.EXT_EN = on s F.TEST_JTAG.EXT_EN := by rw [on, on, rget_rset_other _ _ (by decide)]
  unfold jtagLoad
  dsimp only
  rw [enabled]
  cases jtagIntrusive ins
  · rfl
  · rfl

/-- Settles O46: the second's counters are written one after another; `jtagLoad_eq` has one branch for each kind of instruction. -/
theorem secondsAndJtag : Obligations.SecondsAndJtag := by
  intro s ins ir u af
  refine ⟨?_, fun mild => ?_, fun takes enabled => ?_, fun takes disabled => ?_⟩
  case refine_1 =>
    refine runs_act (f := monSecond) rfl u rfl ?_
    rw [monSecond_eq]
    have begun := secondBegun_only af s
    have whole := ((begun.trans (rset_only F.MON_LIFE.AF_NOW af _)).trans (incBy_only F.MON_LIFE.EQ_S ((s.mon.eqFrac + af) / 4096) _)).trans
      (inc_only F.MON_UPTIME.UPTIME_S _)
    refine ⟨?_, ?_, ?_, ?_, (whole.mono (by simp) (by simp)).keepAll⟩
    · rw [rget_keepAll _ _ (by decide), rget_inc_same, (incBy_only _ _ _).get (by decide), rget_rset_other _ _ (by decide), begun.get (by decide)]
    · rw [rget_keepAll _ _ (by decide), (inc_only _ _).get (by decide), (incBy_only _ _ _).get (by decide), rget_rset_same]
      exact Nat.mod_eq_of_lt (arrhenius_lt _)
    · show (secondBegun af s).mon.eqFrac = _
      rw [secondBegun_mon]
    · rw [rget_keepAll _ _ (by decide), (inc_only _ _).get (by decide), rget_incBy_same, rget_rset_other _ _ (by decide), begun.get (by decide)]
  case refine_2 =>
    refine runs_act (f := jtagLoad ins ir) rfl u rfl ?_
    rw [jtagLoad_eq, mild, if_neg Bool.false_ne_true]
    exact ⟨by rw [rget_keepAll _ _ (by decide), rget_jtagShown], rfl, (jtagShown_only _ _ s).keepAll⟩
  case refine_3 =>
    refine runs_act (f := jtagLoad ins ir) rfl u rfl ?_
    rw [jtagLoad_eq, takes, if_pos rfl, enabled, if_pos rfl]
    exact ⟨by rw [rget_keepAll _ _ (by decide), rget_jtagShown], rfl, (jtagShown_only _ _ s).keepAll⟩
  case refine_4 =>
    refine runs_act (f := jtagLoad ins ir) rfl u rfl ?_
    rw [jtagLoad_eq, takes, if_pos rfl, disabled, if_neg Bool.false_ne_true]
    have raised : Only [.eva] [F.TEST_JTAG.EXT_REFUSED, F.EVT_PEND.PEND pTEST] (jtagShown ir none s)
        (raise pTEST 7 (inc F.TEST_JTAG.EXT_REFUSED (jtagShown ir none s))) := ((inc_only _ _).trans (raise_only _ _ _)).mono (by simp) (by simp)
    refine ⟨?_, ?_, Pends.keepAll (by decide) (raise_pends _ (by decide)), ?_, (((jtagShown_only ir none s).trans raised).mono (by simp) (by simp)).keepAll⟩
    · rw [rget_keepAll _ _ (by decide), raised.get (by decide), rget_jtagShown]
    · show (raise pTEST 7 _).tst = _
      rw [raised.1 .tst (by simp)]
      rfl
    · rw [rget_keepAll _ _ (by decide), (raise_only _ _ _).get (by decide), rget_inc_same, (jtagShown_only _ _ s).get (by decide)]

end Sys2Proof.Machine

/-! SUPPORT. The messages of the vectors, held and sent (R385), and the events of the PCI Express link (R300, R315, R321). -/

namespace Sys2Proof.Machine

/-! ### Messages -/

/-- What holds a vector's message is in PCIE's own state and in two fields. -/
theorem vecBlocked_congr {s t : State} (own : t.pcie = s.pcie) (up : rget t F.PCIE_LINK.DL_UP = rget s F.PCIE_LINK.DL_UP)
    (bme : rget t F.PCIE_LINK.BME = rget s F.PCIE_LINK.BME) (v : Nat) : vecBlocked t v = vecBlocked s v := by
  simp only [vecBlocked, on, own, up, bme]

theorem vecBlocked_of_only {ps : List Part} {rs : List Fld} {s t : State} (o : Only ps rs s t) (own : Part.pcie ∉ ps)
    (fields : ∀ f ∈ [F.PCIE_LINK.DL_UP, F.PCIE_LINK.BME], f.key ∉ rs.map (·.key)) (v : Nat) : vecBlocked t v = vecBlocked s v :=
  vecBlocked_congr (o.1 .pcie own) (o.get (fields _ (by simp))) (o.get (fields _ (by simp))) v

/-- A message that goes: counted, emitted, its vector's gap begun where there is one. -/
theorem vecSend_free {s : State} {v : Nat} (free : vecBlocked s v = false) :
    Only [.eva, .out] [F.EVA_MSGS.SENT] s (vecSend v s) ∧ (vecSend v s).out = s.out ++ [.msix v]
      ∧ rget (vecSend v s) F.EVA_MSGS.SENT = min (2 ^ 32 - 1) (rget s F.EVA_MSGS.SENT + 1) := by
  have sent : Only [.out] [F.EVA_MSGS.SENT] s (emit (.msix v) (inc F.EVA_MSGS.SENT s)) := ((inc_only _ s).trans (emit_only _ _)).mono (by simp) (by simp)
  have count : rget (emit (.msix v) (inc F.EVA_MSGS.SENT s)) F.EVA_MSGS.SENT = min (2 ^ 32 - 1) (rget s F.EVA_MSGS.SENT + 1) := by
    rw [(emit_only _ _).get (by simp), rget_inc_same]
  unfold vecSend
  rw [free, if_neg Bool.false_ne_true]
  dsimp only
  split
  · exact ⟨sent.mono (by simp) (by simp), rfl, count⟩
  · exact ⟨(sent.trans (eva_only _ _)).mono (by simp) (by simp), rfl, count⟩

theorem vecSend_held {s : State} {v : Nat} (blocked : vecBlocked s v = true) : vecSend v s = raise pEVA 0 (setBitOf F.EVA_VPEND.HELD v s) := by
  rw [vecSend, if_pos blocked]

theorem vecSend_only (v : Nat) (s : State) : Only [.eva, .out] [F.EVA_VPEND.HELD, F.EVT_PEND.PEND pEVA, F.EVA_MSGS.SENT] s (vecSend v s) := by
  cases blocked : vecBlocked s v
  · exact (vecSend_free blocked).1.mono (by simp) (by simp)
  · rw [vecSend_held blocked]
    exact ((setBitOf_only _ _ s).trans (raise_only _ _ _)).mono (by simp) (by simp)

/-- A held vector's message goes once nothing holds it. -/
def releaseOne (v : Nat) (s : State) : State :=
  if bitSet (rget s F.EVA_VPEND.HELD) v && !vecBlocked s v then s |> clrBitOf F.EVA_VPEND.HELD v |> vecSend v else s

/-- The first `n` vectors. -/
def releaseFirst (n : Nat) (s : State) : State := forAll (List.range n) releaseOne s

theorem releaseHeld_eq (s : State) : releaseHeld s = releaseFirst 32 s := rfl

theorem releaseFirst_succ (n : Nat) (s : State) : releaseFirst (n + 1) s = releaseOne n (releaseFirst n s) := by
  simp [releaseFirst, forAll, List.range_succ]

/-- The vectors whose message goes. -/
def freed (s : State) (n : Nat) : List Nat := (List.range n).filter fun k => bitSet (rget s F.EVA_VPEND.HELD) k && !vecBlocked s k

theorem freed_succ (s : State) (n : Nat) : freed s (n + 1) = freed s n ++ if bitSet (rget s F.EVA_VPEND.HELD) n && !vecBlocked s n then [n] else [] := by
  simp only [freed, List.range_succ, List.filter_append, List.filter_cons, List.filter_nil]

/-- A vector's release: its message, and HELD without its bit. -/
theorem releaseOne_does (n : Nat) (s : State) : Only [.eva, .out] [F.EVA_VPEND.HELD, F.EVA_MSGS.SENT] s (releaseOne n s)
    ∧ (releaseOne n s).out = s.out ++ (if bitSet (rget s F.EVA_VPEND.HELD) n && !vecBlocked s n then [Emit.msix n] else [])
    ∧ ∀ k, n < k → k < 32 → bitSet (rget (releaseOne n s) F.EVA_VPEND.HELD) k = bitSet (rget s F.EVA_VPEND.HELD) k := by
  unfold releaseOne
  split
  case isTrue go =>
    have cleared := clrBitOf_only F.EVA_VPEND.HELD n s
    have free : vecBlocked (clrBitOf F.EVA_VPEND.HELD n s) n = false := by
      rw [vecBlocked_of_only cleared (by simp) (by decide)]
      simpa using (Bool.and_eq_true_iff.mp go).2
    obtain ⟨only, out, -⟩ := vecSend_free free
    refine ⟨(cleared.trans only).mono (by simp) (by simp), by rw [out]; rfl, fun k after fits => ?_⟩
    have apart : n ≠ k := by omega
    rw [only.get (by decide), clrBitOf, rget_rset_same, bitSet_mod _ _ _ fits, bitSet_clrBit]
    simp [apart]
  case isFalse => exact ⟨(Only.refl s).mono (by simp) (by simp), (List.append_nil _).symm, fun _ _ _ => rfl⟩

theorem releaseFirst_does {n : Nat} (le : n ≤ 32) (s : State) : Only [.eva, .out] [F.EVA_VPEND.HELD, F.EVA_MSGS.SENT] s (releaseFirst n s)
    ∧ (releaseFirst n s).out = s.out ++ (freed s n).map Emit.msix
    ∧ ∀ k, n ≤ k → k < 32 → bitSet (rget (releaseFirst n s) F.EVA_VPEND.HELD) k = bitSet (rget s F.EVA_VPEND.HELD) k := by
  induction n with
  | zero => exact ⟨(Only.refl s).mono (by simp) (by simp), (List.append_nil _).symm, fun _ _ _ => rfl⟩
  | succ n ih =>
    obtain ⟨only, out, held⟩ := ih (by omega)
    obtain ⟨only', out', held'⟩ := releaseOne_does n (releaseFirst n s)
    rw [releaseFirst_succ]
    refine ⟨only.seq only', ?_, fun k after fits => (held' k (by omega) fits).trans (held k (by omega) fits)⟩
    rw [out', out, freed_succ, held n (Nat.le_refl n) (by omega), vecBlocked_of_only only (by simp) (by decide), List.map_append, List.append_assoc]
    cases bitSet (rget s F.EVA_VPEND.HELD) n && !vecBlocked s n
    · rfl
    · rfl

/-- Every message held and no longer blocked goes, in ascending vector order. -/
theorem releaseHeld_does (s : State) : Only [.eva, .out] [F.EVA_VPEND.HELD, F.EVA_MSGS.SENT] s (releaseHeld s)
    ∧ (releaseHeld s).out = s.out ++ (freed s 32).map Emit.msix := by
  obtain ⟨only, out, -⟩ := releaseFirst_does (le_refl 32) s
  exact ⟨only, out⟩

/-! ### The engine parks -/

/-- The fields of a park on link. -/
def parkFields : List Fld :=
  [F.DMA_PARK.ID0, F.DMA_PARK.ID1, F.DMA_PARK.ID2, F.DMA_STATUS.CL0, F.DMA_STATUS.CL1, F.DMA_STATUS.CL2, F.DMA_STATUS.LINK_PARK, F.DMA_LINK.PARKS]

theorem setDma_only (f : Dma → Dma) (s : State) : Only [.dma] [] s (setDma f s) := dma_only _ s

/-- A park's number is shown in its class's field, or in class 2's for the image. -/
theorem parkShown_only {c : Nat} {free : Prop} [Decidable free] (id : Nat) (s : State) :
    Only [] parkFields s ((if c = 3 then (if free then rset F.DMA_PARK.ID2 id else fun s => s) else rset (parkId c) id) s) := by
  split
  · split
    · exact (rset_only _ _ s).mono (by simp) (by simp [parkFields])
    · exact (Only.refl s).mono (by simp) (by simp)
  · refine (rset_only _ _ s).mono (by simp) ?_
    unfold parkId
    split_ifs <;> simp [parkFields]

theorem setPark_only (c : Nat) (p : Option Park) (s : State) : Only [.dma] parkFields s (setPark c p s) := by
  unfold setPark
  dsimp only
  exact Only.mono (ps := [.dma] ++ []) (rs := [] ++ parkFields) (Only.trans (setDma_only _ s) (parkShown_only _ _)) (by simp) (by simp)

theorem clField_listed (c : Nat) : clField c ∈ parkFields := by
  unfold clField
  split_ifs <;> simp [parkFields]

/-- The classes lose what they were parked on. -/
def parksDropped (s : State) : State := s |> forAll [0, 1, 2, 3] (fun c => setPark c none) |> forAll [0, 1, 2] (fun c => rset (clField c) 3)

/-- The walks end, and no ring reads. -/
def readsEnded (s : State) : State :=
  s |> setDma (fun d => { d with walks := [] }) |> forAll (List.range 32) (fun k => setRingD k (fun x => { x with reading := false }))

theorem linkPark_eq (s : State) : linkPark s = if on s F.DMA_STATUS.LINK_PARK then s else
    readsEnded (inc F.DMA_LINK.PARKS (rset F.DMA_STATUS.LINK_PARK 1 (parksDropped s))) := rfl

theorem parksDropped_only (s : State) : Only [.dma] parkFields s (parksDropped s) :=
  ((Only.forAll _ (fun _ _ s => setPark_only _ _ s) s).trans
    (Only.forAll (ps := []) (rs := parkFields) _ (fun c _ s => (rset_only _ _ s).mono (by simp) (by simpa using clField_listed c)) _)).mono (by simp) (by simp)

theorem setRingD_only (k : Nat) (f : DmaRing → DmaRing) (s : State) : Only [.dma] [] s (setRingD k f s) := dma_only _ s

theorem readsEnded_only (s : State) : Only [.dma] [] s (readsEnded s) :=
  (setDma_only _ s).seq (Only.forAll _ (fun _ _ s => setRingD_only _ _ s) _)

theorem linkPark_only (s : State) : Only [.dma] parkFields s (linkPark s) := by
  rw [linkPark_eq]
  refine Only.ite (fun _ => (Only.refl s).mono (by simp) (by simp)) fun _ => ?_
  exact ((((parksDropped_only s).trans (rset_only _ _ _)).trans (inc_only _ _)).trans (readsEnded_only _)).mono (by simp) (by simp [parkFields])

theorem linkPark_parks (s : State) : on (linkPark s) F.DMA_STATUS.LINK_PARK = true := by
  rw [linkPark_eq]
  split
  case isTrue already => exact already
  case isFalse =>
    rw [on, (readsEnded_only _).get (by simp), (inc_only _ _).get (by decide), rget_rset_same]
    rfl

theorem parkFields_pages : parkFields.map pageOf ⊆ [pDMA] := by decide

/-! ### Resets of the link -/

theorem setPcie_only (f : Pcie → Pcie) (s : State) : Only [.pcie] [] s (setPcie f s) := pcie_only _ s

theorem setBme_only (v : Bool) (s : State) : Only [] [F.PCIE_LINK.BME, F.DMA_STATUS.BME] s (setBme v s) :=
  ((rset_only _ _ s).trans (rset_only _ _ _)).mono (by simp) (by simp)

theorem rget_setBme (v : Bool) (s : State) :
    rget (setBme v s) F.PCIE_LINK.BME = v.toNat ∧ rget (setBme v s) F.DMA_STATUS.BME = v.toNat := by
  constructor
  · rw [setBme, rget_rset_other _ _ (by decide), rget_rset_same]
    cases v <;> rfl
  · rw [setBme, rget_rset_same]
    cases v <;> rfl

/-- Configuration space at its reset values, but for the engine, which parks then. -/
def configCleared (s : State) : State :=
  s |> setBme false |> rset F.PCIE_LINK.MSIX_EN 0 |> rset F.PCIE_SIZES.MPS 128 |> rset F.PCIE_SIZES.MRRS 512
    |> setPcie (fun p => { p with funcMask := false, vecMask := 0xFFFFFFFF })

theorem configReset_eq (s : State) : configReset s = linkPark (configCleared s) := rfl

theorem configCleared_only (s : State) : Only [.pcie] [F.PCIE_LINK.BME, F.DMA_STATUS.BME, F.PCIE_LINK.MSIX_EN, F.PCIE_SIZES.MPS, F.PCIE_SIZES.MRRS] s
    (configCleared s) :=
  (((((setBme_only _ s).trans (rset_only _ _ _)).trans (rset_only _ _ _)).trans (rset_only _ _ _)).trans (setPcie_only _ _)).mono (by simp) (by simp)

/-- The configuration space after a reset of the link whose state's own part was `own`. -/
def Configured (own : Pcie) (t : State) : Prop := rget t F.PCIE_LINK.BME = 0 ∧ rget t F.DMA_STATUS.BME = 0 ∧ rget t F.PCIE_LINK.MSIX_EN = 0
  ∧ rget t F.PCIE_SIZES.MPS = 128 ∧ rget t F.PCIE_SIZES.MRRS = 512 ∧ t.pcie = { own with funcMask := false, vecMask := 0xFFFFFFFF }
  ∧ on t F.DMA_STATUS.LINK_PARK = true

theorem configReset_configured (s : State) : Configured s.pcie (configReset s) := by
  obtain ⟨bme, dma⟩ := rget_setBme false s
  have park := linkPark_only (configCleared s)
  refine ⟨?_, ?_, ?_, ?_, ?_, ?_, linkPark_parks _⟩
  · rw [configReset_eq, park.get (by decide), configCleared, (setPcie_only _ _).get (by simp), rget_rset_other _ _ (by decide),
      rget_rset_other _ _ (by decide), rget_rset_other _ _ (by decide), bme]
    rfl
  · rw [configReset_eq, park.get (by decide), configCleared, (setPcie_only _ _).get (by simp), rget_rset_other _ _ (by decide),
      rget_rset_other _ _ (by decide), rget_rset_other _ _ (by decide), dma]
    rfl
  · rw [configReset_eq, park.get (by decide), configCleared, (setPcie_only _ _).get (by simp), rget_rset_other _ _ (by decide),
      rget_rset_other _ _ (by decide), rget_rset_same]
    rfl
  · rw [configReset_eq, park.get (by decide), configCleared, (setPcie_only _ _).get (by simp), rget_rset_other _ _ (by decide), rget_rset_same]
    rfl
  · rw [configReset_eq, park.get (by decide), configCleared, (setPcie_only _ _).get (by simp), rget_rset_same]
    rfl
  · rw [configReset_eq, park.1 .pcie (by simp)]
    rfl

theorem configReset_within (s : State) : Within [.dma, .pcie] [pPCIE, pDMA] s (configReset s) := by
  have cleared : Within [.dma, .pcie] [pPCIE, pDMA] s (configCleared s) := (configCleared_only s).withinPages (by simp) (by decide)
  have park : Within [.dma, .pcie] [pPCIE, pDMA] (configCleared s) (linkPark (configCleared s)) :=
    (linkPark_only _).withinPages (by simp) (List.Subset.trans parkFields_pages (by simp))
  exact cleared.seq park

theorem Configured.keepAll {own : Pcie} {s t : State} (h : Configured own t) : Configured own (Machine.keepAll s t) := by
  obtain ⟨bme, dma, msix, mps, mrrs, pcie, park⟩ := h
  exact ⟨by rwa [rget_keepAll _ _ (by decide)], by rwa [rget_keepAll _ _ (by decide)], by rwa [rget_keepAll _ _ (by decide)],
    by rwa [rget_keepAll _ _ (by decide)], by rwa [rget_keepAll _ _ (by decide)], pcie, by rwa [on, rget_keepAll _ _ (by decide)]⟩

/-- A reset that is counted in a field of PCIE_RESETS and raised as SRC[3]. -/
theorem countedReset {counter : Fld} (listed : counter ∈ [F.PCIE_RESETS.HOT, F.PCIE_RESETS.FLR]) (s : State) :
    let t := configReset (raise pPCIE 3 (inc counter s))
    Configured s.pcie t ∧ Pends pPCIE 3 t ∧ rget t counter = min 65535 (rget s counter + 1) ∧ Within [.dma, .pcie, .eva] [pPCIE, pDMA] s t := by
  intro t
  have raised := (inc_only counter s).trans (raise_only pPCIE 3 _)
  have own : (raise pPCIE 3 (inc counter s)).pcie = s.pcie := raised.1 .pcie (by simp)
  have cleared := configCleared_only (raise pPCIE 3 (inc counter s))
  have park := linkPark_only (configCleared (raise pPCIE 3 (inc counter s)))
  have value : rget (raise pPCIE 3 (inc counter s)) counter = min 65535 (rget s counter + 1) := by
    simp only [List.mem_cons, List.not_mem_nil, or_false] at listed
    rcases listed with rfl | rfl
    · rw [(raise_only _ _ _).get (by decide), rget_inc_same]
      rfl
    · rw [(raise_only _ _ _).get (by decide), rget_inc_same]
      rfl
  refine ⟨own ▸ configReset_configured _, ?_, ?_, ?_⟩
  · exact ((raise_pends _ (by decide)).only cleared (by decide)).only park (by decide)
  · simp only [List.mem_cons, List.not_mem_nil, or_false] at listed
    rcases listed with rfl | rfl
    · rw [← value, show t = linkPark (configCleared _) from rfl, park.get (by decide), cleared.get (by decide)]
    · rw [← value, show t = linkPark (configCleared _) from rfl, park.get (by decide), cleared.get (by decide)]
  · have raised' : Within [.dma, .pcie, .eva] [pPCIE, pDMA] s (raise pPCIE 3 (inc counter s)) := by
      refine raised.withinPages (by simp) ?_
      simp only [List.mem_cons, List.not_mem_nil, or_false] at listed
      rcases listed with rfl | rfl <;> decide
    exact raised'.seq ((configReset_within _).mono (by simp) (by simp))

/-! ### The violation log -/

theorem vlog_only {n : Nat} (entry : Nat → Fld) (p src cls code port detail : Nat) (pos : 0 < n) (s : State) :
    Only [.eva] (F.EVT_PEND.PEND p :: (List.range n).map entry) s (vlog p src n entry cls code port detail s) := by
  have first : entry 0 ∈ (List.range n).map entry := List.mem_map.mpr ⟨0, List.mem_range.mpr pos, rfl⟩
  have shifted (s : State) : Only [] ((List.range n).map entry) s
      (forAll ((List.range (n - 1)).reverse) (fun i s => rset (entry (i + 1)) (rget s (entry i)) s) s) := by
    refine Only.forAll _ (fun i hi s => (rset_only _ _ s).mono (by simp) ?_) s
    have small : i + 1 < n := by
      have := List.mem_range.mp (List.mem_reverse.mp hi)
      omega
    simpa using ⟨i + 1, small, rfl⟩
  unfold vlog
  dsimp only
  split
  · exact (rset_only _ _ s).mono (by simp) (by simpa using .inr (by simpa using first))
  · refine (((shifted s).trans (rset_only _ _ _)).trans (raiseD_only _ _ _ _)).mono (by simp) ?_
    intro f hf
    simp only [List.mem_append, List.mem_cons, List.not_mem_nil, or_false] at hf
    rcases hf with (hf | rfl) | rfl
    · exact List.mem_cons_of_mem _ hf
    · exact List.mem_cons_of_mem _ first
    · exact List.mem_cons_self

/-- The fields of a violation on PCIE. -/
def pcieLogFields : List Fld := F.EVT_PEND.PEND pPCIE :: (List.range 16).map F.PCIE_VLOG.ENTRY

theorem pcieVlog_only (code rid : Nat) (s : State) : Only [.eva] pcieLogFields s (pcieVlog code rid s) := vlog_only _ _ _ _ _ _ _ (by decide) s

/-! ### The link's events -/

/-- What a release leaves, stated from a state before it with the same messages held: what is sent is what `freed` lists. -/
theorem released_after {ps : List Part} {rs : List Fld} {s x : State} (o : Only ps rs s x) (out : Part.out ∉ ps)
    (held : F.EVA_VPEND.HELD.key ∉ rs.map (·.key)) : (releaseHeld x).out = s.out
      ++ ((List.range 32).filter (fun k => bitSet (rget s F.EVA_VPEND.HELD) k && !vecBlocked (releaseHeld x) k)).map Emit.msix := by
  obtain ⟨only, sent⟩ := releaseHeld_does x
  have same : x.out = s.out := o.1 .out out
  rw [sent, same, freed, o.get held]
  congr 3
  funext k
  rw [vecBlocked_of_only only (by simp) (by decide)]

theorem vecBlocked_keepAll (s t : State) (v : Nat) : vecBlocked (keepAll s t) v = vecBlocked t v := by
  have own : (keepAll s t).pcie = t.pcie := rfl
  exact vecBlocked_congr own (rget_keepAll s t (by decide)) (rget_keepAll s t (by decide)) v

/-- The common frame keeps what a release leaves. -/
theorem released_keepAll {s t : State} (h : t.out = s.out
      ++ ((List.range 32).filter (fun k => bitSet (rget s F.EVA_VPEND.HELD) k && !vecBlocked t k)).map Emit.msix) :
    (keepAll s t).out = s.out
      ++ ((List.range 32).filter (fun k => bitSet (rget s F.EVA_VPEND.HELD) k && !vecBlocked (keepAll s t) k)).map Emit.msix := by
  simp only [vecBlocked_keepAll]
  exact h

/-- A release on a page of its own writes on EVA's only. -/
theorem releaseHeld_within (s : State) : Within [.eva, .out] [pEVA] s (releaseHeld s) := (releaseHeld_does s).1.withinPages (by simp) (by decide)

theorem pcieLinkDown_up {s : State} (up : on s F.PCIE_LINK.DL_UP = true) : pcieLinkDown s =
    linkPark (s |> rset F.PCIE_LINK.DL_UP 0 |> inc F.PCIE_LCNT.DOWNS |> rset F.PCIE_DOWN.STROKE (strokeNow s) |> raise pPCIE 0) := by
  rw [pcieLinkDown, up]
  rfl

/-- The link's new rate and width are shown, a change of either raised. -/
def linkShown (speed width : Nat) (speedChg changed : Bool) (stroke : Nat) (s : State) : State :=
  s |> rset F.PCIE_LINK.DL_UP 1 |> rset F.PCIE_UP.STROKE stroke |> raise pPCIE 0 |> whenB speedChg (inc F.PCIE_LCNT.SPEED_CHG)
    |> whenB changed (raise pPCIE 1) |> rset F.PCIE_LINK.SPEED speed |> rset F.PCIE_LINK.WIDTH width

theorem pcieLinkUp_down {s : State} (down : on s F.PCIE_LINK.DL_UP = false) (speed width : Nat) : pcieLinkUp speed width s =
    releaseHeld (linkShown speed width (rget s F.PCIE_LINK.SPEED != speed) (rget s F.PCIE_LINK.SPEED != speed || rget s F.PCIE_LINK.WIDTH != width)
      (strokeNow s) s) := by
  rw [pcieLinkUp, down]
  rfl

theorem linkShown_only (speed width : Nat) (speedChg changed : Bool) (stroke : Nat) (s : State) : Only [.eva] [F.PCIE_LINK.DL_UP, F.PCIE_UP.STROKE,
    F.EVT_PEND.PEND pPCIE, F.PCIE_LCNT.SPEED_CHG, F.PCIE_LINK.SPEED, F.PCIE_LINK.WIDTH] s (linkShown speed width speedChg changed stroke s) :=
  (((((((rset_only _ _ s).trans (rset_only _ _ _)).trans (raise_only _ _ _)).trans (Only.whenB (inc_only _ _))).trans
    (Only.whenB (raise_only _ _ _))).trans (rset_only _ _ _)).trans (rset_only _ _ _)).mono (by simp) (by simp)

/-- What the link shows as it comes up. -/
theorem linkShown_shows {speed width : Nat} (speedFits : speed < 8) (widthFits : width < 16) (speedChg changed : Bool) (stroke : Nat) (s : State) :
    let t := linkShown speed width speedChg changed stroke s
    rget t F.PCIE_LINK.DL_UP = 1 ∧ rget t F.PCIE_LINK.SPEED = speed ∧ rget t F.PCIE_LINK.WIDTH = width ∧ rget t F.PCIE_UP.STROKE = stroke % 2 ^ 64
      ∧ Pends pPCIE 0 t ∧ (changed = true → Pends pPCIE 1 t) := by
  intro t
  set raised := raise pPCIE 0 (rset F.PCIE_UP.STROKE stroke (rset F.PCIE_LINK.DL_UP 1 s)) with raisedEq
  set noted := whenB changed (raise pPCIE 1) (whenB speedChg (inc F.PCIE_LCNT.SPEED_CHG) raised) with notedEq
  have toNoted : Only [.eva] [F.PCIE_LCNT.SPEED_CHG, F.EVT_PEND.PEND pPCIE] raised noted :=
    ((Only.whenB (inc_only _ _)).trans (Only.whenB (raise_only _ _ _))).mono (by simp) (by simp)
  have last : Only [] [F.PCIE_LINK.SPEED, F.PCIE_LINK.WIDTH] noted t := ((rset_only _ _ _).trans (rset_only _ _ _)).mono (by simp) (by simp)
  have pend : Pends pPCIE 0 raised := raise_pends _ (by decide)
  have counted : Pends pPCIE 0 (whenB speedChg (inc F.PCIE_LCNT.SPEED_CHG) raised) := pend.only (Only.whenB (inc_only _ _)) (by decide)
  have pend' : Pends pPCIE 0 noted := by
    rw [notedEq]
    cases changed
    · exact counted
    · exact pend_kept none counted (by decide)
  refine ⟨?_, ?_, ?_, ?_, pend'.only last (by decide), fun yes => ?_⟩
  · rw [last.get (by decide), toNoted.get (by decide), (raise_only _ _ _).get (by decide), rget_rset_other _ _ (by decide), rget_rset_same]
    rfl
  · show rget (rset F.PCIE_LINK.WIDTH width (rset F.PCIE_LINK.SPEED speed noted)) _ = _
    rw [rget_rset_other _ _ (by decide), rget_rset_same]
    exact Nat.mod_eq_of_lt speedFits
  · show rget (rset F.PCIE_LINK.WIDTH width (rset F.PCIE_LINK.SPEED speed noted)) _ = _
    rw [rget_rset_same]
    exact Nat.mod_eq_of_lt widthFits
  · rw [last.get (by decide), toNoted.get (by decide), (raise_only _ _ _).get (by decide), rget_rset_same]
  · have noted1 : Pends pPCIE 1 noted := by
      rw [notedEq, yes]
      exact raise_pends _ (by decide)
    exact noted1.only last (by decide)

/-- Settles O47: each event of the link by the lemma named for it; what is released by `released_after`. -/
theorem pcieLinkEvents : Obligations.PcieLinkEvents := by
  intro s rid speed width v u parked released configured
  have park (x : State) : parked (keepAll s (linkPark x)) := by
    show on _ _ = true
    rw [on, rget_keepAll _ _ (by decide)]
    exact linkPark_parks x
  refine ⟨fun up => ?_, fun down speedFits widthFits => ?_, ?_, ?_, ?_, ?_, fun bme => ?_, ?_, ?_, fun small => ?_⟩
  case refine_1 =>
    refine runs_act (f := pcieLinkDown) rfl u rfl ?_
    rw [pcieLinkDown_up up]
    set shown := raise pPCIE 0 (rset F.PCIE_DOWN.STROKE (strokeNow s) (inc F.PCIE_LCNT.DOWNS (rset F.PCIE_LINK.DL_UP 0 s))) with shownEq
    have toShown : Only [.eva] [F.PCIE_LINK.DL_UP, F.PCIE_LCNT.DOWNS, F.PCIE_DOWN.STROKE, F.EVT_PEND.PEND pPCIE] s shown :=
      ((((rset_only _ _ s).trans (inc_only _ _)).trans (rset_only _ _ _)).trans (raise_only _ _ _)).mono (by simp) (by simp)
    have last := linkPark_only shown
    refine ⟨?_, park shown, ?_, ?_, Pends.keepAll (by decide) ((raise_pends _ (by decide)).only last (by decide)), Within.keepAll ?_⟩
    · rw [rget_keepAll _ _ (by decide), last.get (by decide), shownEq, (raise_only _ _ _).get (by decide), rget_rset_other _ _ (by decide),
        (inc_only _ _).get (by decide), rget_rset_same]
      rfl
    · rw [rget_keepAll _ _ (by decide), last.get (by decide), shownEq, (raise_only _ _ _).get (by decide), rget_rset_other _ _ (by decide),
        rget_inc_same, rget_rset_other _ _ (by decide)]
      rfl
    · rw [rget_keepAll _ _ (by decide), last.get (by decide), shownEq, (raise_only _ _ _).get (by decide), rget_rset_same]
    · have shown' : Within [.dma, .eva] [pPCIE, pDMA] s shown := toShown.withinPages (by simp) (by decide)
      exact shown'.seq (last.withinPages (by simp) (List.Subset.trans parkFields_pages (by simp)))
  case refine_2 =>
    refine runs_act (f := pcieLinkUp speed width) rfl u rfl ?_
    rw [pcieLinkUp_down down]
    generalize chgEq : (rget s F.PCIE_LINK.SPEED != speed || rget s F.PCIE_LINK.WIDTH != width) = changed
    have toShown := linkShown_only speed width (rget s F.PCIE_LINK.SPEED != speed) changed (strokeNow s) s
    obtain ⟨up, rate, lanes, stroke, pend, pend1⟩ :=
      linkShown_shows speedFits widthFits (rget s F.PCIE_LINK.SPEED != speed) changed (strokeNow s) s
    generalize linkShown speed width (rget s F.PCIE_LINK.SPEED != speed) changed (strokeNow s) s = shown at *
    obtain ⟨last, -⟩ := releaseHeld_does shown
    refine ⟨?_, ?_, ?_, ?_, Pends.keepAll (by decide) (pend.only last (by decide)), fun diff => ?_,
      released_keepAll (released_after toShown (by simp) (by decide)), Within.keepAll ?_⟩
    · rw [rget_keepAll _ _ (by decide), last.get (by decide), up]
    · rw [rget_keepAll _ _ (by decide), last.get (by decide), rate]
    · rw [rget_keepAll _ _ (by decide), last.get (by decide), lanes]
    · rw [rget_keepAll _ _ (by decide), last.get (by decide), stroke]
    · have yes : changed = true := by simpa [← chgEq] using diff
      exact Pends.keepAll (by decide) ((pend1 yes).only last (by decide))
    · have shown' : Within [.eva, .out] [pPCIE, pEVA] s shown := toShown.withinPages (by simp) (by decide)
      exact shown'.seq ((releaseHeld_within shown).mono (by simp) (by simp))
  case refine_3 =>
    obtain ⟨config, pend, count, within⟩ := countedReset (counter := F.PCIE_RESETS.HOT) (by simp) s
    refine runs_act (f := hotReset) rfl u rfl ?_
    exact ⟨config.keepAll, Pends.keepAll (by decide) pend, by rw [rget_keepAll _ _ (by decide)]; exact count, within.keepAll⟩
  case refine_4 =>
    obtain ⟨config, pend, count, within⟩ := countedReset (counter := F.PCIE_RESETS.FLR) (by simp) s
    refine runs_act (f := functionReset) rfl u rfl ?_
    exact ⟨config.keepAll, Pends.keepAll (by decide) pend, by rw [rget_keepAll _ _ (by decide)]; exact count, within.keepAll⟩
  case refine_5 =>
    refine runs_act (f := conventionalReset) rfl u rfl ?_
    exact ⟨(configReset_configured s).keepAll, (configReset_within s).keepAll⟩
  case refine_6 =>
    refine runs_act (f := d3Entry) rfl u rfl ?_
    have last := linkPark_only (inc F.PCIE_RESETS.D3 s)
    refine ⟨park _, ?_, ?_, Within.keepAll ?_⟩
    · rw [rget_keepAll _ _ (by decide), d3Entry, last.get (by decide), rget_inc_same]
      rfl
    · rw [rget_keepAll _ _ (by decide), d3Entry, last.get (by decide), (inc_only _ _).get (by decide)]
    · have counted : Within [.dma] [pPCIE, pDMA] s (inc F.PCIE_RESETS.D3 s) := (inc_only _ s).withinPages (by simp) (by decide)
      exact counted.seq (last.withinPages (by simp) (List.Subset.trans parkFields_pages (by simp)))
  case refine_7 =>
    have acts : bmeClear rid s = linkPark (setBme false (whenB (dmaBusy s) (pcieVlog 0x0B rid) s)) := by
      rw [bmeClear, bme]
      rfl
    refine runs_act (f := bmeClear rid) rfl u rfl ?_
    rw [acts]
    set cleared := setBme false (whenB (dmaBusy s) (pcieVlog 0x0B rid) s) with clearedEq
    obtain ⟨off, off'⟩ := rget_setBme false (whenB (dmaBusy s) (pcieVlog 0x0B rid) s)
    have toCleared : Within [.dma, .eva] [pPCIE, pDMA] s cleared :=
      (Only.withinPages (Only.whenB (pcieVlog_only _ _ s)) (by simp) (by decide)).seq ((setBme_only _ _).withinPages (by simp) (by decide))
    have last := linkPark_only cleared
    refine ⟨?_, ?_, park _, Within.keepAll (toCleared.seq (last.withinPages (by simp) (List.Subset.trans parkFields_pages (by simp))))⟩
    · rw [rget_keepAll _ _ (by decide), last.get (by decide), off]
      rfl
    · rw [rget_keepAll _ _ (by decide), last.get (by decide), off']
      rfl
  case refine_8 =>
    refine runs_act (f := bmeSet) rfl u rfl ?_
    obtain ⟨up, up'⟩ := rget_setBme true s
    obtain ⟨last, -⟩ := releaseHeld_does (setBme true s)
    refine ⟨?_, ?_, released_keepAll (released_after (setBme_only true s) (by simp) (by decide)), Within.keepAll ?_⟩
    · rw [rget_keepAll _ _ (by decide), bmeSet, last.get (by decide), up]
      rfl
    · rw [rget_keepAll _ _ (by decide), bmeSet, last.get (by decide), up']
      rfl
    · have set' : Within [.eva, .out] [pPCIE, pDMA, pEVA] s (setBme true s) := (setBme_only true s).withinPages (by simp) (by decide)
      exact set'.seq ((releaseHeld_within _).mono (by simp) (by simp))
  case refine_9 =>
    refine runs_act (f := msixUnmask none) rfl u rfl ?_
    set enabled := rset F.PCIE_LINK.MSIX_EN 1 (setPcie (fun p => { p with funcMask := false }) s) with enabledEq
    have toEnabled : Only [.pcie] [F.PCIE_LINK.MSIX_EN] s enabled := ((setPcie_only _ s).trans (rset_only _ _ _)).mono (by simp) (by simp)
    have acts : msixUnmask none s = releaseHeld enabled := rfl
    obtain ⟨last, -⟩ := releaseHeld_does enabled
    rw [acts]
    refine ⟨?_, ?_, released_keepAll (released_after toEnabled (by simp) (by decide)), Within.keepAll ?_⟩
    · show (releaseHeld enabled).pcie = _
      rw [last.1 .pcie (by simp)]
      rfl
    · rw [rget_keepAll _ _ (by decide), last.get (by decide), enabledEq, rget_rset_same]
      rfl
    · have enabled' : Within [.pcie, .eva, .out] [pPCIE, pEVA] s enabled := toEnabled.withinPages (by simp) (by decide)
      exact enabled'.seq ((releaseHeld_within _).mono (by simp) (by simp))
  case refine_10 =>
    refine runs_act (f := msixUnmask (some v)) rfl u rfl ?_
    set unmasked := setPcie (fun p => { p with vecMask := if v < 32 then clrBit p.vecMask v else p.vecMask }) s with unmaskedEq
    have toUnmasked : Only [.pcie] [] s unmasked := setPcie_only _ s
    have acts : msixUnmask (some v) s = releaseHeld unmasked := rfl
    obtain ⟨last, -⟩ := releaseHeld_does unmasked
    rw [acts]
    refine ⟨?_, released_keepAll (released_after toUnmasked (by simp) (by simp)), Within.keepAll ?_⟩
    · show (releaseHeld unmasked).pcie = _
      rw [last.1 .pcie (by simp)]
      simp only [unmaskedEq, setPcie, if_pos small]
    · have unmasked' : Within [.pcie, .eva, .out] [pEVA] s unmasked := toUnmasked.withinPages (by simp) (by simp)
      exact unmasked'.seq ((releaseHeld_within _).mono (by simp) (by simp))

end Sys2Proof.Machine

/-! SUPPORT. What a served write leaves in the fields of its register (R7 to R9). -/

namespace Sys2Proof.Machine

/-- The shadows that a write stores are no live values. -/
theorem storeShadow_only (off v : Nat) (s : State) : Only [.shad] [] s (storeShadow off v s) := by
  unfold storeShadow storeWhere
  split
  case h_1 => exact (Only.refl s).mono (by simp) (by simp)
  case h_2 row _ =>
    have each : ∀ (fs : List FieldRow) (s : State), (∀ f ∈ fs, f.commit = .stroke) →
        Only [.shad] [] s (fs.foldl (fun t f => storeField off v f t) s) := by
      intro fs
      induction fs with
      | nil => exact fun s _ => (Only.refl s).mono (by simp) (by simp)
      | cons f fs ih =>
        intro s all
        have one : Only [.shad] [] s (storeField off v f s) := by
          have stroke := all f List.mem_cons_self
          have none' : Only [.shad] [] s s := (Only.refl s).mono (by simp) (by simp)
          cases access : f.access with
          | rw => simp only [storeField, access, stroke]; exact sset_only _ _ s
          | w1c => simp only [storeField, access, stroke]; exact sset_only _ _ s
          | ro => simpa only [storeField, access] using none'
          | wo => simpa only [storeField, access, stroke] using none'
          | w1s => simpa only [storeField, access, stroke] using none'
        exact one.seq (ih _ fun g hg => all g (List.mem_cons_of_mem _ hg))
    refine each _ s fun f hf => ?_
    simpa using (List.mem_filter.mp hf).2

/-- A field of the register at an offset, by its lowest bit, where no other field of the register begins there. -/
def rowField (off lo : Nat) : Option FieldRow :=
  match findRow (off % 4096) (pageRows (off / 4096)) with
  | none => none
  | some r => if (r.fields.map (·.lo)).Nodup then findField lo r.fields else none

theorem findField_some {lo : Nat} {g : FieldRow} {fs : List FieldRow} (h : findField lo fs = some g) : g ∈ fs ∧ g.lo = lo := by
  induction fs with
  | nil => exact absurd h (by simp [findField])
  | cons f fs ih =>
    rw [findField] at h
    split at h
    case isTrue e =>
      obtain rfl := Option.some.inj h
      exact ⟨List.mem_cons_self, e⟩
    case isFalse => exact ⟨List.mem_cons_of_mem _ (ih h).1, (ih h).2⟩

theorem rowField_some {off lo : Nat} {g : FieldRow} (h : rowField off lo = some g) : ∃ r, findRow (off % 4096) (pageRows (off / 4096)) = some r
    ∧ g ∈ r.fields ∧ g.lo = lo ∧ ∀ f ∈ r.fields, f ≠ g → f.lo ≠ g.lo := by
  unfold rowField at h
  split at h
  case h_1 => exact absurd h (by simp)
  case h_2 r found =>
    split at h
    case isFalse => exact absurd h (by simp)
    case isTrue apart =>
      obtain ⟨mem, place⟩ := findField_some h
      exact ⟨r, found, mem, place, fun f hf other same => other (List.inj_on_of_nodup_map apart hf mem same)⟩

/-- What is seen of a state after a list of steps is what one step makes of it, where the others leave it. -/
theorem foldl_leaves {α β : Type} {step : State → α → State} {see : State → β} {g : α} {x : β} {xs : List α} (sets : ∀ s, see (step s g) = x)
    (keeps : ∀ f ∈ xs, f ≠ g → ∀ s, see (step s f) = see s) (mem : g ∈ xs) (s : State) : see (xs.foldl step s) = x := by
  have still : ∀ (ys : List α), ys ⊆ xs → ∀ s, see s = x → see (ys.foldl step s) = x := by
    intro ys
    induction ys with
    | nil => exact fun _ s e => e
    | cons y ys ih =>
      intro sub s e
      refine ih (fun z hz => sub (List.mem_cons_of_mem _ hz)) _ ?_
      by_cases same : y = g
      · rw [same, sets]
      · rw [keeps y (sub List.mem_cons_self) same, e]
  obtain ⟨before, after, rfl⟩ := List.append_of_mem mem
  rw [List.foldl_append, List.foldl_cons]
  exact still after (fun z hz => List.mem_append_right _ (List.mem_cons_of_mem _ hz)) _ (sets _)

/-- A field that takes the word's bits at once, without a span to keep to. -/
theorem rget_storeNow {off lo : Nat} {g : FieldRow} (h : rowField off lo = some g) (kind : g.access = .rw ∧ g.commit = .now ∧ g.span = none) (v : Nat)
    (s : State) : rget (storeNow off v s) (fieldOf off g) = slice lo g.width v := by
  obtain ⟨r, found, mem, rfl, apart⟩ := rowField_some h
  obtain ⟨rw', now, free⟩ := kind
  unfold storeNow storeWhere
  rw [found]
  refine foldl_leaves (step := fun t f => storeField off v f t) (see := fun t => rget t (fieldOf off g)) (fun t => ?_) (fun f hf other t => ?_)
    (List.mem_filter.mpr ⟨mem, by simp [now]⟩) s
  · simp only [storeField, rw', now, rget_rset_same, fieldWritten, free, clampSpan, slice_eq, fieldOf, Nat.mod_mod]
  · obtain ⟨hf, live⟩ := List.mem_filter.mp hf
    have notStroke : f.commit ≠ .stroke := by simpa using live
    refine (storeField_only off v f t).get ?_
    have differ := apart f hf other
    have keys : (fieldOf off g).key ≠ (fieldOf off f).key := by
      simp only [fieldOf, now, notStroke, if_false, reduceCtorEq]
      omega
    split <;> simp [keys]

/-- A shadow that takes the word's bits. -/
theorem sget_storeShadow {off lo : Nat} {g : FieldRow} (h : rowField off lo = some g) (kind : g.access = .rw ∧ g.commit = .stroke ∧ g.span = none)
    (v : Nat) (s : State) : sget (storeShadow off v s) (fieldOf off g) = slice lo g.width v := by
  obtain ⟨r, found, mem, rfl, apart⟩ := rowField_some h
  obtain ⟨rw', stroke, free⟩ := kind
  unfold storeShadow storeWhere
  rw [found]
  refine foldl_leaves (step := fun t f => storeField off v f t) (see := fun t => sget t (fieldOf off g)) (fun t => ?_) (fun f hf other t => ?_)
    (List.mem_filter.mpr ⟨mem, by simp [stroke]⟩) s
  · simp only [storeField, rw', stroke, sget_sset_same, fieldWritten, free, clampSpan, slice_eq, fieldOf, Nat.mod_mod]
  · obtain ⟨hf, shadow⟩ := List.mem_filter.mp hf
    have stroke' : f.commit = .stroke := by simpa using shadow
    have differ := apart f hf other
    have keys : (fieldOf off g).key ≠ (fieldOf off f).key := by
      simp only [fieldOf, stroke, stroke', if_true]
      omega
    have still (x : Nat) : sget (sset (fieldOf off f) x t) (fieldOf off g) = sget t (fieldOf off g) := sget_sset_other _ _ keys
    cases access : f.access <;> simp only [storeField, access, stroke', still]

end Sys2Proof.Machine

/-! SUPPORT. The event aggregator: how a source is served, and what each step of it leaves (R384 to R388). -/

namespace Sys2Proof.Machine

/-! ### IRQ_N and the figures that it follows -/

theorem irqUpdate_only (s : State) : Only [.out] [F.EVA_IRQ.LEVEL, F.EVA_IRQ.ASSERTS] s (irqUpdate s) :=
  Only.ite (fun _ => (Only.refl s).mono (by simp) (by simp)) fun _ =>
    (((rset_only _ _ s).trans (Only.whenB (inc_only _ _))).trans (emit_only _ _)).mono (by simp) (by simp)

theorem vpendUpdate_only (s : State) : Only [] [F.EVA_VPEND.VPEND] s (vpendUpdate s) := rset_only _ _ s

/-- IRQ_N and VPEND follow EVA_PEND. -/
def irqSettled (s : State) : State := s |> irqUpdate |> vpendUpdate

/-- The fields that follow. -/
def irqFields : List Fld := [F.EVA_IRQ.LEVEL, F.EVA_IRQ.ASSERTS, F.EVA_VPEND.VPEND]

theorem irqSettled_only (s : State) : Only [.out] irqFields s (irqSettled s) :=
  ((irqUpdate_only s).trans (vpendUpdate_only _)).mono (by simp) (by simp [irqFields])

/-- The output grows as IRQ_N moves. -/
theorem irqSettled_out (s : State) : ∃ es, (irqSettled s).out = s.out ++ es := by
  show ∃ es, (irqUpdate s).out = s.out ++ es
  unfold irqUpdate
  dsimp only
  split
  · exact ⟨[], (List.append_nil _).symm⟩
  · refine ⟨[.irqLevel (irqLow s)], ?_⟩
    cases irqLow s <;> rfl

/-- The level depends on the enable, the pending bits and the IRQ bits. -/
theorem irqLow_congr {s t : State} (enable : rget t F.EVA_CTRL.IRQ_EN = rget s F.EVA_CTRL.IRQ_EN)
    (pend : ∀ j < 2, rget t (F.EVA_PEND.PEND j) = rget s (F.EVA_PEND.PEND j))
    (irq : ∀ j < 16, ∀ i < 8, rget t (F.EVA_VEC.IRQ j i) = rget s (F.EVA_VEC.IRQ j i)) : irqLow t = irqLow s := by
  unfold irqLow
  rw [on, enable]
  congr 1
  rw [Bool.eq_iff_iff, List.any_eq_true, List.any_eq_true]
  refine exists_congr fun n => and_congr_right fun mem => ?_
  have small := List.mem_range.mp mem
  rw [evPend, evPend, on, on, pend (n / 64) (by omega), irq (n / 8) (by omega) (n % 8) (by omega)]

theorem irqSettled_level (s : State) : on (irqSettled s) F.EVA_IRQ.LEVEL = irqLow (irqSettled s) := by
  have only := irqSettled_only s
  have same : irqLow (irqSettled s) = irqLow s := irqLow_congr (only.get (by decide)) (fun j hj => only.get (by simp [irqFields]; omega))
    fun j hj i hi => only.get (by simp [irqFields]; omega)
  have shown : on (irqUpdate s) F.EVA_IRQ.LEVEL = irqLow s := by
    unfold irqUpdate
    dsimp only
    split
    case isTrue e => exact e.symm
    case isFalse =>
      rw [on, (emit_only _ _).get (by simp), (Only.whenB (inc_only _ _)).get (by decide), rget_rset_same]
      cases irqLow s <;> rfl
  rw [same, ← shown]
  exact congrArg (· == 1) ((vpendUpdate_only _).get (by decide))

theorem evPend_congr {s t : State} {n : Nat} (h : rget t (F.EVA_PEND.PEND (n / 64)) = rget s (F.EVA_PEND.PEND (n / 64))) : evPend t n = evPend s n := by
  rw [evPend, evPend, h]

/-! ### Items of EVQ -/

theorem makeRoom_only (q n fuel : Nat) (s : State) : Only [.queues, .eva] [F.QUE_q_COUNT.LOST q, F.EVT_PEND.PEND pQUE] s (makeRoom q n fuel s) := by
  induction fuel generalizing s with
  | zero => exact (Only.refl s).mono (by simp) (by simp)
  | succ fuel ih =>
    rw [makeRoom]
    refine Only.ite (fun _ => (Only.refl s).mono (by simp) (by simp)) fun _ => ?_
    exact Only.seq ((((setQueue_only _ _ s).trans (inc_only _ _)).trans (raise_only _ _ _)).mono (by simp) (by simp)) (ih _)

/-- An item of EVQ, for which the oldest items make room. -/
theorem pushEvent_only (ws : List Nat) (s : State) :
    Only [.queues, .eva] [F.QUE_q_COUNT.LOST qEV, F.EVT_PEND.PEND pQUE] s (pushItem qEV ws s) :=
  Only.ite (fun _ => ((makeRoom_only _ _ _ s).trans (placeItem_only _ _ _)).mono (by simp) (by simp)) fun k => absurd (Or.inl rfl) k

/-- The items of a source's rises. -/
def evItems (n : Nat) (rises : List (Nat × Nat × Option Nat)) (s : State) : State :=
  if on s F.EVA_CTRL.EVQ_EN && bitSet (rget s (F.EVA_EVQ.EVQ (n / 64))) (n % 64) then
    forAll rises (fun r s => s |> pushItem qEV (evqItem s n r.1 r.2.1 r.2.2) |> inc F.EVA_ITEMS.ITEMS) s
  else s

/-- The fields that items write. -/
def itemFields : List Fld := [F.QUE_q_COUNT.LOST qEV, F.EVT_PEND.PEND pQUE, F.EVA_ITEMS.ITEMS]

theorem evItems_only (n : Nat) (rises : List (Nat × Nat × Option Nat)) (s : State) : Only [.queues, .eva] itemFields s (evItems n rises s) := by
  unfold evItems
  refine Only.ite (fun _ => Only.forAll _ (fun r _ s => ?_) s) fun _ => (Only.refl s).mono (by simp) (by simp)
  exact ((pushEvent_only _ s).trans (inc_only _ _)).mono (by simp) (by simp [itemFields])

/-! ### A source becomes pending -/

theorem vecRise_only (v : Nat) (s : State) :
    Only [.eva, .out] [F.EVA_VPEND.HELD, F.EVT_PEND.PEND pEVA, F.EVA_MSGS.SENT, F.EVA_MSGS.COALESCED] s (vecRise v s) :=
  Only.ite (fun _ => ((inc_only _ s).trans (eva_only _ _)).mono (by simp) (by simp)) fun _ => (vecSend_only v s).mono (by simp) (by simp)

/-- Without a gap each rise sends its message. -/
theorem vecRise_noGap {s : State} (gap : rget s F.EVA_CTRL.VEC_GAP_US = 0) (v : Nat) : vecRise v s = vecSend v s := by
  rw [vecRise, if_neg (by simp [gap])]

/-- The bit of EVA_PEND is set and shown in EVA_LAST. -/
def evMarked (n : Nat) (s : State) : State :=
  s |> setBitOf (F.EVA_PEND.PEND (n / 64)) (n % 64) |> rset F.EVA_LAST.EV n |> rset F.EVA_LAST.STROKE_LO (strokeNow s)

/-- A source becomes pending, and an enabled one's message is due. -/
def evPended (n : Nat) (s : State) : State := evMarked n s |> whenB (on s F.EVA_CTRL.MSIX_EN && evEn s n) (vecRise (evVec s n))

/-- The source's force has been served. -/
def forceEnded (n : Nat) (s : State) : State := { s with eva := { s.eva with forced := s.eva.forced.filter (· != n) } }

/-- The end of a source's service: slot triggers, its force, IRQ_N. -/
def evFinished (n : Nat) (edge : Bool) (s : State) : State :=
  s |> whenB edge (scribeEvent n) |> forceEnded n |> irqSettled

/-- The rises of a source's page bits, in ascending page and bit. -/
def evRises (n : Nat) (s : State) : List (Nat × Nat × Option Nat) :=
  (evBits n).flatMap (fun x => s.eva.rises.filter (fun r => r.1 == x.1 && r.2.1 == x.2))

/-- Whether the raw state of the source has just risen. -/
def evEdge (n : Nat) (s : State) : Bool :=
  evRaw s n && rawEdge s n ((evRises n s).map (fun r => (r.1, r.2.1)) ++ s.eva.shown.filter (evBits n).contains)

/-- The rises and the bits shown have been taken up. -/
def evTaken (n : Nat) (s : State) : State :=
  { s with eva := { s.eva with rises := s.eva.rises.filter (fun r => !(evBits n).contains (r.1, r.2.1))
                               shown := s.eva.shown.filter (fun x => !(evBits n).contains x) } }

/-- A source is served in three steps: its items, its bit, and what follows. -/
theorem evaServe_steps (n : Nat) (s : State) : evaServe n s = evFinished n (evEdge n s)
    (if evRaw s n && !evPend s n then evPended n (evItems n (evRises n s) (evTaken n s)) else evItems n (evRises n s) (evTaken n s)) := by
  unfold evaServe evFinished irqSettled forceEnded
  dsimp only
  rfl

/-! ### What a service leaves -/

theorem evTaken_only (n : Nat) (s : State) : Only [.eva] [] s (evTaken n s) := eva_only _ s
theorem forceEnded_only (n : Nat) (s : State) : Only [.eva] [] s (forceEnded n s) := eva_only _ s

/-- The slots that a source may trigger. -/
def slotFields : List Fld := [sf 0 F.SCRR_SLOTS.PEND, sf 1 F.SCRR_SLOTS.PEND]

theorem scribeEvent_only (n : Nat) (s : State) : Only [] slotFields s (scribeEvent n s) := by
  refine Only.forAll _ (fun h hh s => Only.forAll _ (fun k _ s => ?_) s) s
  refine Only.ite (fun _ => (triggerSlot_only h k s).mono (by simp) ?_) fun _ => (Only.refl s).mono (by simp) (by simp)
  simp only [List.mem_cons, List.not_mem_nil, or_false] at hh
  rcases hh with rfl | rfl <;> simp [slotFields]

theorem evFinished_only (n : Nat) (edge : Bool) (s : State) : Only [.eva, .out] (slotFields ++ irqFields) s (evFinished n edge s) :=
  (((Only.whenB (scribeEvent_only n s)).trans (forceEnded_only n _)).trans (irqSettled_only _)).mono (by simp) (by simp)

theorem evFinished_level (n : Nat) (edge : Bool) (s : State) : on (evFinished n edge s) F.EVA_IRQ.LEVEL = irqLow (evFinished n edge s) :=
  irqSettled_level _

theorem evFinished_out (n : Nat) (edge : Bool) (s : State) : ∃ es, (evFinished n edge s).out = s.out ++ es := by
  obtain ⟨es, e⟩ := irqSettled_out (forceEnded n (whenB edge (scribeEvent n) s))
  refine ⟨es, e.trans ?_⟩
  have same : (whenB edge (scribeEvent n) s).out = s.out := (Only.whenB (scribeEvent_only n s)).1 .out (by simp)
  rw [← same]
  rfl

/-- The fields of EVA_LAST. -/
def lastFields : List Fld := [F.EVA_LAST.EV, F.EVA_LAST.STROKE_LO]

theorem evMarked_only (n : Nat) (s : State) : Only [] (F.EVA_PEND.PEND (n / 64) :: lastFields) s (evMarked n s) :=
  (((setBitOf_only _ _ s).trans (rset_only _ _ _)).trans (rset_only _ _ _)).mono (by simp) (by simp [lastFields])

/-- The fields of the messages. -/
def messageFields : List Fld := [F.EVA_VPEND.HELD, F.EVT_PEND.PEND pEVA, F.EVA_MSGS.SENT, F.EVA_MSGS.COALESCED]

theorem evPended_only (n : Nat) (s : State) :
    Only [.eva, .out] (F.EVA_PEND.PEND (n / 64) :: lastFields ++ messageFields) s (evPended n s) :=
  ((evMarked_only n s).trans (Only.whenB (vecRise_only _ _))).mono (by simp) (by simp [messageFields])

/-- One bit of EVA_PEND is set. -/
theorem evPend_evMarked {n k : Nat} (small : k < 128) (s : State) : evPend (evMarked n s) k = (evPend s k || decide (k = n)) := by
  have marked : ∀ f : Fld, f.key ∉ lastFields.map (·.key) → rget (evMarked n s) f = rget (setBitOf (F.EVA_PEND.PEND (n / 64)) (n % 64) s) f := by
    intro f hf
    simp only [lastFields, List.map_cons, List.map_nil, List.mem_cons, List.not_mem_nil, or_false, not_or] at hf
    rw [evMarked, rget_rset_other _ _ hf.2, rget_rset_other _ _ hf.1]
  unfold evPend
  rw [marked _ (by simp [lastFields]; omega), setBitOf, rget_rset]
  split
  case isTrue e =>
    have word : k / 64 = n / 64 := by simp at e; omega
    have bits : (n % 64 = k % 64) ↔ (k = n) := by omega
    rw [bitSet_mod _ _ _ (show k % 64 < 64 by omega), bitSet_setBit, word]
    simp only [bits]
  case isFalse e =>
    have other : k ≠ n := by rintro rfl; exact e rfl
    simp [other]

theorem evPend_evPended {n k : Nat} (small : k < 128) (s : State) : evPend (evPended n s) k = (evPend s k || decide (k = n)) := by
  have late : Only [.eva, .out] messageFields (evMarked n s) (evPended n s) := Only.whenB (vecRise_only _ _)
  rw [evPend_congr (late.get (by simp [messageFields]; omega)), evPend_evMarked small]

/-- The state in which a source's bit is set: its items are in EVQ. -/
def evQueued (n : Nat) (s : State) : State := evItems n (evRises n s) (evTaken n s)

theorem evQueued_only (n : Nat) (s : State) : Only [.queues, .eva] itemFields s (evQueued n s) :=
  ((evTaken_only n s).trans (evItems_only n _ _)).mono (by simp) (by simp)

theorem evaServe_eq (n : Nat) (s : State) : evaServe n s =
    evFinished n (evEdge n s) (if evRaw s n && !evPend s n then evPended n (evQueued n s) else evQueued n s) := evaServe_steps n s

/-- Every field that the service of source `n` writes. -/
def serveFields (n : Nat) : List Fld := F.EVA_PEND.PEND (n / 64) :: lastFields ++ messageFields ++ itemFields ++ slotFields ++ irqFields

theorem serveFields_pages {n : Nat} (small : n < 128) : (serveFields n).map pageOf ⊆ [pEVA, pQUE, pSCRR, pSCRV] := by
  have pend : pageOf (F.EVA_PEND.PEND (n / 64)) = pEVA := by
    simp [pageOf, strokeBase, pEVA]
    omega
  simp only [serveFields, List.map_cons, List.map_append, pend]
  decide

theorem evaServe_only (n : Nat) (s : State) : Only [.eva, .queues, .out] (serveFields n) s (evaServe n s) := by
  rw [evaServe_eq]
  have bit : Only [.eva, .queues, .out] (serveFields n) s (if evRaw s n && !evPend s n then evPended n (evQueued n s) else evQueued n s) :=
    Only.ite (fun _ => ((evQueued_only n s).trans (evPended_only n _)).mono (by simp) (by simp [serveFields, lastFields, messageFields, itemFields]))
      fun _ => (evQueued_only n s).mono (by simp) (by simp [serveFields, itemFields])
  exact bit.seq ((evFinished_only n _ _).mono (by simp) (by simp [serveFields, slotFields, irqFields]))

theorem evaServe_within {n : Nat} (small : n < 128) (s : State) :
    Within [.eva, .queues, .halves, .out] [pEVA, pQUE, pSCRR, pSCRV] s (evaServe n s) :=
  (evaServe_only n s).withinPages (by simp) (serveFields_pages small)

theorem evaServe_level (n : Nat) (s : State) : on (evaServe n s) F.EVA_IRQ.LEVEL = irqLow (evaServe n s) := by
  rw [evaServe_eq]
  exact evFinished_level n _ _

/-- A service sets the source's own bit where its raw state is 1, and no other. -/
theorem evPend_evaServe {n k : Nat} (small : k < 128) (s : State) : evPend (evaServe n s) k = (evPend s k || (decide (k = n) && evRaw s n)) := by
  have queued : evPend (evQueued n s) k = evPend s k := evPend_congr ((evQueued_only n s).get (by simp [itemFields]; omega))
  rw [evaServe_eq, evPend_congr ((evFinished_only n _ _).get (by simp [slotFields, irqFields]; omega))]
  by_cases same : k = n
  · subst same
    cases raw : evRaw s k <;> cases pend : evPend s k <;> simp [queued, pend, evPend_evPended small]
  · split
    · rw [evPend_evPended small, queued]
      simp [same]
    · rw [queued]
      simp [same]

/-! ### The message of a source that becomes pending -/

/-- The enables, the vectors and what holds a message are no fields that a service writes before the message. -/
theorem evMarked_reads (n : Nat) (s : State) : Only [.queues, .eva] (itemFields ++ F.EVA_PEND.PEND (n / 64) :: lastFields) s (evMarked n (evQueued n s)) :=
  ((evQueued_only n s).trans (evMarked_only n _)).mono (by simp) (by simp)

theorem evEn_congr {s t : State} {n : Nat} (h : rget t (F.EVA_EN.EN (n / 64)) = rget s (F.EVA_EN.EN (n / 64))) : evEn t n = evEn s n := by
  rw [evEn, evEn, h]

theorem evaServe_pending {s : State} {n : Nat} (raw : evRaw s n = true) (fresh : evPend s n = false) :
    evaServe n s = evFinished n (evEdge n s) (evPended n (evQueued n s)) := by
  rw [evaServe_eq, raw, fresh]
  rfl

/-- With messages on and the source enabled, without a gap, the service sends its vector's message. -/
theorem evPended_sends {s : State} {n : Nat} (small : n < 128) (msix : on s F.EVA_CTRL.MSIX_EN = true) (enabled : evEn s n = true)
    (gap : rget s F.EVA_CTRL.VEC_GAP_US = 0) : evPended n (evQueued n s) = vecSend (evVec s n) (evMarked n (evQueued n s)) := by
  have queued := evQueued_only n s
  have msix' : on (evQueued n s) F.EVA_CTRL.MSIX_EN = true := by rw [on, queued.get (by decide)]; exact msix
  have enabled' : evEn (evQueued n s) n = true := by rw [evEn_congr (queued.get (by simp [itemFields]; omega)), enabled]
  have vec : evVec (evQueued n s) n = evVec s n := queued.get (by simp [itemFields]; omega)
  have gap' : rget (evMarked n (evQueued n s)) F.EVA_CTRL.VEC_GAP_US = 0 := by
    rw [(evMarked_reads n s).get (by simp [itemFields, lastFields]; omega), gap]
  rw [evPended, msix', enabled', vec, Bool.and_self, whenB_true, vecRise_noGap gap']

theorem evaServe_sends {s : State} {n : Nat} (small : n < 128) (raw : evRaw s n = true) (fresh : evPend s n = false)
    (msix : on s F.EVA_CTRL.MSIX_EN = true) (enabled : evEn s n = true) (gap : rget s F.EVA_CTRL.VEC_GAP_US = 0) :
    (vecBlocked s (evVec s n) = false → .msix (evVec s n) ∈ (evaServe n s).out)
      ∧ (vecBlocked s (evVec s n) = true → evVec s n < 32 →
          bitSet (rget (evaServe n s) F.EVA_VPEND.HELD) (evVec s n) = true ∧ Pends pEVA 0 (evaServe n s)) := by
  have blockedEq : vecBlocked (evMarked n (evQueued n s)) (evVec s n) = vecBlocked s (evVec s n) := by
    have reads := evMarked_reads n s
    exact vecBlocked_congr (reads.1 .pcie (by simp)) (reads.get (by simp [itemFields, lastFields]; omega))
      (reads.get (by simp [itemFields, lastFields]; omega)) _
  rw [evaServe_pending raw fresh, evPended_sends small msix enabled gap]
  refine ⟨fun free => ?_, fun blocked fits => ?_⟩
  · obtain ⟨es, out⟩ := evFinished_out n (evEdge n s) (vecSend (evVec s n) (evMarked n (evQueued n s)))
    rw [out, (vecSend_free (blockedEq.trans free)).2.1]
    simp
  · have last := evFinished_only n (evEdge n s) (vecSend (evVec s n) (evMarked n (evQueued n s)))
    rw [vecSend_held (blockedEq.trans blocked)] at last ⊢
    refine ⟨?_, (raise_pends _ (by decide)).only last (by decide)⟩
    rw [last.get (by decide), (raise_only _ _ _).get (by decide), setBitOf, rget_rset_same, bitSet_mod _ _ _ fits, bitSet_setBit]
    simp

/-- EVA_LAST shows the source that has become pending. -/
theorem evaServe_last {s : State} {n : Nat} (small : n < 128) (raw : evRaw s n = true) (fresh : evPend s n = false) :
    rget (evaServe n s) F.EVA_LAST.EV = n ∧ rget (evaServe n s) F.EVA_LAST.STROKE_LO = strokeNow s % 2 ^ 32 := by
  have late : Only [.eva, .out] messageFields (evMarked n (evQueued n s)) (evPended n (evQueued n s)) := Only.whenB (vecRise_only _ _)
  have last := evFinished_only n (evEdge n s) (evPended n (evQueued n s))
  have stroke : strokeNow (evQueued n s) = strokeNow s := (evQueued_only n s).get (by decide)
  rw [evaServe_pending raw fresh]
  constructor
  · rw [last.get (by decide), late.get (by decide), evMarked, rget_rset_other _ _ (by decide), rget_rset_same]
    exact Nat.mod_eq_of_lt small
  · rw [last.get (by decide), late.get (by decide), evMarked, rget_rset_same, stroke]

/-! ### Forced sources -/

/-- The forces that have not been served yet are as before. -/
def ForcesKept (s t : State) : Prop := t.eva.forced = s.eva.forced

theorem ForcesKept.trans {s t u : State} (h : ForcesKept s t) (k : ForcesKept t u) : ForcesKept s u := Eq.trans k h

theorem ForcesKept.of_only {ps : List Part} {rs : List Fld} {s t : State} (o : Only ps rs s t) (k : Part.eva ∉ ps) : ForcesKept s t := by
  unfold ForcesKept
  rw [o.1 .eva k]

theorem raise_forces (p b : Nat) (s : State) : ForcesKept s (raise p b s) := by
  unfold raise raiseD
  dsimp only
  split
  · rfl
  · split <;> rfl

theorem makeRoom_forces (q n fuel : Nat) (s : State) : ForcesKept s (makeRoom q n fuel s) := by
  induction fuel generalizing s with
  | zero => rfl
  | succ fuel ih =>
    rw [makeRoom]
    split
    · rfl
    · refine ForcesKept.trans ?_ (ih _)
      exact ForcesKept.trans (.of_only ((setQueue_only _ _ s).trans (inc_only _ _)) (by simp)) (raise_forces _ _ _)

theorem pushEvent_forces (ws : List Nat) (s : State) : ForcesKept s (pushItem qEV ws s) := by
  rw [pushItem, if_pos (Or.inl rfl)]
  refine (makeRoom_forces qEV ws.length (qDepth qEV) s).trans ?_
  unfold placeItem thrCheck
  dsimp only
  split
  · exact raise_forces _ _ _
  · rfl

theorem forAll_forces {α : Type} {f : α → State → State} (h : ∀ x s, ForcesKept s (f x s)) (xs : List α) (s : State) : ForcesKept s (forAll xs f s) :=
  forAll_keeps (fun s => s.eva.forced) f h xs s

theorem evQueued_forces (n : Nat) (s : State) : ForcesKept s (evQueued n s) := by
  have taken : ForcesKept s (evTaken n s) := rfl
  refine taken.trans ?_
  unfold evQueued evItems
  split
  · exact forAll_forces (fun r s => (pushEvent_forces _ s).trans (.of_only (inc_only _ _) (by simp))) _ _
  · rfl

theorem vecSend_forces (v : Nat) (s : State) : ForcesKept s (vecSend v s) := by
  unfold vecSend
  split
  · exact ForcesKept.trans (.of_only (setBitOf_only _ _ s) (by simp)) (raise_forces _ _ _)
  · dsimp only
    split <;> rfl

theorem vecRise_forces (v : Nat) (s : State) : ForcesKept s (vecRise v s) := by
  unfold vecRise
  split
  · rfl
  · exact vecSend_forces v s

theorem evPended_forces (n : Nat) (s : State) : ForcesKept s (evPended n s) := by
  refine ForcesKept.trans (.of_only (evMarked_only n s) (by simp)) ?_
  unfold evPended
  cases on s F.EVA_CTRL.MSIX_EN && evEn s n
  · rfl
  · exact vecRise_forces _ _

/-- A service takes its own source's force off, and no other. -/
theorem forced_evaServe (n : Nat) (s : State) : (evaServe n s).eva.forced = s.eva.forced.filter (· != n) := by
  have bit : ForcesKept s (if evRaw s n && !evPend s n then evPended n (evQueued n s) else evQueued n s) := by
    split
    · exact (evQueued_forces n s).trans (evPended_forces n _)
    · exact evQueued_forces n s
  have slots (x : State) : ForcesKept x (whenB (evEdge n s) (scribeEvent n) x) := .of_only (Only.whenB (scribeEvent_only n x)) (by simp)
  rw [evaServe_eq, evFinished, (irqSettled_only _).1 .eva (by simp)]
  show List.filter _ (whenB _ _ _).eva.forced = _
  rw [slots _, bit]

end Sys2Proof.Machine

/-! SUPPORT. The register writes of EVA: what is cleared, forced, enabled and mapped (R385, R388), and the obligation on events. -/

namespace Sys2Proof.Machine

theorem bitSet_bitsOf (l : List Nat) (i : Nat) : bitSet (bitsOf l) i = decide (i ∈ l) := by
  induction l with
  | nil => simp [bitsOf, bitSet_eq_testBit]
  | cons k l ih =>
    rw [bitsOf, bitSet_setBit, ih, Bool.eq_iff_iff]
    simp only [Bool.or_eq_true, decide_eq_true_eq, List.mem_cons]
    tauto

/-! ### The commons of a step's result -/

/-- IRQ_N shows its level. -/
def IrqShown (t : State) : Prop := on t F.EVA_IRQ.LEVEL = irqLow t

theorem IrqShown.keepAll {s t : State} (h : IrqShown t) : IrqShown (Machine.keepAll s t) := by
  have level : irqLow (Machine.keepAll s t) = irqLow t := irqLow_congr (rget_keepAll _ _ (by decide))
    (fun j hj => rget_keepAll _ _ (by simp [strokeBase]; omega)) fun j hj i hi => rget_keepAll _ _ (by simp [strokeBase]; omega)
  rw [IrqShown, level, on, rget_keepAll _ _ (by decide)]
  exact h

theorem evPend_keepAll {k : Nat} (small : k < 128) (s t : State) : evPend (keepAll s t) k = evPend t k :=
  evPend_congr (rget_keepAll _ _ (by simp [strokeBase]; omega))

/-! ### EVA_PEND -/

theorem evRaw_accessBegins (w : Requester) (s : State) (n : Nat) : evRaw (accessBegins w s) n = evRaw s n := by
  obtain ⟨p, only⟩ := accessBegins_only w s
  have pend (p : Nat) : rget (accessBegins w s) (F.EVT_PEND.PEND p) = rget s (F.EVT_PEND.PEND p) := rget_accessBegins w s (by simp; omega)
  have mask (p : Nat) : rget (accessBegins w s) (F.EVT_MASK.MASK p) = rget s (F.EVT_MASK.MASK p) := rget_accessBegins w s (by simp; omega)
  unfold evRaw
  rw [only.1 .eva (by simp)]
  simp only [pend, mask]

theorem evaPendClear_eq (j m : Nat) (s : State) : evaPendClear j m s = irqSettled (rset (F.EVA_PEND.PEND j)
    (clrBits (rget s (F.EVA_PEND.PEND j)) (clrBits m (bitsOf (indicesWhere 64 (fun i => bitSet m i && evRaw s (64 * j + i)))))) s) := rfl

theorem evaPendClear_only (j m : Nat) (s : State) : Only [.out] (F.EVA_PEND.PEND j :: irqFields) s (evaPendClear j m s) := by
  rw [evaPendClear_eq]
  exact ((rset_only _ _ s).trans (irqSettled_only _)).mono (by simp) (by simp)

theorem bitSet_evaPendClear {j i : Nat} (hj : j < 2) (hi : i < 64) (m : Nat) (s : State) :
    bitSet (rget (evaPendClear j m s) (F.EVA_PEND.PEND j)) i = (bitSet (rget s (F.EVA_PEND.PEND j)) i && (!bitSet m i || evRaw s (64 * j + i))) := by
  rw [evaPendClear_eq, (irqSettled_only _).get (by simp [irqFields]; omega), rget_rset_same, bitSet_mod _ _ _ hi, bitSet_clrBits, bitSet_clrBits,
    bitSet_bitsOf]
  simp only [mem_indicesWhere, hi, true_and]
  cases bitSet m i <;> simp

/-- A write of EVA's own page acts as the page's effect says. -/
theorem pageEffect_eva {off : Nat} (page : pageAt off = pEVA) (r : Req) (v : Nat) (before s : State) :
    pageEffect r off v before s = evaEffect (slotAt off) v before s := by
  unfold pageEffect
  rw [page]
  rfl

theorem applyWrite_evaPend {j : Nat} (hj : j < 2) (r : Req) (v : Nat) (s : State) : applyWrite r (regOff (F.EVA_PEND.PEND j)) v s = evaPendClear j v s := by
  have place : ∀ j < 2, ¬ slotAt (regOff (F.EVA_PEND.PEND j)) < 0x80 ∧ windowAt (regOff (F.EVA_PEND.PEND j)) = none
      ∧ effectOnly (regOff (F.EVA_PEND.PEND j)) = true ∧ pageAt (regOff (F.EVA_PEND.PEND j)) = pEVA := by decide
  obtain ⟨past, noWindow, whole, page⟩ := place j hj
  rw [applyWrite, if_neg past, noWindow]
  dsimp only
  rw [whole, if_pos rfl, pageEffect_eva page]
  rcases (by omega : j = 0 ∨ j = 1) with rfl | rfl <;> rfl

theorem runs_evaPendClear {s : State} {r : Req} {j : Nat} (hj : j < 2) (m : Nat) (served : Served r.who (regOff (F.EVA_PEND.PEND j)) s) :
    Runs (.evaPendClear r j m) s fun t => IrqShown t
      ∧ (∀ i, i < 64 → bitSet (rget t (F.EVA_PEND.PEND j)) i = (bitSet (rget s (F.EVA_PEND.PEND j)) i && (!bitSet m i || evRaw s (64 * j + i))))
      ∧ Only [.out] (F.EVA_PEND.PEND j :: irqFields) (accessBegins r.who s) t := by
  have key : (F.EVA_PEND.PEND j).key < strokeBase := by simp [strokeBase]; omega
  refine runs_write (ok := decide (j < 2)) rfl (by simp [hj]) served ?_
  rw [applyWrite_evaPend hj, ← keepAll_accessBegins r.who]
  refine ⟨IrqShown.keepAll ?_, fun i hi => ?_, (evaPendClear_only j _ _).keepAll⟩
  · rw [evaPendClear_eq]
    exact irqSettled_level _
  · rw [rget_keepAll _ _ key, bitSet_evaPendClear hj hi, bitSet_mod _ _ _ hi, evRaw_accessBegins, rget_accessBegins _ _ (by simp; omega)]

/-! ### EVA_FORCE -/

theorem waiterSees_only (ns : List Nat) (h : Nat) (s : State) : Only [.halves] [] s (waiterSees ns h s) := by
  unfold waiterSees
  split
  · exact Only.ite (fun _ => halves_only _ s) fun _ => (Only.refl s).mono (by simp) (by simp)
  · exact (Only.refl s).mono (by simp) (by simp)

/-- The sources that a write of EVA_FORCE forces. -/
def forcedBy (j m : Nat) : List Nat := (indicesWhere 64 (bitSet m)).map (fun i => 64 * j + i) |>.filter (fun n => !evReserved n)

theorem mem_forcedBy {j m n : Nat} : n ∈ forcedBy j m ↔ (∃ i < 64, bitSet m i = true ∧ n = 64 * j + i) ∧ evReserved n = false := by
  simp only [forcedBy, List.mem_filter, List.mem_map, mem_indicesWhere, Bool.not_eq_true']
  refine and_congr_left fun _ => exists_congr fun i => ?_
  exact ⟨fun ⟨⟨a, b⟩, c⟩ => ⟨a, b, c.symm⟩, fun ⟨a, b, c⟩ => ⟨⟨a, b⟩, c.symm⟩⟩

/-- The sources have been forced, and the scribes that wait for one have seen it. -/
def forcesBegun (ns : List Nat) (s : State) : State :=
  { s with eva := { s.eva with forced := s.eva.forced ++ ns } } |> forAll [0, 1] (waiterSees ns)

theorem evaForce_eq (j m : Nat) (s : State) : evaForce j m s = forAll (forcedBy j m) evaServe (forcesBegun (forcedBy j m) s) := rfl

theorem forcesBegun_only (ns : List Nat) (s : State) : Only [.eva, .halves] [] s (forcesBegun ns s) :=
  ((eva_only _ s).trans (Only.forAll _ (fun h _ s => waiterSees_only ns h s) _)).mono (by simp) (by simp)

theorem forcesBegun_forced (ns : List Nat) (s : State) : (forcesBegun ns s).eva.forced = s.eva.forced ++ ns := by
  have waiters := Only.forAll [0, 1] (fun h _ s => waiterSees_only ns h s) { s with eva := { s.eva with forced := s.eva.forced ++ ns } }
  rw [forcesBegun, waiters.1 .eva (by simp)]

theorem serveAll_keeps {k : Nat} (small : k < 128) (ns : List Nat) {s : State} (pend : evPend s k = true) : evPend (forAll ns evaServe s) k = true := by
  induction ns generalizing s with
  | nil => exact pend
  | cons n ns ih =>
    refine ih ?_
    rw [evPend_evaServe small, pend, Bool.true_or]

/-- A source that stands forced becomes pending as it is served. -/
theorem serveAll_forces {k : Nat} (small : k < 128) (real : evReserved k = false) {ns : List Nat} (mem : k ∈ ns) {s : State} (forced : k ∈ s.eva.forced) :
    evPend (forAll ns evaServe s) k = true := by
  induction ns generalizing s with
  | nil => exact absurd mem (by simp)
  | cons n ns ih =>
    by_cases same : k = n
    · subst same
      have raw : evRaw s k = true := by simp [evRaw, real, forced]
      refine serveAll_keeps (s := evaServe k s) small ns ?_
      rw [evPend_evaServe small, raw]
      simp
    · refine ih (s := evaServe n s) ((List.mem_cons.mp mem).resolve_left same) ?_
      rw [forced_evaServe]
      exact List.mem_filter.mpr ⟨forced, by simp [same]⟩

theorem serveAll_within {ns : List Nat} (small : ∀ n ∈ ns, n < 128) (s : State) :
    Within [.eva, .queues, .halves, .out] [pEVA, pQUE, pSCRR, pSCRV] s (forAll ns evaServe s) :=
  Within.forAll ns (fun n hn s => evaServe_within (small n hn) s) s

theorem evaForce_does {j : Nat} (hj : j < 2) (m : Nat) (s : State) :
    (∀ i, i < 64 → bitSet m i = true → evReserved (64 * j + i) = false → evPend (evaForce j m s) (64 * j + i) = true)
      ∧ (∀ k, k < 128 → evPend s k = true → evPend (evaForce j m s) k = true)
      ∧ Within [.eva, .queues, .halves, .out] [pEVA, pQUE, pSCRR, pSCRV] s (evaForce j m s) := by
  have small : ∀ n ∈ forcedBy j m, n < 128 := by
    intro n hn
    obtain ⟨⟨i, hi, -, rfl⟩, -⟩ := mem_forcedBy.mp hn
    omega
  have begun := forcesBegun_only (forcedBy j m) s
  rw [evaForce_eq]
  refine ⟨fun i hi set real => ?_, fun k hk pend => serveAll_keeps hk _ ((evPend_congr (begun.get (by simp))).trans pend), ?_⟩
  · have mem : 64 * j + i ∈ forcedBy j m := mem_forcedBy.mpr ⟨⟨i, hi, set, rfl⟩, real⟩
    refine serveAll_forces (by omega) real mem ?_
    rw [forcesBegun_forced]
    exact List.mem_append_right _ mem
  · exact (begun.withinPages (by simp) (by simp)).seq (serveAll_within small _)

theorem evaEffect_force {j : Nat} (hj : j < 2) (r : Req) (v : Nat) (before s : State) :
    pageEffect r (regOff (F.EVA_FORCE.FORCE j)) v before s = evaForce j v s := by
  rcases (by omega : j = 0 ∨ j = 1) with rfl | rfl <;> rfl

theorem runs_evaForce {s : State} {r : Req} {j : Nat} (hj : j < 2) (m : Nat) (served : Served r.who (regOff (F.EVA_FORCE.FORCE j)) s) :
    Runs (.evaForce r j m) s fun t => (∀ i, i < 64 → bitSet m i = true → evReserved (64 * j + i) = false → evPend t (64 * j + i) = true)
      ∧ (∀ k, k < 128 → evPend s k = true → evPend t k = true)
      ∧ ∃ u, Stored (regOff (F.EVA_FORCE.FORCE j)) s u ∧ Within [.eva, .queues, .halves, .out] [pEVA, pQUE, pSCRR, pSCRV] u t := by
  have plain : ∀ j < 2, plainReg (regOff (F.EVA_FORCE.FORCE j)) = true := by decide
  have apart : ∀ j < 2, ∀ i < 2, (F.EVA_PEND.PEND i).key ∉ (rowFields (regOff (F.EVA_FORCE.FORCE j))).map (·.key) := by decide
  refine runs_plain (ok := decide (j < 2)) rfl (by simp [hj]) served (plain j hj) fun u st => ?_
  rw [evaEffect_force hj]
  obtain ⟨sets, keeps, within⟩ := evaForce_does hj (m % 2 ^ 64) u
  refine ⟨fun i hi set real => ?_, fun k hk pend => ?_, u, st, st.keepAllWithin within⟩
  · rw [evPend_keepAll (by omega)]
    exact sets i hi (by rwa [bitSet_mod _ _ _ hi]) real
  · rw [evPend_keepAll hk]
    refine keeps k hk ?_
    rw [evPend_congr (st.get (apart j hj _ (by omega)) (by simp; omega)), pend]

end Sys2Proof.Machine

/-! SUPPORT. The enables and vectors of EVA (R385), the end of a vector's gap, and the obligation on events. -/

namespace Sys2Proof.Machine

/-! ### Fields of a plain register -/

theorem slice_mod_word {lo w : Nat} (fits : lo + w ≤ 64) (v : Nat) : slice lo w (v % 2 ^ 64) = slice lo w v := by
  have split : (2 : Nat) ^ 64 = 2 ^ lo * 2 ^ (64 - lo) := by
    rw [← Nat.pow_add]
    congr 1
    omega
  rw [slice_eq, slice_eq, split, Nat.mod_mul_right_div_self, Nat.mod_mod_of_dvd _ (Nat.pow_dvd_pow 2 (by omega))]

/-- The field is one of the register's, and takes the word's bits from `lo` on at once, without a span to keep to. -/
def freeField (off lo : Nat) (f : Fld) : Bool :=
  match rowField off lo with
  | some g => g.access == .rw && g.commit == .now && g.span.isNone && decide (fieldOf off g = f)
  | none => false

theorem rget_storeNow_free {off lo : Nat} {f : Fld} (free : freeField off lo f = true) (v : Nat) (s : State) :
    rget (storeNow off v s) f = slice lo f.width v := by
  unfold freeField at free
  split at free
  case h_2 => exact absurd free (by simp)
  case h_1 g found =>
    simp only [Bool.and_eq_true, beq_iff_eq, Option.isNone_iff_eq_none, decide_eq_true_eq] at free
    obtain ⟨⟨⟨rw', now⟩, noSpan⟩, rfl⟩ := free
    exact rget_storeNow found ⟨rw', now, noSpan⟩ v s

theorem storeMarked_plain {off : Nat} (plain : plainReg off = true) (v : Nat) (s : State) : storeMarked off v s = storeShadow off v s := by
  simp only [plainReg, Bool.and_eq_true, bne_iff_ne, ne_eq] at plain
  obtain ⟨⟨⟨-, flourish⟩, rotation⟩, jump⟩ := plain
  simp [storeMarked, shadowMarks, flourish, rotation, jump]

theorem rget_plainStored {off lo : Nat} {f : Fld} (plain : plainReg off = true) (free : freeField off lo f = true) (fits : lo + f.width ≤ 64)
    (r : Req) (v : Nat) (s : State) : rget (plainStored r off v s) f = slice lo f.width v := by
  rw [plainStored, storeMarked_plain plain, (storeShadow_only _ _ _).get (by simp), rget_storeNow_free free, slice_mod_word fits]

/-! ### The enables and the vectors -/

/-- The rises that a change of the enables or vectors makes. -/
def remapped (before s : State) : State :=
  forAll ((List.range 128).filter (fun n => evPend s n && evEn s n && on s F.EVA_CTRL.MSIX_EN && (evVec s n != evVec before n || !evEn before n)))
    (fun n s => vecRise (evVec s n) s) s

theorem evaRemap_eq (before s : State) : evaRemap before s = irqSettled (remapped before s) := rfl

theorem evaRemap_only (before s : State) : Only [.eva, .out] (messageFields ++ irqFields) s (evaRemap before s) :=
  ((Only.forAll _ (fun n _ s => vecRise_only (evVec s n) s) s).trans (irqSettled_only _)).mono (by simp) (by simp [messageFields])

theorem evaRemap_shows (before s : State) : IrqShown (evaRemap before s) := irqSettled_level _

theorem messageFields_pages : (messageFields ++ irqFields).map pageOf ⊆ [pEVA] := by decide

theorem evaRemap_within (before s : State) : Within [.eva, .out] [pEVA] s (evaRemap before s) :=
  (evaRemap_only before s).withinPages (by simp) messageFields_pages

theorem bitSet_evMask {j i : Nat} (hi : i < 64) (v : Nat) : bitSet (evMask j v) i = (bitSet v i && !evReserved (64 * j + i)) := by
  have both : bitSet (evMask j v) i = (bitSet v i && bitSet (bitsOf (indicesWhere 64 fun i => !evReserved (64 * j + i))) i) := by
    simp only [bitSet_eq_testBit, evMask, Nat.testBit_and]
  rw [both, bitSet_bitsOf]
  simp [mem_indicesWhere, hi]

theorem evaEffect_enables {j : Nat} (hj : j < 2) (r : Req) (v : Nat) (before s : State) :
    pageEffect r (regOff (F.EVA_EN.EN j)) v before s = evaRemap before (rset (F.EVA_EN.EN j) (evMask j v) s) := by
  rcases (by omega : j = 0 ∨ j = 1) with rfl | rfl <;> rfl

theorem runs_enables {s : State} {r : Req} {j : Nat} (hj : j < 2) (v : Nat) (served : Served r.who (regOff (F.EVA_EN.EN j)) s) :
    Runs (.evaVecWrite r true j v) s fun t => IrqShown t
      ∧ (∀ i, i < 64 → bitSet (rget t (F.EVA_EN.EN j)) i = (bitSet v i && !evReserved (64 * j + i)))
      ∧ ∃ u, Stored (regOff (F.EVA_EN.EN j)) s u ∧ Within [.eva, .out] [pEVA] u t := by
  have plain : ∀ j < 2, plainReg (regOff (F.EVA_EN.EN j)) = true := by decide
  have page : ∀ j < 2, [F.EVA_EN.EN j].map pageOf ⊆ [pEVA] := by decide
  refine runs_plain (ok := decide (j < 2)) (off := regOff (F.EVA_EN.EN j)) rfl (by simp [hj]) served (plain j hj) fun u st => ?_
  rw [evaEffect_enables hj]
  refine ⟨(evaRemap_shows _ _).keepAll, fun i hi => ?_, u, st, st.keepAllWithin ?_⟩
  · rw [rget_keepAll _ _ (by simp [strokeBase]; omega), (evaRemap_only _ _).get (by simp [messageFields, irqFields]; omega), rget_rset_same,
      bitSet_mod _ _ _ hi, bitSet_evMask hi, bitSet_mod _ _ _ hi]
  · exact ((rset_only _ _ u).withinPages (by simp) (page j hj)).seq (evaRemap_within _ _)

theorem evaEffect_vectors {j : Nat} (hj : j < 16) (r : Req) (v : Nat) (before s : State) :
    pageEffect r (regOff (F.EVA_VEC.VECTOR j 0)) v before s = evaRemap before s := by
  have place : ∀ j < 16, pageAt (regOff (F.EVA_VEC.VECTOR j 0)) = pEVA ∧ slotAt (regOff (F.EVA_VEC.VECTOR j 0)) ∉ [0x98, 0xA0, 0xA8, 0xB0, 0xB8, 0xC0, 0xF0, 0xF8] := by
    decide
  obtain ⟨page, slot⟩ := place j hj
  simp only [List.mem_cons, List.not_mem_nil, or_false, not_or] at slot
  simp [pageEffect_eva page, evaEffect, slot]

theorem vectors_free : ∀ j < 16, ∀ i < 8, evReserved (8 * j + i) = false →
    freeField (regOff (F.EVA_VEC.VECTOR j 0)) (8 * i) (F.EVA_VEC.VECTOR j i) = true
      ∧ freeField (regOff (F.EVA_VEC.VECTOR j 0)) (8 * i + 5) (F.EVA_VEC.IRQ j i) = true := by decide

theorem runs_vectors {s : State} {r : Req} {j : Nat} (hj : j < 16) (v : Nat) (served : Served r.who (regOff (F.EVA_VEC.VECTOR j 0)) s) :
    Runs (.evaVecWrite r false j v) s fun t => IrqShown t
      ∧ (∀ i, i < 8 → evReserved (8 * j + i) = false →
          rget t (F.EVA_VEC.VECTOR j i) = slice (8 * i) 5 v ∧ rget t (F.EVA_VEC.IRQ j i) = slice (8 * i + 5) 1 v)
      ∧ ∃ u, Stored (regOff (F.EVA_VEC.VECTOR j 0)) s u ∧ Within [.eva, .out] [pEVA] u t := by
  have plain : ∀ j < 16, plainReg (regOff (F.EVA_VEC.VECTOR j 0)) = true := by decide
  refine runs_act (f := wideWrite r (regOff (F.EVA_VEC.VECTOR j 0)) v) (ok := decide (j < 16)) rfl served.1 (by simp [hj]) ?_
  rw [served_plain served (plain j hj), evaEffect_vectors hj]
  have st := plain_stored (v := v) served (plain j hj)
  refine ⟨(evaRemap_shows _ _).keepAll, fun i hi real => ?_, _, st, st.keepAllWithin (evaRemap_within _ _)⟩
  obtain ⟨vec, irq⟩ := vectors_free j hj i hi real
  constructor
  · rw [rget_keepAll _ _ (by simp [strokeBase]; omega), (evaRemap_only _ _).get (by simp [messageFields, irqFields]; omega),
      rget_plainStored (plain j hj) vec (by show _ + 5 ≤ 64; omega)]
  · rw [rget_keepAll _ _ (by simp [strokeBase]; omega), (evaRemap_only _ _).get (by simp [messageFields, irqFields]; omega),
      rget_plainStored (plain j hj) irq (by show _ + 1 ≤ 64; omega)]

/-! ### The end of a vector's gap -/

/-- The vector has neither a gap nor folded rises. -/
def gapOver (v : Nat) (s : State) : State :=
  { s with eva := { s.eva with inGap := s.eva.inGap.filter (· != v), folded := s.eva.folded.filter (· != v) } }

theorem gapEnd_eq (v : Nat) (s : State) : gapEnd v s = whenB (s.eva.folded.contains v) (vecSend v) (gapOver v s) := rfl

theorem gapOver_only (v : Nat) (s : State) : Only [.eva] [] s (gapOver v s) := eva_only _ s

/-- A message begins its vector's gap. -/
theorem vecSend_gap {s : State} {v : Nat} (free : vecBlocked s v = false) (gap : rget s F.EVA_CTRL.VEC_GAP_US ≠ 0) (apart : v ∉ s.eva.inGap) :
    (vecSend v s).eva = { s.eva with inGap := s.eva.inGap ++ [v] } := by
  have sent : Only [.out] [F.EVA_MSGS.SENT] s (emit (.msix v) (inc F.EVA_MSGS.SENT s)) := ((inc_only _ s).trans (emit_only _ _)).mono (by simp) (by simp)
  have gap' : rget (emit (.msix v) (inc F.EVA_MSGS.SENT s)) F.EVA_CTRL.VEC_GAP_US ≠ 0 := by rwa [sent.get (by decide)]
  have fresh : ¬ (emit (.msix v) (inc F.EVA_MSGS.SENT s)).eva.inGap.contains v = true := by
    rw [sent.1 .eva (by simp)]
    simpa using apart
  unfold vecSend
  rw [free, if_neg Bool.false_ne_true]
  dsimp only
  rw [if_neg (not_or.mpr ⟨gap', fresh⟩), sent.1 .eva (by simp)]

theorem runs_gapEnd_folded {s : State} {v : Nat} (u : Up s) (fits : v < 32) (folded : s.eva.folded.contains v = true)
    (free : vecBlocked s v = false) (gap : rget s F.EVA_CTRL.VEC_GAP_US ≠ 0) : Runs (.vecGapExpiry v) s fun t =>
      t.out = s.out ++ [.msix v] ∧ rget t F.EVA_MSGS.SENT = min (2 ^ 32 - 1) (rget s F.EVA_MSGS.SENT + 1)
        ∧ t.eva.folded = s.eva.folded.filter (· != v) ∧ t.eva.inGap = s.eva.inGap.filter (· != v) ++ [v] ∧ Only [.eva, .out] [F.EVA_MSGS.SENT] s t := by
  refine runs_act (f := gapEnd v) (ok := decide (v < 32)) rfl u (by simp [fits]) ?_
  rw [gapEnd_eq, folded, whenB_true]
  have ended := gapOver_only v s
  have free' : vecBlocked (gapOver v s) v = false := (vecBlocked_of_only ended (by simp) (by simp) v).trans free
  have begun : (vecSend v (gapOver v s)).eva = { (gapOver v s).eva with inGap := (gapOver v s).eva.inGap ++ [v] } :=
    vecSend_gap free' (by rwa [ended.get (by simp)]) (by simp [gapOver])
  obtain ⟨only, out, count⟩ := vecSend_free free'
  generalize vecSend v (gapOver v s) = t at *
  refine ⟨out, by rw [rget_keepAll _ _ (by decide), count, ended.get (by simp)], ?_, ?_, ((ended.trans only).mono (by simp) (by simp)).keepAll⟩
  · show t.eva.folded = _
    rw [begun]
    rfl
  · show t.eva.inGap = _
    rw [begun]
    rfl

theorem runs_gapEnd_alone {s : State} {v : Nat} (u : Up s) (fits : v < 32) (alone : s.eva.folded.contains v = false) :
    Runs (.vecGapExpiry v) s fun t => t.eva.inGap = s.eva.inGap.filter (· != v) ∧ Only [.eva] [] s t := by
  refine runs_act (f := gapEnd v) (ok := decide (v < 32)) rfl u (by simp [fits]) ?_
  rw [gapEnd_eq, alone, whenB_false]
  exact ⟨rfl, (gapOver_only v s).keepAll⟩

/-! ### A source is served -/

theorem others_evaServe {n : Nat} (s : State) : ∀ k, k < 128 → k ≠ n → evPend (keepAll s (evaServe n s)) k = evPend s k := by
  intro k hk other
  rw [evPend_keepAll hk, evPend_evaServe hk]
  simp [other]

theorem runs_serve_raw {s : State} {n : Nat} (u : Up s) (hn : n < 128) (raw : evRaw s n = true) (fresh : evPend s n = false) :
    Runs (.evaSourceRise n) s fun t => evPend t n = true ∧ (∀ k, k < 128 → k ≠ n → evPend t k = evPend s k) ∧ IrqShown t
      ∧ rget t F.EVA_LAST.EV = n ∧ rget t F.EVA_LAST.STROKE_LO = strokeNow s % 2 ^ 32
      ∧ (on s F.EVA_CTRL.MSIX_EN = true → evEn s n = true → rget s F.EVA_CTRL.VEC_GAP_US = 0 →
          (vecBlocked s (evVec s n) = false → .msix (evVec s n) ∈ t.out)
          ∧ (vecBlocked s (evVec s n) = true → evVec s n < 32 → bitSet (rget t F.EVA_VPEND.HELD) (evVec s n) = true ∧ Pends pEVA 0 t))
      ∧ Within [.eva, .queues, .halves, .out] [pEVA, pQUE, pSCRR, pSCRV] s t := by
  refine runs_act (f := evaServe n) (ok := decide (n < 128)) rfl u (by simp [hn]) ?_
  obtain ⟨source, stroke⟩ := evaServe_last hn raw fresh
  refine ⟨?_, others_evaServe s, IrqShown.keepAll (evaServe_level n s), ?_, ?_, fun msix enabled gap => ?_, (evaServe_within hn s).keepAll⟩
  · rw [evPend_keepAll hn, evPend_evaServe hn, raw]
    simp
  · rw [rget_keepAll _ _ (by decide), source]
  · rw [rget_keepAll _ _ (by decide), stroke]
  · obtain ⟨goes, held⟩ := evaServe_sends hn raw fresh msix enabled gap
    refine ⟨goes, fun blocked small => ?_⟩
    obtain ⟨bit, pends⟩ := held blocked small
    exact ⟨by rw [rget_keepAll _ _ (by decide), bit], Pends.keepAll (by decide) pends⟩

theorem runs_serve_low {s : State} {n : Nat} (u : Up s) (hn : n < 128) (low : evRaw s n = false) :
    Runs (.evaSourceRise n) s fun t => evPend t n = evPend s n ∧ (∀ k, k < 128 → k ≠ n → evPend t k = evPend s k) ∧ IrqShown t
      ∧ Within [.eva, .queues, .halves, .out] [pEVA, pQUE, pSCRR, pSCRV] s t := by
  refine runs_act (f := evaServe n) (ok := decide (n < 128)) rfl u (by simp [hn]) ?_
  refine ⟨?_, others_evaServe s, IrqShown.keepAll (evaServe_level n s), (evaServe_within hn s).keepAll⟩
  rw [evPend_keepAll hn, evPend_evaServe hn, low]
  simp

/-- Settles O45: one lemma for each command; a service by the parts of `evaServe_eq`. -/
theorem eventsServed : Obligations.EventsServed := by
  intro s r n v j m u irq others
  exact ⟨fun hn raw fresh => runs_serve_raw u hn raw fresh, fun hn low => runs_serve_low u hn low,
    fun fits folded free gap => runs_gapEnd_folded u fits folded free gap, fun fits alone => runs_gapEnd_alone u fits alone,
    fun hj served => runs_evaPendClear hj m served, fun hj served => runs_evaForce hj m served,
    fun hj served => runs_enables hj v served, fun hj served => runs_vectors hj v served⟩

end Sys2Proof.Machine

/-! SUPPORT. The accesses of the register spine: BAR0's halves (R25), 64-bit writes that are served or refused (R26 to R36), and SPI frames (R28). -/

namespace Sys2Proof.Machine

/-! ### Fields of a page's header -/

/-- A page's fields lie below the live copies. -/
theorem page_key_lt {p : Nat} (mem : p ∈ allPages) {o : Nat} (small : o < 32768) : p * 32768 + o < strokeBase := by
  have all : ∀ p ∈ allPages, p < 64 := by decide
  have := all p mem
  simp only [strokeBase]
  omega

/-! ### SCRATCH -/

/-- A write of SCRATCH, which every requester may write, only makes SCRATCH the word. -/
theorem writeReg_scratch {p : Nat} (mem : p ∈ allPages) (r : Req) (v : Nat) (s : State) :
    writeReg r (p * 4096 + 0x68) v s = rset (F.SCRATCH.SCRATCH p) (v % 2 ^ 64) s := by
  have page : pageAt (p * 4096 + 0x68) = p := by simp only [pageAt]; omega
  have slot : slotAt (p * 4096 + 0x68) = 0x68 := by simp only [slotAt]; omega
  have reg : isReg (p * 4096 + 0x68) = true := by
    simp only [isReg, page, slot, List.contains_iff_mem.mpr mem, Bool.and_true]
    simp
    omega
  have unlocked : isLocked (p * 4096 + 0x68) = false := by
    unfold isLocked
    rw [slot]
    split <;> simp
  have may : mayWrite r.who (p * 4096 + 0x68) s = true := by
    simp [mayWrite, slot, anyWriter]
  unfold writeReg
  rw [reg, may, unlocked]
  simp only [Bool.not_true, Bool.false_and, Bool.false_eq_true, if_false]
  rw [applyWrite, slot, page]
  rfl

/-! ### BAR0 (R25) -/

/-- BAR0 holds no half any more. -/
def unheld (s : State) : State := { s with spine := { s.spine with hold := none } }

theorem unheld_only (s : State) : Only [.spine] [] s (unheld s) := spine_only _ s

theorem keepAll_hold (s t : State) : (keepAll s t).spine.hold = t.spine.hold := rfl
theorem rset_hold (f : Fld) (v : Nat) (s : State) : (rset f v s).spine.hold = s.spine.hold := by rw [rset_spine]

theorem halfDrop_none {s : State} (hold : s.spine.hold = none) : halfDrop s = s := by
  unfold halfDrop
  rw [hold]

theorem runs_halfWriteLow {s : State} (u : Up s) (hold : s.spine.hold = none) (off v : Nat) : Runs (.halfWriteLow off v) s fun t =>
    t.spine.hold = some (off, v % 2 ^ 32) ∧ Only [.spine] [] s t := by
  refine runs_act (ok := true) (f := halfWriteLow off v) rfl u rfl ?_
  rw [halfWriteLow, halfDrop_none hold]
  exact ⟨rfl, (spine_only _ s).keepAll⟩

theorem runs_halfWriteHigh {s : State} {p lo : Nat} (u : Up s) (mem : p ∈ allPages) (hold : s.spine.hold = some (p * 4096 + 0x68, lo))
    (low : lo < 2 ^ 32) (cyc : Nat) {v : Nat} (high : v < 2 ^ 32) : Runs (.halfWriteHigh cyc (p * 4096 + 0x68) v) s fun t =>
      rget t (F.SCRATCH.SCRATCH p) = v * 2 ^ 32 + lo ∧ t.spine.hold = none ∧ Only [.spine] [F.SCRATCH.SCRATCH p] s t := by
  refine runs_act (ok := true) (f := halfWriteHigh cyc (p * 4096 + 0x68) v) rfl u rfl ?_
  have pair : halfWriteHigh cyc (p * 4096 + 0x68) v s =
      rset (F.SCRATCH.SCRATCH p) ((lo + v % 2 ^ 32 * 2 ^ 32) % 2 ^ 64) (unheld s) := by
    unfold halfWriteHigh
    rw [hold]
    dsimp only
    rw [if_pos rfl, writeReg_scratch mem]
    rfl
  rw [pair]
  refine ⟨?_, by rw [keepAll_hold, rset_hold]; rfl, (((unheld_only s).trans (rset_only _ _ _)).mono (by simp) (by simp)).keepAll⟩
  rw [rget_keepAll _ _ (by have := page_key_lt mem (o := 0x68 * 8) (by decide); simp only [strokeBase] at *; omega), rget_rset_same]
  show (lo + v % 2 ^ 32 * 2 ^ 32) % 2 ^ 64 % 2 ^ 64 = _
  omega

theorem runs_halfDiscard {s : State} {off lo : Nat} (u : Up s) (mem : pageAt off ∈ allPages) (hold : s.spine.hold = some (off, lo)) :
    Runs .halfDiscardTimeout s fun t => t.spine.hold = none
      ∧ rget t (F.PAGE_STATUS.HALF_DROPPED (pageAt off)) = min 255 (rget s (F.PAGE_STATUS.HALF_DROPPED (pageAt off)) + 1)
      ∧ Only [.spine] [F.PAGE_STATUS.HALF_DROPPED (pageAt off)] s t := by
  refine runs_act (ok := true) (f := halfDrop) rfl u rfl ?_
  have dropped : halfDrop s = inc (F.PAGE_STATUS.HALF_DROPPED (pageAt off)) (unheld s) := by
    unfold halfDrop
    rw [hold]
    dsimp only
    rw [List.contains_iff_mem.mpr mem, if_pos rfl]
    rfl
  rw [dropped]
  refine ⟨by rw [keepAll_hold, inc, incBy, rset_hold]; rfl, ?_, (((unheld_only s).trans (inc_only _ _)).mono (by simp) (by simp)).keepAll⟩
  rw [rget_keepAll _ _ (by have := page_key_lt mem (o := 243) (by decide); simp only [strokeBase] at *; omega), rget_inc_same]
  rfl

/-- A register that no read changes. -/
def QuietAt (off : Nat) : Prop := queueAt 0 off = none ∧ queueAt 8 off = none ∧ off ≠ 0x5088

theorem readReg_quiet {off : Nat} (quiet : QuietAt off) (cyc : Nat) (bad : Bool) (s : State) : readReg off cyc bad s = (regView s off, s) := by
  obtain ⟨noData, noEnd, notNow⟩ := quiet
  unfold readReg
  rw [noData, noEnd]
  exact if_neg notNow

theorem runs_halfReadLow {s : State} {off : Nat} (u : Up s) (hold : s.spine.hold = none) (quiet : QuietAt off) (cyc : Nat) (bad : Bool) :
    Runs (.halfReadLow cyc off bad) s fun t => t.spine.latch = some (off, regView s off / 2 ^ 32)
      ∧ t.out = s.out ++ [.read .bar0 off (regView s off % 2 ^ 32)] ∧ Only [.spine, .out] [] s t := by
  refine runs_act (ok := true) (f := halfReadLow cyc off bad) rfl u rfl ?_
  rw [halfReadLow, halfDrop_none hold, readReg_quiet quiet]
  exact ⟨rfl, rfl, ((spine_only _ s).trans (emit_only _ _)).keepAll⟩

theorem runs_halfReadHigh {s : State} {off hi : Nat} (u : Up s) (hold : s.spine.hold = none) (latch : s.spine.latch = some (off, hi)) (cyc : Nat)
    (bad : Bool) : Runs (.halfReadHigh cyc off bad) s fun t =>
      t.spine.latch = none ∧ t.out = s.out ++ [.read .bar0 off hi] ∧ Only [.spine, .out] [] s t := by
  refine runs_act (ok := true) (f := halfReadHigh cyc off bad) rfl u rfl ?_
  have latched : halfReadHigh cyc off bad s = emit (.read .bar0 off hi) { s with spine := { s.spine with latch := none } } := by
    unfold halfReadHigh
    rw [halfDrop_none hold]
    dsimp only
    rw [latch]
    exact if_pos rfl
  rw [latched]
  exact ⟨rfl, rfl, ((spine_only _ s).trans (emit_only _ _)).keepAll⟩

/-- Settles O16: one lemma for each half access. -/
theorem bar0Halves : Obligations.Bar0Halves := by
  intro s cyc off v lo hi p bad u
  exact ⟨fun hold => runs_halfWriteLow u hold off v, fun mem hold low high => runs_halfWriteHigh u mem hold low cyc high,
    fun mem hold => runs_halfDiscard u mem hold, fun hold noData noEnd notNow => runs_halfReadLow u hold ⟨noData, noEnd, notNow⟩ cyc bad,
    fun hold latch => runs_halfReadHigh u hold latch cyc bad⟩

/-! ### 64-bit writes (R26, R34 to R36) -/

/-- A register that stands has its page in the map. -/
theorem isReg_pageAt {off : Nat} (h : isReg off = true) : pageAt off ∈ allPages := isReg_page h

/-- TSU_NOW_S reads as its one field. -/
theorem regView_tsuNow (s : State) : regView s 0x5088 = rget s F.TSU_NOW_S.SECONDS := by
  show 0 + rget s F.TSU_NOW_S.SECONDS * 2 ^ 0 + 0 = _
  omega

/-- A read of TSU_NOW_S latches the stroke. -/
theorem rget_tsuNowRead_stroke (cyc : Nat) (s : State) : rget (tsuNowRead cyc s) F.TSU_NOW_STROKE.STROKE = strokeNow s % 2 ^ 64 := by
  have late (t : State) : Only [] [F.TSU_STRIKE_S.SECONDS, F.TSU_STRIKE_NS.NS, F.TSU_STRIKE_NS.FRAC] t (showStrike t) :=
    (((rset_only _ _ t).trans (rset_only _ _ _)).trans (rset_only _ _ _)).mono (by simp) (by simp)
  unfold tsuNowRead
  dsimp only
  rw [(late _).get (by decide), rget_rset_same]

theorem strokeNow_accessBegins (w : Requester) (s : State) : strokeNow (accessBegins w s) = strokeNow s := rget_accessBegins w s (by decide)

theorem spiRefuse_only (w : Requester) (s : State) : Only [.spine] [] s (spiRefuse w s) := by
  unfold spiRefuse
  split
  · exact spine_only _ s
  · exact (Only.refl s).mono (by simp) (by simp)

/-- A refusal: its counter, the requester, the page's HDR. -/
def refused (counter : Fld) (w : Requester) (p : Nat) (s : State) : State :=
  s |> inc counter |> rset (F.PAGE_STATUS.LAST_REQ p) (reqCode w) |> raise p hdrBit |> spiRefuse w

theorem denyOwn_eq (w : Requester) (p : Nat) (s : State) : denyOwn w p s = refused (F.PAGE_STATUS.OWN_DENIED p) w p s := rfl
theorem denyLock_eq (w : Requester) (p : Nat) (s : State) : denyLock w p s = refused (F.PAGE_STATUS.LOCK_DENIED p) w p s := rfl

theorem refused_only (counter : Fld) (w : Requester) (p : Nat) (s : State) :
    Only [.eva, .spine] [counter, F.PAGE_STATUS.LAST_REQ p, F.EVT_PEND.PEND p] s (refused counter w p s) :=
  ((((inc_only _ s).trans (rset_only _ _ _)).trans (raise_only _ _ _)).trans (spiRefuse_only _ _)).mono (by simp) (by simp)

/-- What a refusal shows, where its counter is neither LAST_REQ nor EVT_PEND. -/
theorem refused_shows {counter : Fld} {p : Nat} (mem : p ∈ allPages)
    (place : counter.key < strokeBase ∧ counter.key ≠ (F.PAGE_STATUS.LAST_REQ p).key ∧ counter.key ≠ (F.EVT_PEND.PEND p).key) (w : Requester) (s a : State) :
    rget (keepAll a (refused counter w p s)) counter = min (2 ^ counter.width - 1) (rget s counter + 1)
      ∧ rget (keepAll a (refused counter w p s)) (F.PAGE_STATUS.LAST_REQ p) = reqCode w ∧ Pends p 16 (keepAll a (refused counter w p s)) := by
  obtain ⟨lt, notLast, notPend⟩ := place
  have small : ∀ p ∈ allPages, p < 64 ∧ (F.PAGE_STATUS.LAST_REQ p).key < strokeBase := by decide
  obtain ⟨page, lastLt⟩ := small p mem
  have code : reqCode w < 2 ^ (F.PAGE_STATUS.LAST_REQ p).width := by cases w <;> simp [reqCode]
  refine ⟨?_, ?_, Pends.keepAll page ((raise_pends (b := hdrBit) _ (by decide)).only (spiRefuse_only w _) (by simp))⟩
  · rw [rget_keepAll _ _ lt, refused, (spiRefuse_only _ _).get (by simp), (raise_only _ _ _).get (by simpa using notPend),
      rget_rset_other _ _ notLast, rget_inc_same]
  · rw [rget_keepAll _ _ lastLt, refused, (spiRefuse_only _ _).get (by simp), (raise_only _ _ _).get (by simp; omega), rget_rset_same,
      Nat.mod_eq_of_lt code]

theorem denied_places {p : Nat} (mem : p ∈ allPages) : ∀ counter ∈ [F.PAGE_STATUS.OWN_DENIED p, F.PAGE_STATUS.LOCK_DENIED p],
    counter.key < strokeBase ∧ counter.key ≠ (F.PAGE_STATUS.LAST_REQ p).key ∧ counter.key ≠ (F.EVT_PEND.PEND p).key := by
  have all : ∀ p ∈ allPages, ∀ counter ∈ [F.PAGE_STATUS.OWN_DENIED p, F.PAGE_STATUS.LOCK_DENIED p],
    counter.key < strokeBase ∧ counter.key ≠ (F.PAGE_STATUS.LAST_REQ p).key ∧ counter.key ≠ (F.EVT_PEND.PEND p).key := by decide
  exact all p mem

theorem penHolder_accessBegins (w : Requester) (s : State) : penHolder (accessBegins w s) = penHolder s := rget_accessBegins w s (by decide)

/-- Settles O17: a write ends in one of the four cases of `writeReg`. -/
theorem spineWrites : Obligations.SpineWrites := by
  intro s r off v p u a q
  refine ⟨fun mem => ?_, fun reg denied thawed => ?_, fun reg may locking locked => ?_, fun reg mem => ?_, ?_⟩
  case refine_1 =>
    refine runs_act (ok := true) (f := wideWrite r (p * 4096 + 0x68) v) rfl u rfl ?_
    rw [wideWrite, writeReg_scratch mem, ← keepAll_accessBegins r.who]
    refine ⟨?_, (rset_only _ _ _).keepAll⟩
    rw [rget_keepAll _ _ (by have := page_key_lt mem (o := 0x68 * 8) (by decide); simp only [strokeBase] at *; omega), rget_rset_same]
    exact Nat.mod_mod _ _
  case refine_2 =>
    refine runs_act (ok := true) (f := wideWrite r off v) rfl u rfl ?_
    have still : (penHolder (accessBegins r.who s) == 3 && isArming off v) = false := by simp [penHolder_accessBegins, thawed]
    rw [wideWrite_refused reg denied, still, whenB_false, ← keepAll_accessBegins r.who, denyOwn_eq]
    obtain ⟨count, last, pends⟩ := refused_shows (isReg_pageAt reg) (denied_places (isReg_pageAt reg) (F.PAGE_STATUS.OWN_DENIED q) (by simp [q])) r.who a a
    exact ⟨count, last, pends, (refused_only _ _ _ _).keepAll⟩
  case refine_3 =>
    refine runs_act (ok := true) (f := wideWrite r off v) rfl u rfl ?_
    have stays : wideWrite r off v s = denyLock r.who (pageAt off) (accessBegins r.who s) := by
      unfold wideWrite writeReg
      rw [mayWrite_accessBegins, locked_accessBegins, reg, may, locking, locked]
      rfl
    rw [stays, ← keepAll_accessBegins r.who, denyLock_eq]
    obtain ⟨count, last, pends⟩ := refused_shows (isReg_pageAt reg) (denied_places (isReg_pageAt reg) (F.PAGE_STATUS.LOCK_DENIED q) (by simp [q])) r.who a a
    exact ⟨count, last, pends, (refused_only _ _ _ _).keepAll⟩
  case refine_4 =>
    have own : countedPage off = q := by rw [countedPage, if_pos (List.contains_iff_mem.mpr mem)]
    have counts := runs_write_noReg u reg r v
    rw [own] at counts
    exact counts
  case refine_5 =>
    refine runs_act (ok := true) (f := wideRead r (regOff F.TSU_NOW_S.SECONDS) false) rfl u rfl ?_
    have now : wideRead r (regOff F.TSU_NOW_S.SECONDS) false s =
        emit (.read r.who 0x5088 (regView (tsuNowRead r.cyc a) 0x5088)) (tsuNowRead r.cyc a) := rfl
    have only := tsuNowRead_only r.cyc a
    obtain ⟨counted, began⟩ := accessBegins_only r.who s
    have begun := (began.trans only)
    rw [now, ← keepAll_accessBegins r.who]
    refine ⟨?_, ?_, ((only.trans (emit_only _ _)).mono (by simp) (by simp)).keepAll⟩
    · rw [rget_keepAll _ _ (by decide), (emit_only _ _).get (by simp), rget_tsuNowRead_stroke, strokeNow_accessBegins]
    · rw [rget_keepAll _ _ (by decide), (emit_only _ _).get (by simp), regView_tsuNow]
      exact congrArg (· ++ _) (begun.1 .out (by simp))

end Sys2Proof.Machine

/-! SUPPORT. SPI frames (R28) and the registers of a page's header (R29, R30, R36). -/

namespace Sys2Proof.Machine

/-! ### SPI frames (R28) -/

theorem spiServe_none {s : State} (empty : s.spine.spiQueue = []) (cyc : Nat) : spiServe cyc s = s := by
  unfold spiServe
  rw [empty]
  exact (congrArg (fun q => { s with spine := { s.spine with spiQueue := q } }) empty).symm

/-- The fields of a violation on the SPI target. -/
def spiViolFields : List Fld := F.MON_COUNT.SPI_VIOL :: F.EVT_PEND.PEND pMON :: (List.range 8).map F.MON_SPI_VLOG.ENTRY

/-- A violation: its log entry and its count. -/
def spiViolation (cmd code : Nat) (s : State) : State :=
  s |> vlog pMON 3 8 F.MON_SPI_VLOG.ENTRY 5 code 0 (cmd % 256) |> inc F.MON_COUNT.SPI_VIOL

theorem spiNak_violation {code : Nat} (low : 2 ≤ code) (high : code ≤ 5) (cmd : Nat) (s : State) :
    spiNak cmd code s = spiViolation cmd code (emit (.spi [] code) s) := by
  rw [spiNak, decide_eq_true low, decide_eq_true high]
  rfl

theorem vlog_spi_only (cmd code : Nat) (s : State) : Only [.eva] (F.EVT_PEND.PEND pMON :: (List.range 8).map F.MON_SPI_VLOG.ENTRY) s
    (vlog pMON 3 8 F.MON_SPI_VLOG.ENTRY 5 code 0 (cmd % 256) s) := vlog_only _ _ _ _ _ _ _ (by decide) s

theorem spiViolation_only (cmd code : Nat) (s : State) : Only [.eva] spiViolFields s (spiViolation cmd code s) :=
  ((vlog_spi_only cmd code s).trans (inc_only _ _)).mono (by simp) (by simp [spiViolFields])

theorem runs_spiViolation {c : Instr} {s : State} {ok : Bool} {cmd code : Nat} (e : exec c s = act ok (spiNak cmd code) s) (known : ok = true)
    (u : Up s) (low : 2 ≤ code) (high : code ≤ 5) : Runs c s fun t => t.out = s.out ++ [.spi [] code]
      ∧ rget t F.MON_COUNT.SPI_VIOL = min 65535 (rget s F.MON_COUNT.SPI_VIOL + 1) ∧ Only [.eva, .out] spiViolFields s t := by
  refine runs_act e u known ?_
  rw [spiNak_violation low high]
  have viol := spiViolation_only cmd code (emit (.spi [] code) s)
  refine ⟨viol.1 .out (by simp), ?_, (((emit_only _ s).trans viol).mono (by simp) (by simp)).keepAll⟩
  rw [rget_keepAll _ _ (by decide), spiViolation, rget_inc_same, (vlog_spi_only _ _ _).get (by decide)]
  rfl

/-- The SPI target holds one more write frame. -/
def spiQueued (off v : Nat) (s : State) : State := { s with spine := { s.spine with spiQueue := s.spine.spiQueue ++ [(off, v)] } }

theorem runs_spiWrite {s : State} {off : Nat} (u : Up s) (aligned : off % 8 = 0) (room : s.spine.spiQueue.length < 4) (v cyc : Nat) :
    Runs (.spiWriteFrame off v true false cyc) s fun t => t.spine.spiQueue = s.spine.spiQueue ++ [(off, v)] ∧ t.out = s.out ++ [.spi [] 0]
      ∧ Only [.spine, .out] [] s t := by
  refine runs_act (ok := true) (f := spiWrite off v true false cyc) rfl u rfl ?_
  have joined : spiWrite off v true false cyc s = emit (.spi [] 0) (spiQueued off v s) := by
    simp [spiWrite, spiQueued, aligned, Nat.not_le.mpr room]
  rw [joined]
  exact ⟨rfl, rfl, ((spine_only _ s).trans (emit_only _ _)).keepAll⟩

theorem runs_spiRead {s : State} {off : Nat} (u : Up s) (aligned : off % 8 = 0) (empty : s.spine.spiQueue = []) (quiet : QuietAt off) (bad : Bool)
    (cyc : Nat) : Runs (.spiReadFrame off true bad cyc) s fun t => t.out = s.out ++ [.spi [regView s off] 0] ∧ Only [.out] [] s t := by
  refine runs_act (ok := true) (f := spiRead off true bad cyc) rfl u rfl ?_
  have answered : spiRead off true bad cyc s = emit (.spi [regView s off] 0) s := by
    simp [spiRead, aligned, spiServe_none empty, readReg_quiet quiet]
  rw [answered]
  exact ⟨rfl, (emit_only _ s).keepAll⟩

/-- The refusals so far have been shown. -/
def refusalsSeen (s : State) : State := { s with spine := { s.spine with refusedSeen := s.spine.refused } }

theorem runs_spiStatus {s : State} (u : Up s) (empty : s.spine.spiQueue = []) (cyc : Nat) : Runs (.spiStatusFrame true cyc) s fun t =>
    t.out = s.out ++ [.spi [s.spine.served + s.spine.refused * 2 ^ 32] (if s.spine.refusedSeen < s.spine.refused then 6 else 0)]
      ∧ t.spine.refusedSeen = s.spine.refused ∧ Only [.spine, .out] [] s t := by
  refine runs_act (ok := true) (f := spiStatus true cyc) rfl u rfl ?_
  have answered : spiStatus true cyc s =
      emit (.spi [s.spine.served + s.spine.refused * 2 ^ 32] (if s.spine.refusedSeen < s.spine.refused then 6 else 0)) (refusalsSeen s) := by
    unfold spiStatus
    rw [Bool.not_true, if_neg Bool.false_ne_true, spiServe_none empty]
    rfl
  rw [answered]
  exact ⟨rfl, rfl, ((spine_only _ s).trans (emit_only _ _)).keepAll⟩

/-- Settles O18: a frame that fits by its own lemma, the two violations by `runs_spiViolation`. -/
theorem spiFrames : Obligations.SpiFrames := by
  intro s off v cmd cyc bad u counted
  refine ⟨fun aligned room => runs_spiWrite u aligned room v cyc,
    fun aligned empty noData noEnd notNow => runs_spiRead u aligned empty ⟨noData, noEnd, notNow⟩ bad cyc, fun empty => runs_spiStatus u empty cyc,
    runs_spiViolation (ok := true) (cmd := cmd) rfl rfl u (by decide) (by decide), fun a b c => ?_⟩
  exact runs_spiViolation (ok := cmd != 2 && cmd != 3 && cmd != 5) (cmd := cmd) rfl (by simp [a, b, c]) u (by decide) (by decide)

/-! ### The page header -/

/-- The offset of a header register: its page, its slot, and that a register stands there which no LOCK protects. -/
theorem header_place {p o : Nat} (mem : p ∈ allPages) (small : o < 0x78) (aligned : o % 8 = 0) :
    pageAt (p * 4096 + o) = p ∧ slotAt (p * 4096 + o) = o ∧ isReg (p * 4096 + o) = true ∧ isLocked (p * 4096 + o) = false := by
  have page : pageAt (p * 4096 + o) = p := by simp only [pageAt]; omega
  have slot : slotAt (p * 4096 + o) = o := by simp only [slotAt]; omega
  refine ⟨page, slot, ?_, ?_⟩
  · simp only [isReg, page, slot, List.contains_iff_mem.mpr mem, Bool.and_true, if_pos (show o < 0x80 by omega)]
    simp
    omega
  · unfold isLocked
    rw [slot]
    split
    · rfl
    · simp
      omega

/-- A header register that every requester may write. -/
theorem served_anyWriter {s : State} {p o : Nat} (u : Up s) (mem : p ∈ allPages) (any : anyWriter o = true) (w : Requester) : Served w (p * 4096 + o) s := by
  have slots : o < 0x78 ∧ o % 8 = 0 := by
    simp only [anyWriter, Bool.or_eq_true, beq_iff_eq] at any
    omega
  obtain ⟨page, slot, reg, unlocked⟩ := header_place mem slots.1 slots.2
  exact ⟨u, reg, by simp [mayWrite, slot, any], by simp [unlocked]⟩

/-- A served write of a header register does what the header says. -/
theorem runs_head {c : Instr} {s : State} {P : State → Prop} {ok : Bool} {r : Req} {p o v : Nat} (e : exec c s = act ok (headWrite r p o v) s)
    (known : ok = true) (mem : p ∈ allPages) (small : o < 0x78) (aligned : o % 8 = 0) (served : Served r.who (p * 4096 + o) s)
    (does : P (keepAll s (writeHead p o r (v % 2 ^ 64) (accessBegins r.who s)))) : Runs c s P := by
  obtain ⟨page, slot, -, -⟩ := header_place mem small aligned
  refine runs_write e known served ?_
  rw [applyWrite, slot, if_pos (by omega), page]
  exact does

theorem runs_evtPendClear {s : State} {p b : Nat} (mem : p ∈ allPages) (source : b < 17) (u : Up s) (r : Req) (v : Nat) :
    Runs (.evtPendClear r p v) s fun t => bitSet (rget t (F.EVT_PEND.PEND p)) b = (bitSet (rget s (F.EVT_PEND.PEND p)) b && !bitSet v b)
      ∧ Only [] [F.EVT_PEND.PEND p] (accessBegins r.who s) t := by
  have key : (F.EVT_PEND.PEND p).key < strokeBase := by
    have := page_key_lt mem (o := 0x28 * 8) (by decide)
    simp only [strokeBase] at *
    omega
  refine runs_head (o := 0x28) (v := v) (ok := allPages.contains p) rfl (List.contains_iff_mem.mpr mem) mem (by decide) (by decide)
    (served_anyWriter u mem rfl _) ?_
  have cleared : writeHead p 0x28 r (v % 2 ^ 64) (accessBegins r.who s) = rset (F.EVT_PEND.PEND p)
      (clrBits (rget (accessBegins r.who s) (F.EVT_PEND.PEND p)) (v % 2 ^ 64)) (accessBegins r.who s) := rfl
  rw [cleared, ← keepAll_accessBegins r.who]
  refine ⟨?_, (rset_only _ _ _).keepAll⟩
  rw [rget_keepAll _ _ key, rget_rset_same, bitSet_mod _ _ _ source, bitSet_clrBits, bitSet_mod _ _ _ (by omega),
    rget_accessBegins _ _ (by simp; omega)]

theorem writeForce_only (p v : Nat) (s : State) : Only [.eva] [F.EVT_PEND.PEND p] s (writeForce p v s) :=
  Only.forAll _ (fun b _ s => raise_only p b s) s

theorem forAll_raise_pends {p b : Nat} (source : b < 17) {bs : List Nat} (mem : b ∈ bs) (s : State) : Pends p b (forAll bs (raise p) s) := by
  have kept (bs : List Nat) {s : State} (h : Pends p b s) : Pends p b (forAll bs (raise p) s) := by
    induction bs generalizing s with
    | nil => exact h
    | cons c bs ih => exact ih (s := raise p c s) (pend_kept none h source)
  obtain ⟨before, after, rfl⟩ := List.append_of_mem mem
  rw [show forAll (before ++ b :: after) (raise p) s = forAll after (raise p) (raise p b (forAll before (raise p) s)) by simp [forAll]]
  exact kept after (raise_pends _ source)

theorem runs_evtForce {s : State} {p b v : Nat} (mem : p ∈ allPages) (source : b < 17) (u : Up s) (forced : bitSet v b = true) (r : Req) :
    Runs (.evtForce r p v) s fun t => Pends p b t ∧ Only [.eva] [F.EVT_PEND.PEND p] (accessBegins r.who s) t := by
  have page : ∀ p ∈ allPages, p < 64 := by decide
  refine runs_head (o := 0x38) (v := v) (ok := allPages.contains p) rfl (List.contains_iff_mem.mpr mem) mem (by decide) (by decide)
    (served_anyWriter u mem rfl _) ?_
  have raised : writeHead p 0x38 r (v % 2 ^ 64) (accessBegins r.who s) = writeForce p (v % 2 ^ 64) (accessBegins r.who s) := rfl
  rw [raised, ← keepAll_accessBegins r.who]
  refine ⟨Pends.keepAll (page p mem) (forAll_raise_pends source ?_ _), (writeForce_only _ _ _).keepAll⟩
  exact mem_indicesWhere.mpr ⟨source, by rwa [bitSet_mod _ _ _ (by omega)]⟩

theorem clearAll_zero {f : Fld} {fs : List Fld} {s : State} (h : f ∈ fs ∨ rget s f = 0) : rget (clearAll fs s) f = 0 := by
  have cleared (s : State) : rget (rset f 0 s) f = 0 := by rw [rget_rset_same, Nat.zero_mod]
  induction fs generalizing s with
  | nil => exact h.resolve_left (by simp)
  | cons g fs ih =>
    refine ih (s := rset g 0 s) ?_
    by_cases same : f.key = g.key
    · right
      rw [rget_rset, if_pos same, Nat.zero_mod]
    · rcases h with mem | zero
      · refine .inl ((List.mem_cons.mp mem).resolve_left ?_)
        rintro rfl
        exact same rfl
      · right
        rw [rget_rset_other _ _ same, zero]

theorem counterFlds_lt : ∀ p ∈ allPages, ∀ f ∈ counterFlds p, f.key < strokeBase := by
  intro p mem f hf
  have rows : ∀ p ∈ allPages, p < 64 ∧ ∀ r ∈ counters p, r.off + r.stride * r.count < 4096 ∧ r.lo < 64 := by decide
  obtain ⟨page, rows⟩ := rows p mem
  obtain ⟨row, hrow, hf⟩ := List.mem_flatMap.mp hf
  obtain ⟨i, hi, rfl⟩ := List.mem_map.mp hf
  obtain ⟨place, low⟩ := rows row hrow
  have copies : row.stride * i ≤ row.stride * row.count := Nat.mul_le_mul_left _ (List.mem_range.mp hi).le
  show (p * 4096 + row.off + row.stride * i) * 8 + row.lo < strokeBase
  simp only [strokeBase]
  omega

theorem clearCopies_only (s : State) : Only [.duc] [] s (clearCopies s) := duc_only _ s

/-- The counters of a page's PAGE_STATUS. -/
def statusFlds (p : Nat) : List Fld :=
  [F.PAGE_STATUS.OWN_DENIED p, F.PAGE_STATUS.LOCK_DENIED p, F.PAGE_STATUS.UNIMPL p, F.PAGE_STATUS.HALF_DROPPED p]

theorem clearAll_append (fs gs : List Fld) (s : State) : clearAll (fs ++ gs) s = clearAll gs (clearAll fs s) := List.foldl_append

theorem clearStatus_eq (p : Nat) (s : State) : clearStatus p s = whenB (p == pDUC) clearCopies (clearAll (statusFlds p ++ counterFlds p) s) := by
  rw [clearAll_append]
  rfl

theorem rget_clearStatus {p : Nat} {f : Fld} (counted : f ∈ statusFlds p ++ counterFlds p) (s : State) : rget (clearStatus p s) f = 0 := by
  rw [clearStatus_eq, (Only.whenB (clearCopies_only _)).get (by simp), clearAll_zero (.inl counted)]

theorem statusFlds_lt : ∀ p ∈ allPages, ∀ f ∈ statusFlds p, f.key < strokeBase := by decide

theorem runs_clrStatus {s : State} {p : Nat} (mem : p ∈ allPages) (u : Up s) (r : Req) (v : Nat) :
    Runs (.clrStatus r p v) s fun t => ∀ f ∈ statusFlds p ++ counterFlds p, rget t f = 0 := by
  have bit : bitSet (setBit v 0 % 2 ^ 64) 0 = true := by rw [bitSet_mod _ _ _ (by decide), bitSet_setBit]; simp
  refine runs_head (o := 0x10) (v := setBit v 0) (ok := allPages.contains p) rfl (List.contains_iff_mem.mpr mem) mem (by decide) (by decide)
    (served_anyWriter u mem rfl _) ?_
  have cleared : writeHead p 0x10 r (setBit v 0 % 2 ^ 64) (accessBegins r.who s) = clearStatus p (accessBegins r.who s) := by
    show whenB (bitSet (setBit v 0 % 2 ^ 64) 0) (clearStatus p) _ = _
    rw [bit, whenB_true]
  rw [cleared]
  intro f counted
  rw [rget_keepAll _ _ ?_, rget_clearStatus counted]
  rcases List.mem_append.mp counted with status | own
  · exact statusFlds_lt p mem f status
  · exact counterFlds_lt p mem f own

/-! ### LOCK (R36) -/

theorem locked_lt : ∀ p ∈ allPages, (F.LOCK.LOCKED p).key < strokeBase := by decide

theorem runs_lockSet {s : State} {r : Req} {p : Nat} (mem : p ∈ allPages) (served : Served r.who (p * 4096 + 0x58) s) :
    Runs (.lockSet r p) s fun t => rget t (F.LOCK.LOCKED p) = 1 ∧ Only [] [F.LOCK.LOCKED p] (accessBegins r.who s) t := by
  refine runs_head (o := 0x58) (v := 1) (ok := allPages.contains p) rfl (List.contains_iff_mem.mpr mem) mem (by decide) (by decide) served ?_
  have locks : writeHead p 0x58 r (1 % 2 ^ 64) (accessBegins r.who s) = rset (F.LOCK.LOCKED p) 1 (accessBegins r.who s) := rfl
  rw [locks, ← keepAll_accessBegins r.who]
  refine ⟨?_, (rset_only _ _ _).keepAll⟩
  rw [rget_keepAll _ _ (locked_lt p mem), rget_rset_same]
  rfl

/-- A key window of a page has just been opened, and no other of it stands. -/
theorem keyOpen_lockKey (p : Nat) (r : Req) (s : State) (c : Nat) : keyOpen p r.who c (lockKey p r s) = decide (c ≤ dclkAt r s + 1024) := by
  have others : (s.spine.keys.filter (fun k => k.1 != p)).any (fun k => k.1 == p && k.2.1 == r.who && decide (c ≤ k.2.2)) = false := by
    rw [List.any_eq_false]
    intro k hk
    have apart : k.1 ≠ p := by simpa using (List.mem_filter.mp hk).2
    simp [apart]
  show (s.spine.keys.filter (fun k => k.1 != p) ++ [(p, r.who, dclkAt r s + 1024)]).any _ = _
  rw [List.any_append, others]
  simp

theorem keyOpen_dropKey (p : Nat) (w : Requester) (c : Nat) (s : State) : keyOpen p w c (dropKey p s) = false := by
  show (s.spine.keys.filter (fun k => k.1 != p)).any _ = false
  rw [List.any_eq_false]
  intro k hk
  have apart : k.1 ≠ p := by simpa using (List.mem_filter.mp hk).2
  simp [apart]

theorem dclkAt_accessBegins (w : Requester) (r : Req) (s : State) : dclkAt r (accessBegins w s) = dclkAt r s := by
  obtain ⟨p, only⟩ := accessBegins_only w s
  have time := only.1 .time (by simp)
  simp only [dclkAt, time.2]

theorem keyOpen_accessBegins (p : Nat) (w x : Requester) (c : Nat) (s : State) : keyOpen p w c (accessBegins x s) = keyOpen p w c s := by
  have keys : (accessBegins x s).spine.keys = s.spine.keys := by
    unfold accessBegins halfDrop
    split
    · split
      · rfl
      · rw [inc, incBy, rset_spine]
    · rfl
  rw [keyOpen, keyOpen, keys]

theorem keyOpen_keepAll (p : Nat) (w : Requester) (c : Nat) (s t : State) : keyOpen p w c (keepAll s t) = keyOpen p w c t := rfl

theorem lockKey_only (p : Nat) (r : Req) (s : State) : Only [.spine] [] s (lockKey p r s) := spine_only _ s
theorem dropKey_only (p : Nat) (s : State) : Only [.spine] [] s (dropKey p s) := spine_only _ s

theorem runs_lockKey {s : State} {r : Req} {p : Nat} (mem : p ∈ allPages) (served : Served r.who (p * 4096 + 0x58) s) :
    Runs (.lockKey r p) s fun t => (∀ c, keyOpen p r.who c t = decide (c ≤ s.strikeDclk + r.cyc + 1024)) ∧ Only [.spine] [] (accessBegins r.who s) t := by
  refine runs_head (o := 0x58) (v := 0xC1A5 * 2 ^ 16) (ok := allPages.contains p) rfl (List.contains_iff_mem.mpr mem) mem (by decide) (by decide) served ?_
  have opens : writeHead p 0x58 r (0xC1A5 * 2 ^ 16 % 2 ^ 64) (accessBegins r.who s) = lockKey p r (accessBegins r.who s) := rfl
  rw [opens, ← keepAll_accessBegins r.who]
  refine ⟨fun c => ?_, (lockKey_only _ _ _).keepAll⟩
  rw [keyOpen_keepAll, keyOpen_lockKey, dclkAt_accessBegins]
  rfl

theorem runs_lockClear {s : State} {r : Req} {p : Nat} (mem : p ∈ allPages) (served : Served r.who (p * 4096 + 0x58) s)
    (locked : on s (F.LOCK.LOCKED p) = true) (opened : keyOpen p r.who (s.strikeDclk + r.cyc) s = true) :
    Runs (.lockClear r p) s fun t => rget t (F.LOCK.LOCKED p) = 0 ∧ (∀ w c, keyOpen p w c t = false)
      ∧ Only [.spine] [F.LOCK.LOCKED p] (accessBegins r.who s) t := by
  refine runs_head (o := 0x58) (v := 2) (ok := allPages.contains p) rfl (List.contains_iff_mem.mpr mem) mem (by decide) (by decide) served ?_
  have clears : writeHead p 0x58 r (2 % 2 ^ 64) (accessBegins r.who s) = rset (F.LOCK.LOCKED p) 0 (dropKey p (accessBegins r.who s)) := by
    show whenB (bitSet 2 1 && on (accessBegins r.who s) (F.LOCK.LOCKED p)) (lockClear p r) (accessBegins r.who s) = _
    have window : keyOpen p r.who (dclkAt r (accessBegins r.who s)) (accessBegins r.who s) = true := by
      rw [keyOpen_accessBegins, dclkAt_accessBegins]
      exact opened
    rw [locked_accessBegins, locked]
    show lockClear p r (accessBegins r.who s) = _
    rw [lockClear, window, if_pos rfl]
  rw [clears, ← keepAll_accessBegins r.who]
  refine ⟨?_, fun w c => ?_, (((dropKey_only _ _).trans (rset_only _ _ _)).mono (by simp) (by simp)).keepAll⟩
  · rw [rget_keepAll _ _ (locked_lt p mem), rget_rset_same, Nat.zero_mod]
  · rw [keyOpen_keepAll, keyOpen, rset_spine]
    exact keyOpen_dropKey p w c _

/-- Settles O19: one lemma for each write of the header. -/
theorem pageHeaders : Obligations.PageHeaders := by
  intro s r p v b mem source a now
  refine ⟨fun u => runs_evtPendClear mem source u r v, fun u forced => runs_evtForce mem source u forced r, fun u => ?_,
    fun served => ⟨runs_lockSet mem served, runs_lockKey mem served, fun locked opened => runs_lockClear mem served locked opened⟩⟩
  obtain ⟨t, next, zero⟩ := runs_clrStatus mem u r v
  exact ⟨t, next, fun f hf => zero f (List.mem_append_right _ hf), zero _ (by simp [statusFlds]), zero _ (by simp [statusFlds]),
    zero _ (by simp [statusFlds]), zero _ (by simp [statusFlds])⟩

end Sys2Proof.Machine

/-! SUPPORT. Commit sets: what arms, disarms and seals one, and DISCARD (R31, R37 to R40). -/

namespace Sys2Proof.Machine

/-! ### Sets -/

theorem commitSet_keepAll (s t : State) (k : Nat) : commitSet (keepAll s t) k = commitSet t k := rfl

/-- What the stroke rules of an arming read: the stroke, its length, and the time of the latest strike. -/
theorem strokeRules_congr {s t : State} (struck : t.struck = s.struck) (now : strokeNow t = strokeNow s) (length : strokeLen t = strokeLen s) :
    (∀ n cyc, armOutcome t n cyc = armOutcome s n cyc) ∧ (∀ cyc, firstMeeting t cyc = firstMeeting s cyc) ∧ nextStroke t = nextStroke s := by
  have next : nextStroke t = nextStroke s := by rw [nextStroke, nextStroke, struck, now]
  refine ⟨fun n cyc => ?_, fun cyc => ?_, next⟩
  · rw [armOutcome, armOutcome, struck, length, next]
  · rw [firstMeeting, firstMeeting, struck, length, next]

/-- The access that begins leaves what a commit set's rules read. -/
theorem commitSet_accessBegins (w : Requester) (s : State) (k : Nat) : commitSet (accessBegins w s) k = commitSet s k := by
  obtain ⟨p, only⟩ := accessBegins_only w s
  have sets : (accessBegins w s).sets = s.sets := only.1 .sets (by simp)
  rw [commitSet, commitSet, sets]

theorem setOf_accessBegins (w : Requester) (s : State) (p : Nat) : setOf (accessBegins w s) p = setOf s p := rget_accessBegins w s (by simp; omega)

theorem strokeRules_accessBegins (w : Requester) (s : State) :
    (∀ n cyc, armOutcome (accessBegins w s) n cyc = armOutcome s n cyc) ∧ (∀ cyc, firstMeeting (accessBegins w s) cyc = firstMeeting s cyc)
      ∧ nextStroke (accessBegins w s) = nextStroke s := by
  obtain ⟨p, only⟩ := accessBegins_only w s
  have length : strokeLen (accessBegins w s) = strokeLen s := congrArg (fun m => 500 * (m + 1)) (rget_accessBegins w s (by decide))
  exact strokeRules_congr (only.1 .time (by simp)).1 (strokeNow_accessBegins w s) length

/-- A set is armed at once where no seal defers it, the pen is not frozen, the page arms for the hub alone and the request is in time. -/
theorem writeCommitStroke_arms {s : State} {p n cyc m : Nat} (unsealed : (commitSet s (setOf s p)).isSealed = false) (isArm : n ≠ allOnes)
    (thawed : penHolder s ≠ 3) (alone : on s (F.COMMIT_SET.DOMAIN p) = false) (inTime : armOutcome s n cyc = .on m) :
    writeCommitStroke p n cyc s = setCommitSet (setOf s p) { commitSet s (setOf s p) with armed := some m } s := by
  rw [writeCommitStroke, unsealed, if_neg Bool.false_ne_true, armWrite]
  rw [if_neg isArm, if_neg thawed, alone, if_neg Bool.false_ne_true, armSet, inTime]

theorem writeCommitStroke_disarms {s : State} {p : Nat} (unsealed : (commitSet s (setOf s p)).isSealed = false) (cyc : Nat) :
    writeCommitStroke p allOnes cyc s = disarmSet (setOf s p) s := by
  rw [writeCommitStroke, unsealed, if_neg Bool.false_ne_true, armWrite, if_pos rfl]

/-- A stroke that COMMIT_NEXT finds is in time. -/
theorem armOutcome_firstMeeting (s : State) (cyc : Nat) : armOutcome s (firstMeeting s cyc) cyc = .on (firstMeeting s cyc) := by
  have long : 500 ≤ strokeLen s := by
    rw [strokeLen, mLive]
    omega
  unfold armOutcome firstMeeting
  dsimp only
  cases struck : s.struck
  · simp
  · simp only [Bool.true_and, Bool.not_true, Bool.false_eq_true, if_false]
    generalize strokeLen s = len at *
    generalize nextStroke s = nx
    by_cases past : len ≤ cyc
    · have notNow : ¬ cyc + 64 ≤ len := by omega
      simp only [past, decide_true, if_true, Bool.toNat_true, notNow, if_false]
      by_cases second : cyc + 64 ≤ 2 * len
      · have fits : cyc - len + 64 ≤ len := by omega
        simp [second, fits]
      · simp [second]
    · have second : cyc + 64 ≤ 2 * len := by omega
      simp only [past, decide_false, Bool.false_eq_true, if_false, Bool.toNat_false, Nat.add_zero]
      by_cases first : cyc + 64 ≤ len
      · simp [first]
      · simp [first, second]

/-! ### COMMIT_STROKE and COMMIT_NEXT -/

section
variable {s : State} {r : Req} {p : Nat}

theorem runs_commitArm {n m : Nat} (mem : p ∈ allPages) (served : Served r.who (p * 4096 + 0x48) s) (unsealed : (commitSet s (setOf s p)).isSealed = false)
    (isArm : n < 2 ^ 64 - 1) (thawed : penHolder s ≠ 3) (alone : on s (F.COMMIT_SET.DOMAIN p) = false) (inTime : armOutcome s n (r.cyc + 6) = .on m) :
    Runs (.commitStrokeArm r p n) s fun t => (commitSet t (setOf s p)).armed = some m ∧ (∀ j, j ≠ setOf s p → commitSet t j = commitSet s j)
      ∧ Only [.sets] [] (accessBegins r.who s) t := by
  refine runs_head (o := 0x48) (v := n) (ok := allPages.contains p) rfl (List.contains_iff_mem.mpr mem) mem (by decide) (by decide) served ?_
  have domain : on (accessBegins r.who s) (F.COMMIT_SET.DOMAIN p) = false := by rw [on, rget_accessBegins _ _ (by simp; omega)]; exact alone
  have whole : n % 2 ^ 64 = n := Nat.mod_eq_of_lt (by omega)
  have notAll : n ≠ allOnes := by simp only [allOnes]; omega
  have arms : writeHead p 0x48 r (n % 2 ^ 64) (accessBegins r.who s) =
      setCommitSet (setOf s p) { commitSet s (setOf s p) with armed := some m } (accessBegins r.who s) := by
    show writeCommitStroke p (n % 2 ^ 64) (r.cyc + 6) (accessBegins r.who s) = _
    rw [whole, writeCommitStroke_arms (m := m) (by rwa [setOf_accessBegins, commitSet_accessBegins]) notAll (by rwa [penHolder_accessBegins])
      domain (by rwa [(strokeRules_accessBegins _ _).1]), setOf_accessBegins, commitSet_accessBegins]
  rw [arms, ← keepAll_accessBegins r.who]
  refine ⟨by rw [commitSet_keepAll, commitSet_setCommitSet_same], fun j other => ?_, (setCommitSet_only _ _ _).keepAll⟩
  rw [commitSet_keepAll, commitSet_setCommitSet_other _ _ other, commitSet_accessBegins]

theorem runs_commitDisarm (mem : p ∈ allPages) (served : Served r.who (p * 4096 + 0x48) s) (unsealed : (commitSet s (setOf s p)).isSealed = false) :
    Runs (.commitDisarm r p) s fun t => (commitSet t (setOf s p)).armed = none ∧ (∀ j, j ≠ setOf s p → commitSet t j = commitSet s j)
      ∧ Only [.sets] [] (accessBegins r.who s) t := by
  refine runs_head (o := 0x48) (v := allOnes) (ok := allPages.contains p) rfl (List.contains_iff_mem.mpr mem) mem (by decide) (by decide) served ?_
  have disarms : writeHead p 0x48 r (allOnes % 2 ^ 64) (accessBegins r.who s) = disarmSet (setOf s p) (accessBegins r.who s) := by
    show writeCommitStroke p allOnes (r.cyc + 6) (accessBegins r.who s) = _
    rw [writeCommitStroke_disarms (by rwa [setOf_accessBegins, commitSet_accessBegins]), setOf_accessBegins]
  rw [disarms, ← keepAll_accessBegins r.who]
  refine ⟨by rw [commitSet_keepAll, disarmSet, commitSet_setCommitSet_same], fun j other => ?_, (disarmSet_only _ _).keepAll⟩
  rw [commitSet_keepAll, disarmSet, commitSet_setCommitSet_other _ _ other, commitSet_accessBegins]

/-- READ_SHADOW as a write of SHADOW_CTRL leaves it. -/
def shadowRead (p v : Nat) (s : State) : State := rset (F.SHADOW_CTRL.READ_SHADOW p) (bit v 3) s

theorem shadowRead_only (p v : Nat) (s : State) : Only [] [F.SHADOW_CTRL.READ_SHADOW p] s (shadowRead p v s) := rset_only _ _ s

theorem rget_shadowRead (p v : Nat) (s : State) {f : Fld} (h : f.key % 32768 ≠ 515) : rget (shadowRead p v s) f = rget s f :=
  (shadowRead_only p v s).get (by
    rw [List.map_singleton, List.mem_singleton]
    show f.key ≠ (p * 4096 + 0x40) * 8 + 3
    omega)

theorem writeShadowCtrl_eq (p : Nat) (r : Req) (v : Nat) (s : State) : writeShadowCtrl p r v s = (shadowRead p v s
    |> whenB (bitSet v 1) (fun s => if pageSealed s p then denyOwn r.who p s else discardPage p s) |> whenB (bitSet v 2) (writeCommitNext p (armCyc r))) := rfl

theorem runs_commitNext {v : Nat} (mem : p ∈ allPages) (served : Served r.who (p * 4096 + 0x40) s) (keeps : bitSet v 1 = false)
    (unsealed : (commitSet s (setOf s p)).isSealed = false) (thawed : penHolder s ≠ 3) (alone : on s (F.COMMIT_SET.DOMAIN p) = false)
    (fits : firstMeeting s (r.cyc + 6) < 2 ^ 64 - 1) : Runs (.commitNext r p v) s fun t =>
      (commitSet t (setOf s p)).armed = some (firstMeeting s (r.cyc + 6)) ∧ Only [.sets] [F.SHADOW_CTRL.READ_SHADOW p] (accessBegins r.who s) t := by
  refine runs_head (o := 0x40) (v := setBit v 2) (ok := allPages.contains p) rfl (List.contains_iff_mem.mpr mem) mem (by decide) (by decide) served ?_
  set w := setBit v 2 % 2 ^ 64 with word
  have next : bitSet w 2 = true := by rw [word, bitSet_mod _ _ _ (by decide), bitSet_setBit]; simp
  have noDiscard : bitSet w 1 = false := by rw [word, bitSet_mod _ _ _ (by decide), bitSet_setBit, keeps]; rfl
  set a := accessBegins r.who s with began
  set b := shadowRead p w a with read
  have only := shadowRead_only p w a
  have time := only.1 .time (by simp)
  obtain ⟨-, first, -⟩ := strokeRules_congr (s := a) (t := b) time.1 (rget_shadowRead p w a (f := F.SYS_STROKE_NOW.STROKE) (by decide))
    (congrArg (fun m => 500 * (m + 1)) (rget_shadowRead p w a (f := F.SYS_STROKE_CFG.M_MINUS1) (by decide)))
  have set' : setOf b p = setOf s p := (rget_shadowRead p w a (f := F.COMMIT_SET.SET p) (by simp; omega)).trans (setOf_accessBegins r.who s p)
  have same (k : Nat) : commitSet b k = commitSet s k := by
    have sets : b.sets = a.sets := only.1 .sets (by simp)
    rw [commitSet, sets, ← commitSet_accessBegins r.who s k]
    rfl
  have domain : on b (F.COMMIT_SET.DOMAIN p) = false := by
    rw [on, rget_shadowRead _ _ _ (by simp; omega), rget_accessBegins _ _ (by simp; omega)]
    exact alone
  have thawed' : penHolder b ≠ 3 := by
    rw [penHolder, rget_shadowRead _ _ _ (by decide)]
    rwa [← penHolder, penHolder_accessBegins]
  have meets : firstMeeting b (r.cyc + 6) = firstMeeting s (r.cyc + 6) := by rw [first, (strokeRules_accessBegins _ _).2.1]
  have arms : writeHead p 0x40 r w a =
      setCommitSet (setOf s p) { commitSet s (setOf s p) with armed := some (firstMeeting s (r.cyc + 6)) } b := by
    show writeShadowCtrl p r w a = _
    rw [writeShadowCtrl_eq, noDiscard, next]
    show writeCommitNext p (r.cyc + 6) b = _
    rw [writeCommitNext, domain, Bool.false_and, if_neg Bool.false_ne_true]
    have inTime := armOutcome_firstMeeting b (r.cyc + 6)
    rw [writeCommitStroke_arms (by rwa [set', same]) (by rw [meets]; simp only [allOnes]; omega) thawed' domain inTime, set', same, meets]
  rw [arms, ← keepAll_accessBegins r.who]
  refine ⟨by rw [commitSet_keepAll, commitSet_setCommitSet_same], ((only.trans (setCommitSet_only _ _ _)).mono (by simp) (by simp)).keepAll⟩

end

/-! ### DISCARD -/

/-- The shadows of the listed fields have been made the live values. -/
def livesShadowed (fs : List Fld) (s : State) : State := fs.foldl (fun t f => sset f (rget s f) t) s

/-- A listed field's shadow is its live value, where the live values fit. -/
theorem sget_livesShadowed {fs : List Fld} {s : State} (fits : ∀ f ∈ fs, rget s f < 2 ^ f.width) {g : Fld} (mem : g ∈ fs) :
    sget (livesShadowed fs s) g = rget s g := by
  have still (gs : List Fld) (sub : gs ⊆ fs) (t : State) (h : sget t g = rget s g) : sget (gs.foldl (fun t f => sset f (rget s f) t) t) g = rget s g := by
    induction gs generalizing t with
    | nil => exact h
    | cons f gs ih =>
      refine ih (fun x hx => sub (List.mem_cons_of_mem _ hx)) _ ?_
      by_cases same : g.key = f.key
      · have value : rget s g = rget s f := by simp only [rget, same]
        have shadow : sget (sset f (rget s f) t) g = sget (sset f (rget s f) t) f := by simp only [sget, same]
        rw [shadow, sget_sset_same, Nat.mod_eq_of_lt (fits f (sub List.mem_cons_self)), value]
      · rw [sget_sset_other _ _ same, h]
  obtain ⟨before, after, rfl⟩ := List.append_of_mem mem
  rw [livesShadowed, List.foldl_append, List.foldl_cons]
  refine still after (fun x hx => List.mem_append_right _ (List.mem_cons_of_mem _ hx)) _ ?_
  rw [sget_sset_same, Nat.mod_eq_of_lt (fits g mem)]

theorem sget_livesShadowed_other {fs : List Fld} {g : Fld} (apart : ∀ f ∈ fs, g.key ≠ f.key) (s : State) : sget (livesShadowed fs s) g = sget s g := by
  have each (gs : List Fld) (sub : gs ⊆ fs) (t : State) : sget (gs.foldl (fun t f => sset f (rget s f) t) t) g = sget t g := by
    induction gs generalizing t with
    | nil => rfl
    | cons f gs ih => rw [List.foldl_cons, ih (fun x hx => sub (List.mem_cons_of_mem _ hx)), sget_sset_other _ _ (apart f (sub List.mem_cons_self))]
  exact each fs (List.Subset.refl _) s

/-- A page's tables take up their live copies. -/
def tablesShadowed (p : Nat) (s : State) : State :=
  if p = pFLT then { s with filt := { s.filt with descSh := s.filt.desc, fresh := false } }
  else if p = pDUC then { s with duc := { s.duc with sessSh := s.duc.sess, keysSh := s.duc.keys } }
  else if p = pINKW then { s with ink := { s.ink with rselSh := s.ink.rsel } }
  else if p = pTRIM then dropStaged s
  else if p = pLDU then livesShadowed (turnKeys p) { s with ldu := { s.ldu with tabSh := s.ldu.tab } }
  else s

theorem discardPage_eq (p : Nat) (s : State) : discardPage p s = tablesShadowed p (livesShadowed (strokeKeys p) s) := rfl

/-- The fields that commit on a stroke have their live copies past the others. -/
theorem strokeKeys_ge {p : Nat} {f : Fld} (h : f ∈ strokeKeys p) : strokeBase ≤ f.key := by
  obtain ⟨r, -, hf⟩ := List.mem_flatMap.mp h
  obtain ⟨row, hrow, hf⟩ := List.mem_flatMap.mp hf
  obtain ⟨i, -, rfl⟩ := List.mem_map.mp hf
  have stroke : row.commit = .stroke := by
    have := (List.mem_filter.mp hrow).2
    simp only [Bool.and_eq_true, beq_iff_eq] at this
    exact this.1
  simp only [fieldOf, stroke, if_true]
  omega

theorem turnKeys_lt : ∀ f ∈ turnKeys pLDU, f.key < strokeBase := by decide

theorem sget_tablesShadowed {p : Nat} {f : Fld} (stroke : strokeBase ≤ f.key) (s : State) : sget (tablesShadowed p s) f = sget s f := by
  unfold tablesShadowed
  split
  · rfl
  split
  · rfl
  split
  · rfl
  split
  · unfold dropStaged whenB
    split
    · split <;> rfl
    · rfl
  split
  case isTrue ldu =>
    rw [sget_livesShadowed_other fun g hg => ?_]
    · rfl
    · subst ldu
      have := turnKeys_lt g hg
      omega
  case isFalse => rfl

theorem sget_keepAll (s t : State) (f : Fld) : sget (keepAll s t) f = sget t f := rfl

theorem pageSealed_accessBegins (w : Requester) (s : State) (p : Nat) : pageSealed (accessBegins w s) p = pageSealed s p := by
  rw [pageSealed, pageSealed, setOf_accessBegins, commitSet_accessBegins]

theorem pageSealed_shadowRead (p v : Nat) (s : State) : pageSealed (shadowRead p v s) p = pageSealed s p := by
  have set' : setOf (shadowRead p v s) p = setOf s p := rget_shadowRead p v s (f := F.COMMIT_SET.SET p) (by simp; omega)
  have sets : (shadowRead p v s).sets = s.sets := (shadowRead_only p v s).1 .sets (by simp)
  rw [pageSealed, pageSealed, set', commitSet, commitSet, sets]

theorem runs_shadowDiscard {s : State} {r : Req} {p v : Nat} (mem : p ∈ allPages) (served : Served r.who (p * 4096 + 0x40) s) (noNext : bitSet v 2 = false)
    (unsealed : (commitSet s (setOf s p)).isSealed = false) (fits : ∀ f ∈ strokeKeys p, rget s f < 2 ^ f.width) :
    Runs (.shadowDiscard r p v) s fun t => ∀ f ∈ strokeKeys p, sget t f = rget s f := by
  refine runs_head (o := 0x40) (v := setBit v 1) (ok := allPages.contains p) rfl (List.contains_iff_mem.mpr mem) mem (by decide) (by decide) served ?_
  set w := setBit v 1 % 2 ^ 64 with word
  have noNext' : bitSet w 2 = false := by rw [word, bitSet_mod _ _ _ (by decide), bitSet_setBit, noNext]; rfl
  have discard : bitSet w 1 = true := by rw [word, bitSet_mod _ _ _ (by decide), bitSet_setBit]; simp
  set b := shadowRead p w (accessBegins r.who s) with read
  have discards : writeHead p 0x40 r w (accessBegins r.who s) = discardPage p b := by
    show writeShadowCtrl p r w (accessBegins r.who s) = _
    have free : pageSealed b p = false := by
      rw [read, pageSealed_shadowRead, pageSealed_accessBegins]
      exact unsealed
    rw [writeShadowCtrl_eq, discard, noNext', whenB_true, whenB_false, ← read, free, if_neg Bool.false_ne_true]
  have live (f : Fld) (hf : f ∈ strokeKeys p) : rget b f = rget s f := by
    have stroke := strokeKeys_ge hf
    have header : (F.SHADOW_CTRL.READ_SHADOW p).key < strokeBase := by
      have := page_key_lt mem (o := 515) (by decide)
      simp only [strokeBase] at *
      omega
    rw [read, (shadowRead_only _ _ _).get (by rw [List.map_singleton, List.mem_singleton]; exact (Nat.lt_of_lt_of_le header stroke).ne')]
    simp only [rget, stroke, if_true, accessBegins_live]
  rw [discards, discardPage_eq]
  intro f hf
  rw [sget_keepAll, sget_tablesShadowed (strokeKeys_ge hf), sget_livesShadowed (fun g hg => by rw [live g hg]; exact fits g hg) hf, live f hf]

/-! ### The seal -/

theorem runs_commitSeal {s : State} {k : Nat} (u : Up s) (hk : k < 8) (due : (commitSet s k).armed = some (nextStroke s)) :
    Runs (.commitSeal k) s fun t => commitSet t k = { commitSet s k with isSealed := true } ∧ (∀ j, j ≠ k → commitSet t j = commitSet s j)
      ∧ Only [.sets] [] s t := by
  refine runs_act (f := sealSet k) (ok := decide (k < 8)) rfl u (by simp [hk]) ?_
  have sealed : sealSet k s = setCommitSet k { commitSet s k with isSealed := true } s := by
    rw [sealSet, if_pos due]
  rw [sealed]
  refine ⟨by rw [commitSet_keepAll, commitSet_setCommitSet_same], fun j other => ?_, (setCommitSet_only _ _ _).keepAll⟩
  rw [commitSet_keepAll, commitSet_setCommitSet_other _ _ other]

/-- Settles O20: one lemma for each command. -/
theorem commitSetsArmed : Obligations.CommitSetsArmed := by
  intro s r p n m v k mem a c
  exact ⟨fun served unsealed => ⟨fun isArm thawed alone inTime => runs_commitArm mem served unsealed isArm thawed alone inTime,
      runs_commitDisarm mem served unsealed⟩,
    fun served keeps unsealed thawed alone fits => runs_commitNext mem served keeps unsealed thawed alone fits,
    fun served noNext unsealed fits => runs_shadowDiscard mem served noNext unsealed fits, fun u hk due => runs_commitSeal u hk due⟩

end Sys2Proof.Machine

/-! SUPPORT. The indirect windows (R43): what GO does, and the end of an operation. -/

namespace Sys2Proof.Machine

/-! ### The registers of a window -/

/-- The fields of a window that a write of its CTRL does not store. -/
def windowData (w : Nat) : List Fld := [wENTRY w, wWORD w, wLO w, wHI w, wBUSY w, wAUTOINC w]

theorem windowData_apart : ∀ w < 14, ∀ f ∈ windowData w, f.key % 32768 ≠ 243 ∧ f.key ∉ (rowFields (winOff w + 24)).map (·.key) ∧ f.key < strokeBase := by
  decide

theorem window_place : ∀ w < 14, ¬ slotAt (winOff w + 24) < 0x80 ∧ windowAt (winOff w + 24) = some w := by decide

/-- The state in which an operation begins: CTRL's fields have been stored. -/
def windowStored (r : Req) (w op : Nat) (s : State) : State := storeReg (winOff w + 24) (op + 2 ^ 8) (accessBegins r.who s)

theorem windowStored_only (r : Req) (w op : Nat) (s : State) :
    ∃ p, Only [.spine, .shad] (F.PAGE_STATUS.HALF_DROPPED p :: rowFields (winOff w + 24)) s (windowStored r w op s) := by
  obtain ⟨p, begun⟩ := accessBegins_only r.who s
  exact ⟨p, (begun.trans (storeWhere_only _ _ _ _)).mono (by simp) (by simp)⟩

theorem rget_windowStored {w : Nat} {f : Fld} (notCount : f.key % 32768 ≠ 243) (apart : f.key ∉ (rowFields (winOff w + 24)).map (·.key)) (r : Req)
    (op : Nat) (s : State) : rget (windowStored r w op s) f = rget s f := by
  obtain ⟨p, only⟩ := windowStored_only r w op s
  refine only.get ?_
  rw [List.map_cons, List.mem_cons, not_or]
  exact ⟨by simp; omega, apart⟩

theorem rget_windowStored_data {w : Nat} (hw : w < 14) {f : Fld} (mem : f ∈ windowData w) (r : Req) (op : Nat) (s : State) :
    rget (windowStored r w op s) f = rget s f := by
  obtain ⟨notCount, apart, -⟩ := windowData_apart w hw f mem
  exact rget_windowStored notCount apart r op s

/-- GO on a window that is not busy. -/
theorem windowOp_served {s : State} {r : Req} {w op : Nat} (hw : w < 14) (known : op < 4) (served : Served r.who (winOff w + 24) s)
    (idle : rget s (wBUSY w) = 0) : windowOp r w op s = windowGo w op r.cyc (windowStored r w op s) := by
  obtain ⟨past, window⟩ := window_place w hw
  have fits : (op + 2 ^ 8) % 2 ^ 64 = op + 2 ^ 8 := by omega
  have code : slice 0 2 (op + 2 ^ 8) = op := by
    rw [slice_eq]
    omega
  have go : bitSet (op + 2 ^ 8) 8 = true := by
    rw [bitSet_iff]
    omega
  have free : rget (accessBegins r.who s) (wBUSY w) ≠ 1 := by
    obtain ⟨notCount, -⟩ := windowData_apart w hw (wBUSY w) (by simp [windowData])
    rw [rget_accessBegins _ _ notCount, idle]
    decide
  rw [windowOp, wideWrite_served served, fits, applyWrite, if_neg past, window]
  dsimp only
  rw [writeWindow, if_neg free]
  dsimp only
  rw [if_pos ⟨rfl, go⟩, code]
  rfl

/-- The operation has begun: CTRL shows it, and BUSY is 1. -/
def windowBegun (w op : Nat) (s : State) : State := s |> rset (wOP w) op |> rset (wBUSY w) 1

theorem windowBegun_only (w op : Nat) (s : State) : Only [] [wOP w, wBUSY w] s (windowBegun w op s) := ((rset_only _ _ s).trans (rset_only _ _ _)).mono (by simp) (by simp)

theorem rget_windowBegun_busy (w op : Nat) (s : State) : rget (windowBegun w op s) (wBUSY w) = 1 := by
  rw [windowBegun, rget_rset_same]
  rfl

theorem windowGo_read {w : Nat} {s : State} (entry : rget s (wENTRY w) < (winDims w).1) (word : rget s (wWORD w) < (winDims w).2)
    (allows : winAllows w 1 = true) (cyc : Nat) : windowGo w 1 cyc s = (windowBegun w 1 s
      |> rset (wLO w) (winRead (windowBegun w 1 s) w (rget s (wENTRY w)) (rget s (wWORD w)))
      |> rset (wHI w) (winRead (windowBegun w 1 s) w (rget s (wENTRY w)) (rget s (wWORD w)) / 2 ^ 64)) := by
  unfold windowGo
  dsimp only
  rw [if_neg (by simp only [allows]; simp; omega), if_pos rfl]
  rfl

theorem windowGo_write {w cyc : Nat} {s t : State} (entry : rget s (wENTRY w) < (winDims w).1) (word : rget s (wWORD w) < (winDims w).2)
    (allows : winAllows w 2 = true) (takes : winWrite w (rget s (wENTRY w)) (rget s (wWORD w))
      (rget (windowBegun w 2 s) (wLO w) + rget (windowBegun w 2 s) (wHI w) * 2 ^ 64) cyc (windowBegun w 2 s) = some t) : windowGo w 2 cyc s = t := by
  unfold windowBegun at takes
  unfold windowGo
  dsimp only
  rw [if_neg (by simp only [allows]; simp; omega), if_neg (by decide), if_pos rfl]
  rw [takes]

theorem windowGo_invalidate {w : Nat} {s : State} (entry : rget s (wENTRY w) < (winDims w).1) (word : rget s (wWORD w) < (winDims w).2)
    (allows : winAllows w 3 = true) (cyc : Nat) : windowGo w 3 cyc s = tlbDrop (rget s (wENTRY w)) (windowBegun w 3 s) := by
  unfold windowGo
  dsimp only
  rw [if_neg (by simp only [allows]; simp; omega), if_neg (by decide), if_neg (by decide)]
  rfl

/-! ### The windows of the scribe memories -/

theorem memGet_congr {s t : State} {h : Nat} (same : t.halves = s.halves) (a : Nat) : memGet t h a = memGet s h a := by
  rw [memGet, memGet, half, half, same]

/-- The halves as an operation finds them. -/
theorem windowBegun_halves (r : Req) (w op : Nat) (s : State) : (windowBegun w op (windowStored r w op s)).halves = s.halves := by
  obtain ⟨p, only⟩ := windowStored_only r w op s
  exact ((windowBegun_only w op _).1 .halves (by simp)).trans (only.1 .halves (by simp))

/-- What stands at a place of a window, by the word. -/
structure At (s : State) (w e : Nat) : Prop where
  idle : rget s (wBUSY w) = 0
  entry : rget s (wENTRY w) = e
  word : rget s (wWORD w) = 0

theorem At.stored {s : State} {w e : Nat} (place : At s w e) (hw : w < 14) (r : Req) (op : Nat) :
    rget (windowStored r w op s) (wENTRY w) = e ∧ rget (windowStored r w op s) (wWORD w) = 0 := by
  rw [rget_windowStored_data hw (by simp [windowData]), rget_windowStored_data hw (by simp [windowData])]
  exact ⟨place.entry, place.word⟩

theorem winRead_memory {h : Nat} (hh : h < 2) (s : State) (e i : Nat) : winRead s (10 + h) e i = memGet s h (2 * e) + memGet s h (2 * e + 1) * 2 ^ 64 := by
  rcases (by omega : h = 0 ∨ h = 1) with rfl | rfl <;> rfl

theorem winWrite_memory {h : Nat} (hh : h < 2) (e i v cyc : Nat) (s : State) : winWrite (10 + h) e i v cyc s = memWindow h e v s := by
  rcases (by omega : h = 0 ∨ h = 1) with rfl | rfl <;> rfl

theorem memory_fields : ∀ h < 2, (wHI (10 + h)).key ≠ (wLO (10 + h)).key ∧ (wBUSY (10 + h)).key ≠ (wLO (10 + h)).key
    ∧ (wBUSY (10 + h)).key ≠ (wHI (10 + h)).key ∧ (winDims (10 + h)).1 = 16384 ∧ (winDims (10 + h)).2 = 1
    ∧ winAllows (10 + h) 1 = true ∧ winAllows (10 + h) 2 = true := by decide

theorem runs_memoryRead {s : State} {r : Req} {h e : Nat} (hh : h < 2) (he : e < 16384) (served : Served r.who (winOff (10 + h) + 24) s)
    (place : At s (10 + h) e) : Runs (.windowRead r (10 + h)) s fun t => rget t (wBUSY (10 + h)) = 1 ∧ rget t (wLO (10 + h)) = memGet s h (2 * e)
      ∧ rget t (wHI (10 + h)) = memGet s h (2 * e + 1) := by
  have hw : 10 + h < 14 := by omega
  have lt (f : Fld) (mem : f ∈ windowData (10 + h)) := (windowData_apart _ hw f mem).2.2
  obtain ⟨hiLo, busyLo, busyHi, entries, words, allows, -⟩ := memory_fields h hh
  obtain ⟨entry, word⟩ := place.stored hw r 1
  refine runs_act (f := windowOp r (10 + h) 1) (ok := decide (10 + h < 14)) rfl served.1 (by simp [hw]) ?_
  have value : winRead (windowBegun (10 + h) 1 (windowStored r (10 + h) 1 s)) (10 + h) e 0 = memGet s h (2 * e) + memGet s h (2 * e + 1) * 2 ^ 64 := by
    have same := windowBegun_halves r (10 + h) 1 s
    rw [winRead_memory hh, memGet_congr same, memGet_congr same]
  have low := memGet_lt s h (2 * e)
  have high := memGet_lt s h (2 * e + 1)
  rw [windowOp_served hw (by decide) served place.idle, windowGo_read (by omega) (by omega) allows, entry, word, value]
  refine ⟨?_, ?_, ?_⟩
  · rw [rget_keepAll _ _ (lt _ (by simp [windowData])), rget_rset_other _ _ busyHi, rget_rset_other _ _ busyLo, rget_windowBegun_busy]
  · rw [rget_keepAll _ _ (lt _ (by simp [windowData])), rget_rset_other _ _ (Ne.symm hiLo), rget_rset_same]
    show (_ : Nat) % 2 ^ 64 = _
    omega
  · rw [rget_keepAll _ _ (lt _ (by simp [windowData])), rget_rset_same]
    show (_ : Nat) % 2 ^ 64 = _
    omega

theorem memGet_memSet_same {h : Nat} {a : Nat} (small : a < 32768) (v : Nat) (s : State) : memGet (memSet h a v s) h a = v % 2 ^ 64 := by
  simp [memGet, memSet, Nat.mod_eq_of_lt small]

theorem memGet_memSet_other {h : Nat} {a b : Nat} (apart : b % 32768 ≠ a % 32768) (v : Nat) (s : State) : memGet (memSet h a v s) h b = memGet s h b := by
  simp [memGet, memSet, mget_mput_other _ _ apart]

theorem runs_memoryWrite {s : State} {r : Req} {h e : Nat} (hh : h < 2) (he : e < 16384) (served : Served r.who (winOff (10 + h) + 24) s)
    (place : At s (10 + h) e) (halted : halfState s h = 5) (fits : rget s (wLO (10 + h)) < 2 ^ 64) : Runs (.windowWrite r (10 + h)) s fun t =>
      rget t (wBUSY (10 + h)) = 1 ∧ memGet t h (2 * e) = rget s (wLO (10 + h)) % 2 ^ 64 ∧ memGet t h (2 * e + 1) = rget s (wHI (10 + h)) % 2 ^ 64 := by
  have hw : 10 + h < 14 := by omega
  have lt (f : Fld) (mem : f ∈ windowData (10 + h)) := (windowData_apart _ hw f mem).2.2
  have apart : ∀ h < 2, (wLO (10 + h)).key ∉ [wOP (10 + h), wBUSY (10 + h)].map (·.key) ∧ (wHI (10 + h)).key ∉ [wOP (10 + h), wBUSY (10 + h)].map (·.key)
      ∧ (sf h F.SCRR_STATE.STATE).key ∉ [wOP (10 + h), wBUSY (10 + h)].map (·.key)
      ∧ (sf h F.SCRR_STATE.STATE).key ∉ (rowFields (winOff (10 + h) + 24)).map (·.key) ∧ (sf h F.SCRR_STATE.STATE).key % 32768 ≠ 243 := by decide
  obtain ⟨loKept, hiKept, stateKept, stateStored, notCount⟩ := apart h hh
  obtain ⟨-, -, -, entries, words, -, allows⟩ := memory_fields h hh
  obtain ⟨entry, word⟩ := place.stored hw r 2
  refine runs_act (f := windowOp r (10 + h) 2) (ok := decide (10 + h < 14)) rfl served.1 (by simp [hw]) ?_
  have begun := windowBegun_only (10 + h) 2 (windowStored r (10 + h) 2 s)
  have busy := rget_windowBegun_busy (10 + h) 2 (windowStored r (10 + h) 2 s)
  have lo : rget (windowBegun (10 + h) 2 (windowStored r (10 + h) 2 s)) (wLO (10 + h)) = rget s (wLO (10 + h)) := by
    rw [begun.get loKept, rget_windowStored_data hw (by simp [windowData])]
  have hi : rget (windowBegun (10 + h) 2 (windowStored r (10 + h) 2 s)) (wHI (10 + h)) = rget s (wHI (10 + h)) := by
    rw [begun.get hiKept, rget_windowStored_data hw (by simp [windowData])]
  have state : halfState (windowBegun (10 + h) 2 (windowStored r (10 + h) 2 s)) h = 5 := by
    rw [halfState, begun.get stateKept, rget_windowStored notCount stateStored]
    exact halted
  have stored := windowGo_write (cyc := r.cyc) (w := 10 + h) (s := windowStored r (10 + h) 2 s) (by omega) (by omega) allows
    (by rw [winWrite_memory hh, memWindow, if_pos (.inl state)])
  rw [windowOp_served hw (by decide) served place.idle, stored, entry, lo, hi]
  generalize windowBegun (10 + h) 2 (windowStored r (10 + h) 2 s) = b at *
  refine ⟨?_, ?_, ?_⟩
  · rw [rget_keepAll _ _ (lt _ (by simp [windowData])), (memSet_only _ _ _ _).get (by simp), (memSet_only _ _ _ _).get (by simp), busy]
  · show memGet (memSet h (2 * e + 1) _ (memSet h (2 * e) _ b)) h (2 * e) = _
    rw [memGet_memSet_other (by omega), memGet_memSet_same (by omega)]
    omega
  · show memGet (memSet h (2 * e + 1) _ (memSet h (2 * e) _ b)) h (2 * e + 1) = _
    rw [memGet_memSet_same (by omega)]
    omega

/-! ### The window of the TLB -/

/-- The fields that show the TLB's occupancy. -/
def occFields : List Fld := [F.ATU_OCC.N4K, F.ATU_OCC.N2M, F.ATU_OCC.N1G]

theorem showOcc_only (s : State) : Only [] occFields s (showOcc s) :=
  (((rset_only _ _ s).trans (rset_only _ _ _)).trans (rset_only _ _ _)).mono (by simp) (by simp [occFields])

theorem tlbDrop_only (e : Nat) (s : State) : Only [.dma] occFields s (tlbDrop e s) := ((setDma_only _ s).trans (showOcc_only _)).mono (by simp) (by simp)

theorem keepAll_dma (s t : State) : (keepAll s t).dma = t.dma := rfl

theorem runs_tlbInvalidate {s : State} {r : Req} {e : Nat} (he : e < 1024) (served : Served r.who (winOff 7 + 24) s) (place : At s 7 e) :
    Runs (.windowInvalidate r 7) s fun t => rget t (wBUSY 7) = 1 ∧ t.dma.tlb = s.dma.tlb.filter (fun x => x.slot != e) := by
  obtain ⟨entry, word⟩ := place.stored (by decide) r 3
  refine runs_act (f := windowOp r 7 3) (ok := decide (7 < 14)) rfl served.1 rfl ?_
  have dims : (winDims 7).1 = 1024 ∧ (winDims 7).2 = 2 := by decide
  rw [windowOp_served (by decide) (by decide) served place.idle, windowGo_invalidate (by omega) (by omega) rfl, entry]
  have busy := rget_windowBegun_busy 7 3 (windowStored r 7 3 s)
  have same : (windowBegun 7 3 (windowStored r 7 3 s)).dma = s.dma := by
    obtain ⟨p, only⟩ := windowStored_only r 7 3 s
    exact ((windowBegun_only 7 3 _).1 .dma (by simp)).trans (only.1 .dma (by simp))
  generalize windowBegun 7 3 (windowStored r 7 3 s) = b at *
  refine ⟨by rw [rget_keepAll _ _ (by decide), (tlbDrop_only _ _).get (by decide), busy], ?_⟩
  rw [keepAll_dma, ← same]
  rfl

/-! ### The end of an operation -/

theorem window_counts : ∀ w < 14, (wBUSY w).key < strokeBase ∧ (wWORD w).key < strokeBase ∧ (wENTRY w).key < strokeBase
    ∧ (wAUTOINC w).key ≠ (wBUSY w).key ∧ (wWORD w).key ≠ (wBUSY w).key ∧ (wENTRY w).key ≠ (wWORD w).key ∧ (wENTRY w).key ≠ (wBUSY w).key
    ∧ (winDims w).2 ≤ 256 := by decide

theorem windowDone_eq {s : State} {w : Nat} (hw : w < 14) (busy : rget s (wBUSY w) = 1) : windowDone w s =
    if rget s (wAUTOINC w) = 0 then rset (wBUSY w) 0 s
    else if rget s (wWORD w) + 1 < (winDims w).2 then inc (wWORD w) (rset (wBUSY w) 0 s)
    else rset (wBUSY w) 0 s |> rset (wWORD w) 0 |> rset (wENTRY w) (rget s (wENTRY w) + 1) := by
  obtain ⟨-, -, -, auto, word, -, entry, -⟩ := window_counts w hw
  unfold windowDone
  rw [if_neg (by omega)]
  dsimp only
  rw [rget_rset_other _ _ auto, rget_rset_other _ _ word, rget_rset_other _ _ entry]

theorem runs_windowDone {s : State} {w : Nat} (u : Up s) (hw : w < 14) (busy : rget s (wBUSY w) = 1) :
    (rget s (wAUTOINC w) = 0 → Runs (.windowOpDone w) s (fun t => rget t (wBUSY w) = 0 ∧ Only [] [wBUSY w] s t))
      ∧ (rget s (wAUTOINC w) = 1 → rget s (wWORD w) + 1 < (winDims w).2 → Runs (.windowOpDone w) s (fun t => rget t (wBUSY w) = 0
          ∧ rget t (wWORD w) = rget s (wWORD w) + 1 ∧ rget t (wENTRY w) = rget s (wENTRY w) ∧ Only [] [wBUSY w, wWORD w] s t)) := by
  obtain ⟨busyLt, wordLt, entryLt, -, wordBusy, entryWord, entryBusy, words⟩ := window_counts w hw
  refine ⟨fun still => ?_, fun advances more => ?_⟩
  · refine runs_act (f := windowDone w) (ok := decide (w < 14)) rfl u (by simp [hw]) ?_
    rw [windowDone_eq hw busy, if_pos still]
    exact ⟨by rw [rget_keepAll _ _ busyLt, rget_rset_same]; rfl, (rset_only _ _ s).keepAll⟩
  · refine runs_act (f := windowDone w) (ok := decide (w < 14)) rfl u (by simp [hw]) ?_
    rw [windowDone_eq hw busy, if_neg (by omega), if_pos more]
    refine ⟨?_, ?_, ?_, (((rset_only _ _ s).trans (inc_only _ _)).mono (by simp) (by simp)).keepAll⟩
    · rw [rget_keepAll _ _ busyLt, (inc_only _ _).get (by simpa using Ne.symm wordBusy), rget_rset_same]
      rfl
    · rw [rget_keepAll _ _ wordLt, rget_inc_same, rget_rset_other _ _ wordBusy]
      show min (2 ^ 8 - 1) _ = _
      omega
    · rw [rget_keepAll _ _ entryLt, (inc_only _ _).get (by simpa using entryWord), rget_rset_other _ _ entryBusy]

/-- Settles O21: one lemma for each operation. -/
theorem windowOperations : Obligations.WindowOperations := by
  intro s r w h hh off at'
  refine ⟨fun e he served place => ⟨?_, fun halted fits => ?_⟩, fun e he served place => ?_, fun u hw busy => runs_windowDone u hw busy⟩
  · exact runs_memoryRead hh he served ⟨place.1, place.2.1, place.2.2⟩
  · exact runs_memoryWrite hh he served ⟨place.1, place.2.1, place.2.2⟩ halted fits
  · exact runs_tlbInvalidate he served ⟨place.1, place.2.1, place.2.2⟩

end Sys2Proof.Machine

/-! SUPPORT. The arming of a synchronising reset (R125). -/

namespace Sys2Proof.Machine

/-! ### The armed reset -/

/-- The fields that show an armed reset. -/
def syncShown : List Fld := [F.FLT_CTRL.SYNC_ARMED, F.FLT_SYNC.STROKE]

theorem setSync_only (x : Option Nat) (s : State) : Only [.filt] syncShown s (setSync x s) :=
  (((filt_only _ s).trans (rset_only _ _ _)).trans (rset_only _ _ _)).mono (by simp) (by simp [syncShown])

theorem setSync_filt (x : Option Nat) (s : State) : (setSync x s).filt = { s.filt with syncArmed := x } := by
  rw [setSync, rset_filt, rset_filt]

theorem setSync_shows (x : Option Nat) (s : State) :
    rget (setSync x s) F.FLT_CTRL.SYNC_ARMED = x.isSome.toNat ∧ rget (setSync x s) F.FLT_SYNC.STROKE = x.getD allOnes % 2 ^ 64 := by
  rw [setSync, rget_rset_other _ _ (by decide), rget_rset_same, rget_rset_same]
  refine ⟨?_, rfl⟩
  cases x <;> rfl

theorem syncFlag_only (f : Fld) (s : State) : Only [.eva] [f, F.EVT_PEND.PEND pFLT] s (syncFlag f s) :=
  ((rset_only _ _ s).trans (raise_only _ _ _)).mono (by simp) (by simp)

/-- The common frame keeps the filter's own state but for the live tables, which a synchronising reset leaves. -/
theorem keepAll_filt {s t : State} {x : Option Nat} (h : t.filt = { s.filt with syncArmed := x }) :
    (keepAll s t).filt = { s.filt with syncArmed := x } := by
  simp [keepAll, keepLive, keepTables, keepTime, keepWear, keepPower, h]

/-! ### What an arming comes to -/

section
variable {s : State} {n cyc : Nat}

theorem syncRequest_local (isArm : n ≠ allOnes) (thawed : penHolder s ≠ 3) : syncRequest false n cyc s = armSync n cyc s := by
  simp [syncRequest, isArm, thawed]

theorem syncWrite_arms (free : syncSealed s cyc = false) (isArm : n ≠ allOnes) (thawed : penHolder s ≠ 3) (alone : on s F.FLT_CTRL.SYNC_DOMAIN = false) :
    syncWrite n cyc s = armSync n cyc s := by
  rw [syncWrite, free, if_neg Bool.false_ne_true, alone, syncRequest_local isArm thawed]

theorem syncWrite_disarms (free : syncSealed s cyc = false) : syncWrite allOnes cyc s = setSync none s := by
  rw [syncWrite, free, if_neg Bool.false_ne_true, syncRequest, if_pos rfl, armSync, if_pos rfl]

theorem armSync_on {m : Nat} (isArm : n ≠ allOnes) (inTime : armOutcome s n cyc = .on m) : armSync n cyc s = setSync (some m) s := by
  rw [armSync, if_neg isArm, inTime]

theorem armSync_late {m : Nat} (isArm : n ≠ allOnes) (slips : armOutcome s n cyc = .late m) :
    armSync n cyc s = syncFlag F.FLT_CTRL.SYNC_LATE (setSync (some m) s) := by
  rw [armSync, if_neg isArm, slips]

theorem armSync_stale (isArm : n ≠ allOnes) (struck : armOutcome s n cyc = .stale) : armSync n cyc s = syncFlag F.FLT_CTRL.SYNC_STALE s := by
  rw [armSync, if_neg isArm, struck]

/-- SYNC_NEXT arms the first stroke that meets the rule. -/
theorem syncNext_arms (free : syncSealed s cyc = false) (thawed : penHolder s ≠ 3) (alone : on s F.FLT_CTRL.SYNC_DOMAIN = false)
    (fits : firstMeeting s cyc < 2 ^ 64 - 1) : syncNext cyc s = setSync (some (firstMeeting s cyc)) s := by
  have isArm : firstMeeting s cyc ≠ allOnes := by
    simp only [allOnes]
    omega
  rw [syncNext, alone, Bool.false_and, if_neg Bool.false_ne_true, syncWrite_arms free isArm thawed alone,
    armSync_on isArm (armOutcome_firstMeeting s cyc)]

end

/-- The reset armed for a stroke. -/
structure SyncArmed (s : State) (x : Nat) (t : State) : Prop where
  own : t.filt = { s.filt with syncArmed := some x }
  shown : rget t F.FLT_CTRL.SYNC_ARMED = 1
  stroke : rget t F.FLT_SYNC.STROKE = x % 2 ^ 64

theorem SyncArmed.of_setSync {s b : State} (same : b.filt = s.filt) (x : Nat) : SyncArmed s x (setSync (some x) b) := by
  obtain ⟨shown, stroke⟩ := setSync_shows (some x) b
  exact ⟨by rw [setSync_filt, same], shown, stroke⟩

theorem SyncArmed.only {s t u : State} {ps : List Part} {rs : List Fld} {x : Nat} (h : SyncArmed s x t) (o : Only ps rs t u) (own : Part.filt ∉ ps)
    (fields : F.FLT_CTRL.SYNC_ARMED.key ∉ rs.map (·.key) ∧ F.FLT_SYNC.STROKE.key ∉ rs.map (·.key)) : SyncArmed s x u :=
  ⟨(o.1 .filt own).trans h.own, (o.get fields.1).trans h.shown, (o.get fields.2).trans h.stroke⟩

theorem SyncArmed.keepAll {s t : State} {x : Nat} (h : SyncArmed s x t) : SyncArmed s x (Machine.keepAll s t) :=
  ⟨keepAll_filt h.own, by rw [rget_keepAll _ _ (by decide), h.shown], by rw [rget_keepAll _ _ (by decide), h.stroke]⟩

/-! ### What an access leaves for the rules -/

theorem syncSealed_congr {s t : State} (own : t.filt.syncArmed = s.filt.syncArmed) (struck : t.struck = s.struck) (now : strokeNow t = strokeNow s)
    (length : strokeLen t = strokeLen s) (cyc : Nat) : syncSealed t cyc = syncSealed s cyc := by
  rw [syncSealed, syncSealed, own, struck, length, (strokeRules_congr struck now length).2.2]

theorem filt_accessBegins (w : Requester) (s : State) : (accessBegins w s).filt = s.filt := by
  obtain ⟨p, only⟩ := accessBegins_only w s
  exact only.1 .filt (by simp)

theorem syncSealed_accessBegins (w : Requester) (s : State) (cyc : Nat) : syncSealed (accessBegins w s) cyc = syncSealed s cyc := by
  obtain ⟨p, only⟩ := accessBegins_only w s
  exact syncSealed_congr (by rw [filt_accessBegins]) (only.1 .time (by simp)).1 (strokeNow_accessBegins w s)
    (congrArg (fun m => 500 * (m + 1)) (rget_accessBegins w s (by decide))) cyc

theorem applyWrite_fltSync (r : Req) (v : Nat) (s : State) : applyWrite r (regOff F.FLT_SYNC.STROKE) v s = syncWrite v (r.cyc + 6) s := by
  have place : ¬ slotAt (regOff F.FLT_SYNC.STROKE) < 0x80 ∧ windowAt (regOff F.FLT_SYNC.STROKE) = none ∧ effectOnly (regOff F.FLT_SYNC.STROKE) = true := by
    decide
  rw [applyWrite, if_neg place.1, place.2.1]
  dsimp only
  rw [place.2.2, if_pos rfl]
  rfl

/-! ### The commands -/

section
variable {s : State} {r : Req}

theorem runs_fltSyncArm {n m : Nat} (served : Served r.who (regOff F.FLT_SYNC.STROKE) s) (free : syncSealed s (r.cyc + 6) = false) (isArm : n < 2 ^ 64 - 1)
    (thawed : penHolder s ≠ 3) (alone : on s F.FLT_CTRL.SYNC_DOMAIN = false) :
    (armOutcome s n (r.cyc + 6) = .on m → Runs (.fltSyncArm r n) s (fun t => SyncArmed s m t ∧ Only [.filt] syncShown (accessBegins r.who s) t))
      ∧ (armOutcome s n (r.cyc + 6) = .late m → Runs (.fltSyncArm r n) s (fun t => SyncArmed s m t ∧ rget t F.FLT_CTRL.SYNC_LATE = 1 ∧ Pends pFLT 1 t
          ∧ Only [.filt, .eva] (F.FLT_CTRL.SYNC_LATE :: F.EVT_PEND.PEND pFLT :: syncShown) (accessBegins r.who s) t))
      ∧ (armOutcome s n (r.cyc + 6) = .stale → Runs (.fltSyncArm r n) s (fun t => rget t F.FLT_CTRL.SYNC_STALE = 1 ∧ Pends pFLT 1 t
          ∧ Only [.eva] [F.FLT_CTRL.SYNC_STALE, F.EVT_PEND.PEND pFLT] (accessBegins r.who s) t)) := by
  have domain : on (accessBegins r.who s) F.FLT_CTRL.SYNC_DOMAIN = false := by
    rw [on, rget_accessBegins _ _ (by decide)]
    exact alone
  have notAll : n ≠ allOnes := by
    simp only [allOnes]
    omega
  have arms : applyWrite r (regOff F.FLT_SYNC.STROKE) (n % 2 ^ 64) (accessBegins r.who s) = armSync n (r.cyc + 6) (accessBegins r.who s) := by
    rw [applyWrite_fltSync, Nat.mod_eq_of_lt (by omega : n < 2 ^ 64),
      syncWrite_arms (by rwa [syncSealed_accessBegins]) notAll (by rwa [penHolder_accessBegins]) domain]
  have outcome := (strokeRules_accessBegins r.who s).1 n (r.cyc + 6)
  have own := filt_accessBegins r.who s
  refine ⟨fun inTime => ?_, fun slips => ?_, fun struck => ?_⟩
  · refine runs_write (ok := true) rfl rfl served ?_
    rw [arms, armSync_on notAll (outcome.trans inTime)]
    exact ⟨(SyncArmed.of_setSync own m).keepAll, keepAll_accessBegins r.who s _ ▸ (setSync_only _ _).keepAll⟩
  · refine runs_write (ok := true) rfl rfl served ?_
    rw [arms, armSync_late notAll (outcome.trans slips)]
    have flag := syncFlag_only F.FLT_CTRL.SYNC_LATE (setSync (some m) (accessBegins r.who s))
    refine ⟨((SyncArmed.of_setSync own m).only flag (by simp) (by decide)).keepAll, ?_, Pends.keepAll (by decide) (raise_pends _ (by decide)),
      keepAll_accessBegins r.who s _ ▸ (((setSync_only _ _).trans flag).mono (by simp) (by simp)).keepAll⟩
    rw [rget_keepAll _ _ (by decide), syncFlag, (raise_only _ _ _).get (by decide), rget_rset_same]
    rfl
  · refine runs_write (ok := true) rfl rfl served ?_
    rw [arms, armSync_stale notAll (outcome.trans struck)]
    refine ⟨?_, Pends.keepAll (by decide) (raise_pends _ (by decide)), keepAll_accessBegins r.who s _ ▸ (syncFlag_only _ _).keepAll⟩
    rw [rget_keepAll _ _ (by decide), syncFlag, (raise_only _ _ _).get (by decide), rget_rset_same]
    rfl

theorem runs_fltSyncDisarm (served : Served r.who (regOff F.FLT_SYNC.STROKE) s) (free : syncSealed s (r.cyc + 6) = false) :
    Runs (.fltSyncDisarm r) s fun t => t.filt = { s.filt with syncArmed := none } ∧ rget t F.FLT_CTRL.SYNC_ARMED = 0
      ∧ rget t F.FLT_SYNC.STROKE = 2 ^ 64 - 1 ∧ Only [.filt] syncShown (accessBegins r.who s) t := by
  refine runs_write (ok := true) rfl rfl served ?_
  have disarms : applyWrite r (regOff F.FLT_SYNC.STROKE) (allOnes % 2 ^ 64) (accessBegins r.who s) = setSync none (accessBegins r.who s) := by
    rw [applyWrite_fltSync]
    exact syncWrite_disarms (by rwa [syncSealed_accessBegins])
  rw [disarms]
  obtain ⟨shown, stroke⟩ := setSync_shows none (accessBegins r.who s)
  refine ⟨keepAll_filt (by rw [setSync_filt, filt_accessBegins]), by rw [rget_keepAll _ _ (by decide), shown]; rfl,
    by rw [rget_keepAll _ _ (by decide), stroke]; rfl, keepAll_accessBegins r.who s _ ▸ (setSync_only _ _).keepAll⟩

/-- The stored word of FLT_CTRL leaves what the rules read. -/
theorem runs_syncNext {v : Nat} (served : Served r.who (regOff F.FLT_CTRL.SYNC_NEXT) s) (alone : bitSet v 1 = false)
    (free : syncSealed s (r.cyc + 6) = false) (thawed : penHolder s ≠ 3) (fits : firstMeeting s (r.cyc + 6) < 2 ^ 64 - 1) :
    Runs (.syncNext r v) s fun t => SyncArmed s (firstMeeting s (r.cyc + 6)) t ∧ Wrote (regOff F.FLT_CTRL.SYNC_NEXT) [.filt] syncShown s t := by
  have plain : plainReg (regOff F.FLT_CTRL.SYNC_NEXT) = true := by decide
  refine runs_act (ok := true) (f := wideWrite r (regOff F.FLT_CTRL.SYNC_NEXT) (wordWith F.FLT_CTRL.SYNC_NEXT 1 v)) rfl served.1 rfl ?_
  have st := plain_stored (v := wordWith F.FLT_CTRL.SYNC_NEXT 1 v) served plain
  have domain : on (plainStored r (regOff F.FLT_CTRL.SYNC_NEXT) (wordWith F.FLT_CTRL.SYNC_NEXT 1 v) s) F.FLT_CTRL.SYNC_DOMAIN = false := by
    rw [on, rget_plainStored (lo := 1) plain (by decide) (by decide)]
    show (slice 1 1 _ == 1) = false
    rw [slice_wordWith_high _ _ _ _ (by decide) (by decide) (by decide)]
    exact alone
  have next : bitSet (wordWith F.FLT_CTRL.SYNC_NEXT 1 v % 2 ^ 64) 0 = true :=
    bitSet_wordWith_one (f := F.FLT_CTRL.SYNC_NEXT) v rfl rfl
  rw [served_plain served plain]
  generalize plainStored r (regOff F.FLT_CTRL.SYNC_NEXT) (wordWith F.FLT_CTRL.SYNC_NEXT 1 v) s = b at *
  have own : b.filt = s.filt := st.2.2 .filt (by simp) (by simp)
  have time := st.2.2 .time (by simp) (by simp)
  have now : strokeNow b = strokeNow s := st.get (by decide) (by decide)
  have length : strokeLen b = strokeLen s := congrArg (fun m => 500 * (m + 1)) (st.get (by decide) (by decide))
  have first : firstMeeting b (r.cyc + 6) = firstMeeting s (r.cyc + 6) := (strokeRules_congr time.1 now length).2.1 _
  have arms : pageEffect r (regOff F.FLT_CTRL.SYNC_NEXT) (wordWith F.FLT_CTRL.SYNC_NEXT 1 v % 2 ^ 64) (accessBegins r.who s) b =
      setSync (some (firstMeeting s (r.cyc + 6))) b := by
    show whenB (bitSet (wordWith F.FLT_CTRL.SYNC_NEXT 1 v % 2 ^ 64) 0) (syncNext (r.cyc + 6)) b = _
    rw [next, whenB_true, syncNext_arms ((syncSealed_congr (by rw [own]) time.1 now length _).trans free) ?_ domain (by rwa [first]), first]
    rwa [penHolder, st.get (by decide) (by decide)]
  rw [arms]
  exact ⟨(SyncArmed.of_setSync own _).keepAll, b, st, st.keepAll (setSync_only _ _)⟩

theorem runs_syncEdge {cyc : Nat} (u : Up s) (enabled : on s F.FLT_CTRL.SYNC_PIN_EN = true) (alone : on s F.FLT_CTRL.SYNC_DOMAIN = false)
    (idle : s.filt.syncArmed = none) (thawed : penHolder s ≠ 3) (fits : firstMeeting s cyc < 2 ^ 64 - 1) :
    Runs (.syncNEdge cyc) s fun t => SyncArmed s (firstMeeting s cyc) t ∧ Only [.filt] syncShown s t := by
  refine runs_act (ok := true) (f := syncPin cyc) rfl u rfl ?_
  have free : syncSealed s cyc = false := by rw [syncSealed, idle]
  have arms : syncPin cyc s = setSync (some (firstMeeting s cyc)) s := by
    rw [syncPin, enabled, idle]
    exact syncNext_arms free thawed alone fits
  rw [arms]
  exact ⟨(SyncArmed.of_setSync rfl _).keepAll, (setSync_only _ _).keepAll⟩

end

/-- Settles O28: one lemma for each source of an arming. -/
theorem syncArming : Obligations.SyncArming := by
  intro s r n m v cyc a armed shown
  have all {x : Nat} {t : State} (h : SyncArmed s x t) : armed x t := ⟨h.own, h.shown, h.stroke⟩
  refine ⟨fun served free => ⟨fun isArm thawed alone => ?_, runs_fltSyncDisarm served free⟩, fun served alone free thawed fits => ?_,
    fun u enabled alone idle thawed fits => ?_, fun u armed' => ?_⟩
  case refine_1 =>
    obtain ⟨inTime, slips, struck⟩ := runs_fltSyncArm (m := m) served free isArm thawed alone
    refine ⟨fun h => ?_, fun h => ?_, struck⟩
    · obtain ⟨t, next, is, only⟩ := inTime h
      exact ⟨t, next, all is, only⟩
    · obtain ⟨t, next, is, rest⟩ := slips h
      exact ⟨t, next, all is, rest⟩
  case refine_2 =>
    obtain ⟨t, next, is, wrote⟩ := runs_syncNext served alone free thawed fits
    exact ⟨t, next, all is, wrote⟩
  case refine_3 =>
    obtain ⟨t, next, is, only⟩ := runs_syncEdge u enabled alone idle thawed fits
    exact ⟨t, next, all is, only⟩
  case refine_4 =>
    refine runs_act (ok := true) (f := syncPin cyc) rfl u rfl ?_
    have idle : syncPin cyc s = s := by
      rw [syncPin, if_neg (by simp [Option.isSome_iff_ne_none.mp armed'])]
    rw [idle, keepAll_self]

end Sys2Proof.Machine

/-! SUPPORT. Flourish requests and ends, and peeks (R129, R130, R133, R434). -/

namespace Sys2Proof.Machine

/-! ### A flourish request -/

/-- The common frame keeps the filter's own state but for the live descriptors. -/
theorem keepAll_filt_desc {s t : State} (h : t.filt.desc = s.filt.desc) : (keepAll s t).filt = t.filt := by
  simp [keepAll, keepLive, keepTables, keepTime, keepWear, keepPower, ← h]

/-- A fresh request stands in the shadows. -/
def requestFresh (s : State) : State := { s with filt := { s.filt with fresh := true } }

theorem requestFresh_only (s : State) : Only [.filt] [] s (requestFresh s) := filt_only _ s

theorem applyWrite_flrReq {s : State} (open' : pageSealed s pFLT = false) (r : Req) (v : Nat) :
    applyWrite r (regOff F.FLT_FLR_REQ.DESC) v s = requestFresh (storeShadow (regOff F.FLT_FLR_REQ.DESC) v s) := by
  have place : ¬ slotAt (regOff F.FLT_FLR_REQ.DESC) < 0x80 ∧ windowAt (regOff F.FLT_FLR_REQ.DESC) = none
      ∧ effectOnly (regOff F.FLT_FLR_REQ.DESC) = false ∧ pageAt (regOff F.FLT_FLR_REQ.DESC) = pFLT := by decide
  obtain ⟨past, window, stores, page⟩ := place
  have now : storeTurn (regOff F.FLT_FLR_REQ.DESC) v r.cyc s = s := rfl
  rw [applyWrite, if_neg past, window]
  dsimp only
  rw [stores, if_neg Bool.false_ne_true, now, storeOrHold, page, open', Bool.and_false, if_neg Bool.false_ne_true]
  rfl

/-- The fields of FLT_FLR_REQ, by their places. -/
theorem flrReq_fields : ∀ x ∈ [(0, F.FLT_FLR_REQ.CH_FIRST), (16, F.FLT_FLR_REQ.CH_LAST), (32, F.FLT_FLR_REQ.DESC), (40, F.FLT_FLR_REQ.LEN)],
    x.1 + x.2.width ≤ 64 ∧ ∃ g, rowField (regOff F.FLT_FLR_REQ.DESC) x.1 = some g ∧ (g.access = .rw ∧ g.commit = .stroke ∧ g.span = none)
      ∧ g.width = x.2.width ∧ fieldOf (regOff F.FLT_FLR_REQ.DESC) g = x.2 := by
  intro x hx
  simp only [List.mem_cons, List.not_mem_nil, or_false] at hx
  rcases hx with rfl | rfl | rfl | rfl
  · exact ⟨by decide, _, rfl, by decide, rfl, rfl⟩
  · exact ⟨by decide, _, rfl, by decide, rfl, rfl⟩
  · exact ⟨by decide, _, rfl, by decide, rfl, rfl⟩
  · exact ⟨by decide, _, rfl, by decide, rfl, rfl⟩

theorem sget_flrReq {lo : Nat} {f : Fld}
    (mem : (lo, f) ∈ [(0, F.FLT_FLR_REQ.CH_FIRST), (16, F.FLT_FLR_REQ.CH_LAST), (32, F.FLT_FLR_REQ.DESC), (40, F.FLT_FLR_REQ.LEN)]) (v : Nat)
    (s : State) : sget (storeShadow (regOff F.FLT_FLR_REQ.DESC) (v % 2 ^ 64) s) f = slice lo f.width v := by
  obtain ⟨fits, g, found, kind, width, rfl⟩ := flrReq_fields _ mem
  have stored := sget_storeShadow found kind (v % 2 ^ 64) s
  rw [slice_mod_word (width ▸ fits)] at stored
  exact stored.trans (by rw [width])

theorem sget_requestFresh (s : State) (f : Fld) : sget (requestFresh s) f = sget s f := rfl

theorem runs_flrRequest {s : State} {r : Req} (served : Served r.who (regOff F.FLT_FLR_REQ.DESC) s) (open' : pageSealed s pFLT = false) (v : Nat) :
    Runs (.flrRequest r v) s fun t => t.filt = { s.filt with fresh := true }
      ∧ (∀ lo f, (lo, f) ∈ [(0, F.FLT_FLR_REQ.CH_FIRST), (16, F.FLT_FLR_REQ.CH_LAST), (32, F.FLT_FLR_REQ.DESC), (40, F.FLT_FLR_REQ.LEN)] →
          sget t f = slice lo f.width v) ∧ Only [.filt, .shad] [] (accessBegins r.who s) t := by
  refine runs_write (ok := true) rfl rfl served ?_
  rw [applyWrite_flrReq (by rwa [pageSealed_accessBegins])]
  have stored := storeShadow_only (regOff F.FLT_FLR_REQ.DESC) (v % 2 ^ 64) (accessBegins r.who s)
  have own : (requestFresh (storeShadow (regOff F.FLT_FLR_REQ.DESC) (v % 2 ^ 64) (accessBegins r.who s))).filt = { s.filt with fresh := true } := by
    have same : (storeShadow (regOff F.FLT_FLR_REQ.DESC) (v % 2 ^ 64) (accessBegins r.who s)).filt = s.filt :=
      (stored.1 .filt (by simp)).trans (filt_accessBegins r.who s)
    rw [← same]
    rfl
  refine ⟨(keepAll_filt_desc (by rw [own])).trans own, fun lo f mem => ?_,
    keepAll_accessBegins r.who s _ ▸ ((stored.trans (requestFresh_only _)).mono (by simp) (by simp)).keepAll⟩
  rw [sget_keepAll, sget_requestFresh, sget_flrReq mem]

/-! ### The end of a flourish -/

theorem chainOf_setChain_same (c : Nat) (x : Chain) (s : State) : chainOf (setChain c x s) c = x := mget_mput_same _ _ _ _
theorem chainOf_setChain_other {c d : Nat} (h : d ≠ c) (x : Chain) (s : State) : chainOf (setChain c x s) d = chainOf s d := mget_mput_other _ _ h _
theorem flourOf_setFlour_same (c : Nat) (x : Option Flourish) (s : State) : flourOf (setFlour c x s) c = x := mget_mput_same _ _ _ _
theorem flourOf_setFlour_other {c d : Nat} (h : d ≠ c) (x : Option Flourish) (s : State) : flourOf (setFlour c x s) d = flourOf s d :=
  mget_mput_other _ _ h _

/-- Chains, flourishes and queued requests stand in the filter's own state. -/
theorem chains_congr {s t : State} (same : t.filt = s.filt) (c : Nat) : chainOf t c = chainOf s c ∧ flourOf t c = flourOf s c ∧ queuedOf t c = queuedOf s c := by
  rw [chainOf, chainOf, flourOf, flourOf, queuedOf, queuedOf, same]
  exact ⟨rfl, rfl, rfl⟩

/-- The flourish's chain goes on alone, before the channel's bits are cleared. -/
def chainAlone (c : Nat) (f : Flourish) (s : State) : State := s |> flrLive c f.inc.desc |> setChain c f.inc |> setFlour c none

theorem flrEnd_eq (c : Nat) (f : Flourish) (s : State) : flrEnd c f s =
    (chainAlone c f s |> clrBitOf (F.FLT_PRIME.PRIME (c / 64)) (c % 64) |> clrBitOf (F.FLT_FADE.FADE (c / 64)) (c % 64)) := rfl

theorem flrEnd_filt (c : Nat) (f : Flourish) (s : State) : (flrEnd c f s).filt = (chainAlone c f s).filt := by
  rw [flrEnd_eq]
  exact ((clrBitOf_only _ _ _).trans (clrBitOf_only _ _ _)).1 .filt (by simp)

theorem flrEnd_chains (c : Nat) (f : Flourish) (s : State) : chainOf (flrEnd c f s) c = f.inc ∧ flourOf (flrEnd c f s) c = none
    ∧ queuedOf (flrEnd c f s) c = queuedOf s c ∧ ∀ d, d ≠ c → chainOf (flrEnd c f s) d = chainOf s d ∧ flourOf (flrEnd c f s) d = flourOf s d := by
  have live := chains_congr ((flrLive_only c f.inc.desc s).1 .filt (by simp))
  have ended := chains_congr (flrEnd_filt c f s)
  refine ⟨?_, ?_, ?_, fun d other => ⟨?_, ?_⟩⟩
  · exact (ended c).1.trans (chainOf_setChain_same c f.inc _)
  · exact (ended c).2.1.trans (flourOf_setFlour_same c none _)
  · exact (ended c).2.2.trans (live c).2.2
  · exact ((ended d).1.trans (chainOf_setChain_other other f.inc (flrLive c f.inc.desc s))).trans (live d).1
  · exact ((ended d).2.1.trans (flourOf_setFlour_other other none _)).trans (live d).2.1

theorem rget_flrEnd_desc {c : Nat} (small : c < 512) {f : Flourish} (fits : f.inc.desc < 64) (s : State) : rget (flrEnd c f s) (fltDesc c) = f.inc.desc := by
  have late : Only [.shad] [] (rset (fltDesc c) f.inc.desc s) (flrLive c f.inc.desc s) := Only.whenB (sset_only _ _ _)
  have cleared : Only [.filt] [F.FLT_PRIME.PRIME (c / 64), F.FLT_FADE.FADE (c / 64)] (flrLive c f.inc.desc s) (flrEnd c f s) :=
    ((((setChain_only c f.inc _).trans (setFlour_only c none _)).trans (clrBitOf_only _ _ _)).trans (clrBitOf_only _ _ _)).mono (by simp) (by simp)
  rw [cleared.get (by simp [strokeBase]; omega), late.get (by simp), rget_rset_same]
  exact Nat.mod_eq_of_lt fits

/-- The Done phase of a flourish with no request queued behind it. -/
theorem flrDone_alone {s : State} {c : Nat} {f : Flourish} (flour : flourOf s c = some f) (due : flrLast s f ≤ strokeNow s) (empty : queuedOf s c = none) :
    flrDone c s = raise pFLT 3 (inc F.FLT_COUNT.FLR_DONE (flrEnd c f s)) := by
  have still : queuedOf (raise pFLT 3 (inc F.FLT_COUNT.FLR_DONE (flrEnd c f s))) c = none := by
    rw [(chains_congr (((inc_only _ _).trans (raise_only _ _ _)).1 .filt (by simp)) c).2.2, (flrEnd_chains c f s).2.2.1, empty]
  unfold flrDone
  rw [flour]
  dsimp only
  rw [if_pos due]
  unfold flrQueued
  rw [still]

theorem chains_keepFlour (s t : State) (c : Nat) : chainOf (keepFlour s t) c = chainOf t c ∧ flourOf (keepFlour s t) c = flourOf t c := ⟨rfl, rfl⟩

theorem runs_flourishDone {s : State} {c : Nat} {f : Flourish} (u : Up s) (small : c < 512) (flour : flourOf s c = some f) (fits : f.inc.desc < 64)
    (due : flrLast s f ≤ strokeNow s) (empty : queuedOf s c = none) : Runs (.flourishDone c) s fun t =>
      rget t (fltDesc c) = f.inc.desc ∧ chainOf t c = f.inc ∧ flourOf t c = none ∧ rget t F.FLT_COUNT.FLR_DONE = min 65535 (rget s F.FLT_COUNT.FLR_DONE + 1)
        ∧ (∀ d, d ≠ c → chainOf t d = chainOf s d ∧ flourOf t d = flourOf s d) ∧ Pends pFLT 3 t
        ∧ Only [.filt, .shad, .eva] [fltDesc c, F.FLT_PRIME.PRIME (c / 64), F.FLT_FADE.FADE (c / 64), F.FLT_COUNT.FLR_DONE, F.EVT_PEND.PEND pFLT] s t := by
  refine runs_actIn (keep := keepFlour) (f := flrDone c) (ok := decide (c < 512)) rfl u (by simp [small]) ?_
  rw [flrDone_alone flour due empty]
  have ended := flrEnd_only c f s
  have desc := rget_flrEnd_desc small fits s
  obtain ⟨chain, ended', -, others⟩ := flrEnd_chains c f s
  generalize flrEnd c f s = b at *
  have counted := (inc_only F.FLT_COUNT.FLR_DONE b).trans (raise_only pFLT 3 _)
  have same := chains_congr (counted.1 .filt (by simp))
  have kept := chains_keepFlour s (raise pFLT 3 (inc F.FLT_COUNT.FLR_DONE b))
  refine ⟨?_, ?_, ?_, ?_, fun d other => ⟨?_, ?_⟩, ?_, ((ended.trans counted).mono (by simp) (by simp)).keepFlour⟩
  · rw [rget_keepFlour, counted.get (by simp [strokeBase, pFLT]; omega), desc]
  · rw [(kept c).1, (same c).1, chain]
  · rw [(kept c).2, (same c).2.1, ended']
  · rw [rget_keepFlour, (raise_only _ _ _).get (by decide), rget_inc_same, ended.get (by simp; omega)]
    rfl
  · rw [(kept d).1, (same d).1, (others d other).1]
  · rw [(kept d).2, (same d).2.1, (others d other).2]
  · show bitSet (rget (keepFlour s _) _) 3 = true
    rw [rget_keepFlour]
    exact raise_pends _ (by decide)

theorem keepFlour_self (s : State) : keepFlour s s = s := by
  cases s
  simp [keepFlour, keepTables, keepTime, keepWear, keepPower]

/-! ### Peeks -/

theorem peekArm_only (s : State) : Only [.filt] [F.FAST_PEEK_SEL.DONE] s (peekArm s) := ((filt_only _ s).trans (rset_only _ _ _)).mono (by simp) (by simp)

theorem peekArm_filt (s : State) : (peekArm s).filt = { s.filt with peek := some (nextStroke s) } := by
  rw [peekArm, rset_filt]

theorem runs_peekArm {s : State} {r : Req} (served : Served r.who (regOff F.FAST_PEEK_SEL.ARM) s) (v : Nat) : Runs (.peekArm r v) s fun t =>
    t.filt = { s.filt with peek := some (nextStroke s) } ∧ rget t F.FAST_PEEK_SEL.DONE = 0
      ∧ Wrote (regOff F.FAST_PEEK_SEL.ARM) [.filt] [F.FAST_PEEK_SEL.DONE] s t := by
  refine runs_plain (ok := true) (v := wordWith F.FAST_PEEK_SEL.ARM 1 v) rfl rfl served (by decide) fun b st => ?_
  have own : b.filt = s.filt := st.2.2 .filt (by simp) (by simp)
  have next : nextStroke b = nextStroke s := by
    have struck := (st.2.2 .time (by simp) (by simp)).1
    have now : strokeNow b = strokeNow s := st.get (by decide) (by decide)
    rw [nextStroke, nextStroke, struck, now]
  have arms : pageEffect r (regOff F.FAST_PEEK_SEL.ARM) (wordWith F.FAST_PEEK_SEL.ARM 1 v % 2 ^ 64) (accessBegins r.who s) b = peekArm b := by
    show whenB (bitSet (wordWith F.FAST_PEEK_SEL.ARM 1 v % 2 ^ 64) 16) peekArm b = _
    have go : bitSet (wordWith F.FAST_PEEK_SEL.ARM 1 v % 2 ^ 64) 16 = true := bitSet_wordWith_one (f := F.FAST_PEEK_SEL.ARM) v rfl rfl
    rw [go, whenB_true]
  rw [arms]
  have filt : (peekArm b).filt = { s.filt with peek := some (nextStroke s) } := by rw [peekArm_filt, own, next]
  refine ⟨(keepAll_filt_desc (by rw [filt])).trans filt, ?_, b, st, st.keepAll (peekArm_only b)⟩
  rw [rget_keepAll _ _ (by decide), peekArm, rget_rset_same]
  rfl

/-- What a peek captures of a sample: its value, flags and range. -/
def peeked (value flags range : Fld) (x : Samp) (s : State) : State := s |> rset value (wordValue x) |> rset flags x.fl |> rset range x.rng

/-- A peek has captured a fine sample and a coarse one. -/
def peekCaptured (fine coarse : Samp) (stroke : Nat) (s : State) : State :=
  { s with filt := { s.filt with peek := none } } |> peeked F.FAST_PEEK_FINE.VALUE F.FAST_PEEK_FINE.FLAGS F.FAST_PEEK_FINE.RANGE fine
    |> peeked F.FAST_PEEK_COARSE.VALUE F.FAST_PEEK_COARSE.FLAGS F.FAST_PEEK_COARSE.RANGE coarse
    |> rset F.FAST_PEEK_STROKE.STROKE stroke |> rset F.FAST_PEEK_SEL.DONE 1 |> raise pFAST 0

theorem peeked_only (value flags range : Fld) (x : Samp) (s : State) : Only [] [value, flags, range] s (peeked value flags range x s) :=
  (((rset_only _ _ s).trans (rset_only _ _ _)).trans (rset_only _ _ _)).mono (by simp) (by simp)

theorem rget_peeked {value flags range : Fld} (apart : value.key ≠ flags.key ∧ value.key ≠ range.key ∧ flags.key ≠ range.key) (x : Samp) (s : State) :
    rget (peeked value flags range x s) value = wordValue x % 2 ^ value.width ∧ rget (peeked value flags range x s) flags = x.fl % 2 ^ flags.width := by
  obtain ⟨vf, vr, fr⟩ := apart
  rw [peeked, rget_rset_other _ _ vr, rget_rset_other _ _ vf, rget_rset_same, rget_rset_other _ _ fr, rget_rset_same]
  exact ⟨rfl, rfl⟩

/-- The fields of the coarse capture and what follows it. -/
theorem peekEnded_only (coarse : Samp) (stroke : Nat) (s : State) : Only [.eva] [F.FAST_PEEK_COARSE.VALUE, F.FAST_PEEK_COARSE.FLAGS, F.FAST_PEEK_COARSE.RANGE,
    F.FAST_PEEK_STROKE.STROKE, F.FAST_PEEK_SEL.DONE, F.EVT_PEND.PEND pFAST] s (s |> peeked F.FAST_PEEK_COARSE.VALUE F.FAST_PEEK_COARSE.FLAGS
      F.FAST_PEEK_COARSE.RANGE coarse |> rset F.FAST_PEEK_STROKE.STROKE stroke |> rset F.FAST_PEEK_SEL.DONE 1 |> raise pFAST 0) :=
  ((((peeked_only _ _ _ _ s).trans (rset_only _ _ _)).trans (rset_only _ _ _)).trans (raise_only _ _ _)).mono (by simp) (by simp)

theorem peekCaptured_only (fine coarse : Samp) (stroke : Nat) (s : State) : Only [.filt, .eva] [F.FAST_PEEK_FINE.VALUE, F.FAST_PEEK_FINE.FLAGS,
    F.FAST_PEEK_FINE.RANGE, F.FAST_PEEK_COARSE.VALUE, F.FAST_PEEK_COARSE.FLAGS, F.FAST_PEEK_COARSE.RANGE, F.FAST_PEEK_STROKE.STROKE, F.FAST_PEEK_SEL.DONE,
    F.EVT_PEND.PEND pFAST] s (peekCaptured fine coarse stroke s) :=
  (((filt_only _ s).trans (peeked_only _ _ _ _ _)).trans (peekEnded_only _ _ _)).mono (by simp) (by simp)

theorem peekCaptured_filt (fine coarse : Samp) (stroke : Nat) (s : State) : (peekCaptured fine coarse stroke s).filt = { s.filt with peek := none } :=
  ((peeked_only F.FAST_PEEK_FINE.VALUE F.FAST_PEEK_FINE.FLAGS F.FAST_PEEK_FINE.RANGE fine { s with filt := { s.filt with peek := none } }).trans
    (peekEnded_only coarse stroke _)).1 .filt (by simp)

theorem runs_peekCapture {s : State} {n : Nat} {w : TagWord} (u : Up s) (armed : s.filt.peek = some n) (due : n ≤ strokeNow s)
    (word : s.filt.words.find? (fun x => x.chan == rget s F.FAST_PEEK_SEL.CHAN && x.tap == 0) = some w) : Runs .peekCapture s fun t =>
      t.filt = { s.filt with peek := none } ∧ rget t F.FAST_PEEK_FINE.VALUE = wordValue w.s % 2 ^ 32
        ∧ rget t F.FAST_PEEK_FINE.FLAGS = w.s.fl % 2 ^ 6 ∧ rget t F.FAST_PEEK_COARSE.VALUE = wordValue (coarseNow s (rget s F.FAST_PEEK_SEL.CHAN)) % 2 ^ 32
        ∧ rget t F.FAST_PEEK_STROKE.STROKE = strokeNow s % 2 ^ 64 ∧ rget t F.FAST_PEEK_SEL.DONE = 1 ∧ Pends pFAST 0 t
        ∧ Only [.filt, .eva] [F.FAST_PEEK_FINE.VALUE, F.FAST_PEEK_FINE.FLAGS, F.FAST_PEEK_FINE.RANGE, F.FAST_PEEK_COARSE.VALUE, F.FAST_PEEK_COARSE.FLAGS,
            F.FAST_PEEK_COARSE.RANGE, F.FAST_PEEK_STROKE.STROKE, F.FAST_PEEK_SEL.DONE, F.EVT_PEND.PEND pFAST] s t := by
  refine runs_act (ok := true) (f := peekCapture) rfl u rfl ?_
  have captures : peekCapture s = peekCaptured w.s (coarseNow s (rget s F.FAST_PEEK_SEL.CHAN)) (strokeNow s) s := by
    unfold peekCapture
    dsimp only
    rw [armed, word]
    exact if_pos due
  rw [captures]
  have filt := peekCaptured_filt w.s (coarseNow s (rget s F.FAST_PEEK_SEL.CHAN)) (strokeNow s) s
  refine ⟨(keepAll_filt_desc (by rw [filt])).trans filt, ?_, ?_, ?_, ?_, ?_, ?_, (peekCaptured_only _ _ _ _).keepAll⟩
  · rw [rget_keepAll _ _ (by decide), peekCaptured, (peekEnded_only _ _ _).get (by decide), (rget_peeked (by decide) _ _).1]
  · rw [rget_keepAll _ _ (by decide), peekCaptured, (peekEnded_only _ _ _).get (by decide), (rget_peeked (by decide) _ _).2]
  · rw [rget_keepAll _ _ (by decide), peekCaptured, (raise_only _ _ _).get (by decide), rget_rset_other _ _ (by decide), rget_rset_other _ _ (by decide),
      (rget_peeked (by decide) _ _).1]
  · rw [rget_keepAll _ _ (by decide), peekCaptured, (raise_only _ _ _).get (by decide), rget_rset_other _ _ (by decide), rget_rset_same]
  · rw [rget_keepAll _ _ (by decide), peekCaptured, (raise_only _ _ _).get (by decide), rget_rset_same]
    rfl
  · exact Pends.keepAll (by decide) (raise_pends _ (by decide))

/-- Settles O29: one lemma for each command. -/
theorem flourishAndPeek : Obligations.FlourishAndPeek := by
  intro s r v c n f w
  refine ⟨fun served open' => ?_, fun u small flour fits due empty => runs_flourishDone u small flour fits due empty, fun u small none' => ?_,
    fun served => runs_peekArm served v, fun u armed due word => runs_peekCapture u armed due word⟩
  case refine_1 =>
    obtain ⟨t, next, filt, shadows, only⟩ := runs_flrRequest served open' v
    exact ⟨t, next, filt, shadows 0 _ (by simp), shadows 16 _ (by simp), shadows 32 _ (by simp), shadows 40 _ (by simp), only⟩
  case refine_2 =>
    refine runs_actIn (keep := keepFlour) (f := flrDone c) (ok := decide (c < 512)) rfl u (by simp [small]) ?_
    have idle : flrDone c s = s := by
      unfold flrDone
      rw [none']
    rw [idle, keepFlour_self]

end Sys2Proof.Machine

/-! SUPPORT. The stages of a slow-scan step (R59 to R63). -/

namespace Sys2Proof.Machine

/-! ### Lanes and sources -/

theorem setLane_only (k : Nat) (f : Lane → Lane) (s : State) : Only [.lanes] [] s (setLane k f s) := lanes_only _ s

theorem lane_congr {s t : State} (same : t.lanes = s.lanes) (k : Nat) : lane t k = lane s k := by rw [lane, lane, same]

theorem lane_of_only {ps : List Part} {rs : List Fld} {s t : State} (o : Only ps rs s t) (own : Part.lanes ∉ ps) (k : Nat) : lane t k = lane s k :=
  lane_congr (o.1 .lanes own) k

theorem lane_keepAll (s t : State) (k : Nat) : lane (keepAll s t) k = lane t k := rfl

/-- The fields of a source that drives channel `c`. -/
def sourceFields (s : State) (c : Nat) : List Fld := if needsExc (wiring s c) then [F.EXC_STATUS.IN_USE (slowSrc s c)] else []

theorem driveSource_only (on' : Bool) (c : Nat) (s : State) : Only [] (sourceFields s c) s (driveSource on' c s) := by
  unfold driveSource sourceFields
  split
  · exact rset_only _ _ s
  · exact (Only.refl s).mono (by simp) (by simp)

theorem rget_driveSource {s : State} {c : Nat} (driven : needsExc (wiring s c) = true) (on' : Bool) :
    rget (driveSource on' c s) (F.EXC_STATUS.IN_USE (slowSrc s c)) = on'.toNat := by
  rw [driveSource, if_pos driven, rget_rset_same]
  cases on' <;> rfl

/-- The wiring of a channel and its source are as configured. -/
theorem wiring_congr {s t : State} {c : Nat} (wired : rget t (F.SLOW_CFG.WIRING c) = rget s (F.SLOW_CFG.WIRING c))
    (source : rget t (F.SLOW_CFG.SRC c) = rget s (F.SLOW_CFG.SRC c)) : wiring t c = wiring s c ∧ slowSrc t c = slowSrc s c := by
  rw [wiring, wiring, slowSrc, slowSrc, wired, source]
  exact ⟨rfl, rfl⟩

theorem laneChan_lt {s : State} {k : Nat} (hk : k < 4) (ch : (lane s k).ch < 16) : laneChan s k < 64 := by
  rw [laneChan]
  omega

theorem slowSrc_lt {s : State} {c : Nat} (hc : c < 64) (source : rget s (F.SLOW_CFG.SRC c) < 4) : slowSrc s c < 16 := by
  rw [slowSrc]
  omega

/-! ### Stages -/

section
variable {s : State} {k : Nat}

theorem slowMuxEnd_eq (stage : (lane s k).stage = .mux) : slowMuxEnd k s =
    if on s (F.SLOW_CFG.CHECK_EN (laneChan s k)) then setLane k (fun l => { l with stage := .check }) s
    else driveSource true (laneChan s k) (setLane k (fun l => { l with stage := .settle }) s) := if_neg (not_not.mpr stage)

theorem runs_muxChecked (u : Up s) (hk : k < 4) (stage : (lane s k).stage = .mux) (checked : on s (F.SLOW_CFG.CHECK_EN (laneChan s k)) = true) :
    Runs (.slowMuxStepEnd k) s fun t => lane t k = { lane s k with stage := .check } ∧ (∀ j, j ≠ k → lane t j = lane s j) ∧ Only [.lanes] [] s t := by
  refine runs_act (f := slowMuxEnd k) (ok := decide (k < 4)) rfl u (by simp [hk]) ?_
  rw [slowMuxEnd_eq stage, if_pos checked]
  exact ⟨by rw [lane_keepAll, lane_setLane_same], fun j other => by rw [lane_keepAll, lane_setLane_other _ _ other], (setLane_only _ _ s).keepAll⟩

theorem runs_muxUnchecked (u : Up s) (hk : k < 4) (ch : (lane s k).ch < 16) (source : rget s (F.SLOW_CFG.SRC (laneChan s k)) < 4)
    (stage : (lane s k).stage = .mux) (unchecked : on s (F.SLOW_CFG.CHECK_EN (laneChan s k)) = false) : Runs (.slowMuxStepEnd k) s fun t =>
      lane t k = { lane s k with stage := .settle } ∧ (∀ j, j ≠ k → lane t j = lane s j)
        ∧ (needsExc (wiring s (laneChan s k)) = true → rget t (F.EXC_STATUS.IN_USE (slowSrc s (laneChan s k))) = 1)
        ∧ Only [.lanes] (sourceFields s (laneChan s k)) s t := by
  have small := slowSrc_lt (laneChan_lt hk ch) source
  refine runs_act (f := slowMuxEnd k) (ok := decide (k < 4)) rfl u (by simp [hk]) ?_
  rw [slowMuxEnd_eq stage, unchecked, if_neg Bool.false_ne_true]
  have drives := driveSource_only true (laneChan s k) (setLane k (fun l => { l with stage := .settle }) s)
  refine ⟨?_, fun j other => ?_, fun driven => ?_, (((setLane_only _ _ s).trans drives).mono (by simp) (List.Subset.refl _)).keepAll⟩
  · rw [lane_keepAll, lane_of_only drives (by simp), lane_setLane_same]
  · rw [lane_keepAll, lane_of_only drives (by simp), lane_setLane_other _ _ other]
  · rw [rget_keepAll _ _ (by simp [strokeBase]; omega)]
    exact rget_driveSource (s := setLane k _ s) driven true

/-- What the open check finds (R63). -/
def openCheck (s : State) (c ohm : Nat) : Nat :=
  if rget s (F.SLOW_CFG.OPEN_KOHM c) * 1000000 < ohm then 1 else if ohm < rget s (F.SLOW_CFG.SHORT_MILLI c) then 2 else 0

theorem openCheck_lt (s : State) (c ohm : Nat) : openCheck s c ohm < 4 := by
  unfold openCheck
  split_ifs <;> decide

theorem runs_checkEnd (u : Up s) (hk : k < 4) (ch : (lane s k).ch < 16) (source : rget s (F.SLOW_CFG.SRC (laneChan s k)) < 4)
    (stage : (lane s k).stage = .check) (ohm : Nat) : Runs (.slowOpenCheckEnd k ohm) s fun t =>
      rget t (F.SLOW_STATUS.CHECK (laneChan s k)) = openCheck s (laneChan s k) ohm
        ∧ lane t k = { lane s k with stage := .settle, chk := openCheck s (laneChan s k) ohm }
        ∧ (needsExc (wiring s (laneChan s k)) = true → rget t (F.EXC_STATUS.IN_USE (slowSrc s (laneChan s k))) = 1)
        ∧ Only [.lanes] (F.SLOW_STATUS.CHECK (laneChan s k) :: sourceFields s (laneChan s k)) s t := by
  have hc := laneChan_lt hk ch
  have small := slowSrc_lt hc source
  refine runs_act (f := slowCheckEnd k ohm) (ok := decide (k < 4)) rfl u (by simp [hk]) ?_
  set c := laneChan s k with chan
  set b := rset (F.SLOW_STATUS.CHECK c) (openCheck s c ohm) (setLane k (fun l => { l with stage := .settle, chk := openCheck s c ohm }) s) with shown
  have judged : slowCheckEnd k ohm s = driveSource true c b := by
    exact if_neg (not_not.mpr stage)
  have before : Only [.lanes] [F.SLOW_STATUS.CHECK c] s b := ((setLane_only _ _ s).trans (rset_only _ _ _)).mono (by simp) (by simp)
  obtain ⟨wired, src⟩ := wiring_congr (c := c) (before.get (by simp [strokeBase]; omega)) (before.get (by simp [strokeBase]; omega))
  have fields : sourceFields b c = sourceFields s c := by rw [sourceFields, sourceFields, wired, src]
  have drives := driveSource_only true c b
  rw [fields] at drives
  rw [judged]
  have apart : (F.SLOW_STATUS.CHECK c).key ∉ (sourceFields s c).map (·.key) := by
    unfold sourceFields
    split
    · simp
      omega
    · simp
  refine ⟨?_, ?_, fun driven => ?_, ((before.trans drives).mono (by simp) (by simp)).keepAll⟩
  · rw [rget_keepAll _ _ (by simp [strokeBase]; omega), drives.get apart, shown, rget_rset_same]
    exact Nat.mod_eq_of_lt (openCheck_lt _ _ _)
  · rw [lane_keepAll, lane_of_only drives (by simp), shown, lane_of_only (rset_only _ _ _) (by simp), lane_setLane_same]
  · rw [← src, rget_keepAll _ _ (by simp [strokeBase]; omega), rget_driveSource (wired ▸ driven)]
    rfl

theorem runs_settleEnd (u : Up s) (hk : k < 4) (stage : (lane s k).stage = .settle) : Runs (.slowSettleEnd k) s fun t =>
    lane t k = { lane s k with stage := .window1, ints := [], prevs := [], convs := 0, sum := 0, sat := false, w1Start := strokeNow s }
      ∧ Only [.lanes] [] s t := by
  refine runs_act (f := slowSettleEnd k) (ok := decide (k < 4)) rfl u (by simp [hk]) ?_
  have begins : slowSettleEnd k s = setLane k (fun l => { l with w1Start := strokeNow s }) (beginWindow .window1 k s) := if_neg (not_not.mpr stage)
  rw [begins]
  refine ⟨?_, ((setLane_only _ _ s).seq (setLane_only _ _ _)).keepAll⟩
  rw [lane_keepAll, lane_setLane_same, beginWindow, lane_setLane_same]

/-- The first window's value stands in the lane. -/
def window1Taken (k : Nat) (s : State) : State := setLane k (fun l => { l with w1 := windowValue s k, w1End := strokeNow s }) s

theorem slowWindow1End_eq (stage : (lane s k).stage = .window1) (full : windowFull s k = true) : slowWindow1End k s =
    if twoWindows (wiring s (laneChan s k)) then setLane k (fun l => { l with stage := .sense }) (window1Taken k s)
    else endStep k { v := 0, fl := 0, rng := 0 } (window1Taken k s) := by
  unfold slowWindow1End
  dsimp only
  rw [if_neg (by simp [stage, full])]
  rfl

theorem runs_window1Sense (u : Up s) (hk : k < 4) (stage : (lane s k).stage = .window1) (full : windowFull s k = true)
    (second : twoWindows (wiring s (laneChan s k)) = true) : Runs (.slowWindow1End k) s fun t =>
      lane t k = { lane s k with stage := .sense, w1 := windowValue s k, w1End := strokeNow s } ∧ Only [.lanes] [] s t := by
  refine runs_act (f := slowWindow1End k) (ok := decide (k < 4)) rfl u (by simp [hk]) ?_
  rw [slowWindow1End_eq stage full, if_pos second]
  refine ⟨?_, ((setLane_only _ _ s).seq (setLane_only _ _ _)).keepAll⟩
  rw [lane_keepAll, lane_setLane_same, window1Taken, lane_setLane_same]

theorem runs_senseEnd (u : Up s) (hk : k < 4) (stage : (lane s k).stage = .sense) : Runs (.slowSenseSwitchEnd k) s fun t =>
    lane t k = { lane s k with stage := .window2, ints := [], prevs := [], convs := 0, sum := 0, sat := false } ∧ Only [.lanes] [] s t := by
  refine runs_act (f := slowSenseEnd k) (ok := decide (k < 4)) rfl u (by simp [hk]) ?_
  have begins : slowSenseEnd k s = beginWindow .window2 k s := if_neg (not_not.mpr stage)
  rw [begins]
  refine ⟨?_, (setLane_only _ _ s).keepAll⟩
  rw [lane_keepAll, beginWindow, lane_setLane_same]

end

/-- Settles O22: one lemma for each stage. -/
theorem slowLaneStages : Obligations.SlowLaneStages := by
  intro s k ohm u hk ch c source
  refine ⟨fun stage checked => runs_muxChecked u hk stage checked, fun stage unchecked => runs_muxUnchecked u hk ch source stage unchecked, fun stage => ?_,
    fun stage => runs_settleEnd u hk stage, fun stage full second => runs_window1Sense u hk stage full second, fun stage => runs_senseEnd u hk stage⟩
  obtain ⟨t, next, check, own, drives, only⟩ := runs_checkEnd u hk ch source stage ohm
  exact ⟨t, next, check, by rw [own, check], drives, only⟩

end Sys2Proof.Machine

/-! SUPPORT. The result of a slow-scan step, a source's loss of compliance, and the calibration steps (R59 to R63, R104). -/

namespace Sys2Proof.Machine

/-! ### The lane goes on -/

/-- A lane's next step changes the lane alone. -/
theorem startStep_only (k : Nat) (s : State) : Only [.lanes] [] s (startStep k s) := by
  unfold startStep
  dsimp only
  split
  · exact setLane_only _ _ s
  · split
    · exact setLane_only _ _ s
    · exact setLane_only _ _ s

/-- With no calibration step due the lane goes to a channel's mux step, or idles. -/
theorem startStep_scans {k : Nat} {s : State} (notDue : (lane s k).calDue = false) :
    (lane (startStep k s) k).calLeft = (lane s k).calLeft ∧ ((lane (startStep k s) k).stage = .mux ∨ (lane (startStep k s) k).stage = .idle) := by
  unfold startStep
  dsimp only
  rw [notDue, if_neg Bool.false_ne_true]
  split
  · rw [lane_setLane_same]
    exact ⟨rfl, .inl rfl⟩
  · rw [lane_setLane_same]
    exact ⟨rfl, .inr rfl⟩

theorem advanceLane_only (k : Nat) (s : State) : Only [.lanes] [] s (advanceLane k s) := (setLane_only _ _ s).seq (startStep_only _ _)

theorem trimBoard_only (c : Nat) (v : Int) (s : State) : Only [.trim] [F.TRIM_STATUS.PENDING] s (trimBoard c v s) := by
  have board (s : State) : Only [.trim] [F.TRIM_STATUS.PENDING] s
      (if trimBusy s && s.trim.board.isNone then { s with trim := { s.trim with board := some v } } else s) :=
    Only.ite (fun _ => (trim_only _ s).mono (by simp) (by simp)) fun _ => (Only.refl s).mono (by simp) (by simp)
  unfold trimBoard
  split
  · dsimp only
    split
    · exact board s
    · exact (board s).seq (Only.ite (fun _ => trimTrigger_only _ _) fun _ => (Only.refl _).mono (by simp) (by simp))
  · exact (Only.refl s).mono (by simp) (by simp)

/-! ### The word of a step -/

/-- The fields of a slow channel's result. -/
def resultFields (c : Nat) : List Fld := [F.SLOW_STATUS.VALUE c, F.SLOW_STATUS.FLAGS c, F.SLOW_STATUS.CHECK c, F.SLOW_STATUS.COUNT c]

/-- The fields of a result as they are shown. -/
def resultShown (c : Nat) (x : Samp) (check : Nat) (s : State) : State :=
  s |> rset (F.SLOW_STATUS.VALUE c) (ofInt 32 x.v) |> rset (F.SLOW_STATUS.FLAGS c) x.fl |> rset (F.SLOW_STATUS.CHECK c) check
    |> rset (F.SLOW_STATUS.COUNT c) (rget s (F.SLOW_STATUS.COUNT c) + 1)

/-- The word of a result, with its stamp at the stroke `centre`. -/
def resultWord (c : Nat) (x : Samp) (centre : Nat) (s : State) : TagWord :=
  ⟨512 + c, 0, rget s (F.SLOW_STATUS.COUNT c), x, strikeTime s - (strokeNow s - centre) * 64000000 * mLive s⟩

theorem slowResult_eq (c : Nat) (x : Samp) (check centre : Nat) (s : State) : slowResult c x check centre s =
    whenB (bitSet x.fl flOPEN) (raise pSLOW 0) (pushWord (resultWord c x centre s) (resultShown c x check s)) := rfl

theorem resultShown_only (c : Nat) (x : Samp) (check : Nat) (s : State) : Only [] (resultFields c) s (resultShown c x check s) :=
  ((((rset_only _ _ s).trans (rset_only _ _ _)).trans (rset_only _ _ _)).trans (rset_only _ _ _)).mono (by simp) (by simp [resultFields])

theorem pushWord_only (w : TagWord) (s : State) : Only [.filt] [] s (pushWord w s) := filt_only _ s

theorem resultShown_shows (c : Nat) (x : Samp) {check : Nat} (small : check < 4) (s : State) :
    rget (resultShown c x check s) (F.SLOW_STATUS.VALUE c) = ofInt 32 x.v ∧ rget (resultShown c x check s) (F.SLOW_STATUS.FLAGS c) = x.fl % 2 ^ 6
      ∧ rget (resultShown c x check s) (F.SLOW_STATUS.CHECK c) = check
      ∧ rget (resultShown c x check s) (F.SLOW_STATUS.COUNT c) = (rget s (F.SLOW_STATUS.COUNT c) + 1) % 256 := by
  have fits : ofInt 32 x.v < 2 ^ 32 := by
    unfold ofInt
    omega
  unfold resultShown
  refine ⟨?_, ?_, ?_, ?_⟩
  · rw [rget_rset_other _ _ (by simp), rget_rset_other _ _ (by simp), rget_rset_other _ _ (by simp), rget_rset_same]
    exact Nat.mod_eq_of_lt fits
  · rw [rget_rset_other _ _ (by simp), rget_rset_other _ _ (by simp), rget_rset_same]
  · rw [rget_rset_other _ _ (by simp), rget_rset_same]
    exact Nat.mod_eq_of_lt small
  · rw [rget_rset_same]
    rfl

/-- What follows the fields of a result: its word, and the source of an open input. -/
theorem resultSent_only (w : TagWord) (open' : Bool) (s : State) : Only [.filt, .eva] [F.EVT_PEND.PEND pSLOW] s (whenB open' (raise pSLOW 0) (pushWord w s)) :=
  ((pushWord_only w s).trans (Only.whenB (raise_only _ _ _))).mono (by simp) (by simp)

theorem slowResult_words (c : Nat) (x : Samp) (check centre : Nat) (s : State) :
    (slowResult c x check centre s).filt.words = s.filt.words ++ [resultWord c x centre s] := by
  have sent : (slowResult c x check centre s).filt = (pushWord (resultWord c x centre s) (resultShown c x check s)).filt := by
    rw [slowResult_eq]
    exact (Only.whenB (raise_only _ _ _)).1 .filt (by simp)
  have shown : (resultShown c x check s).filt = s.filt := (resultShown_only c x check s).1 .filt (by simp)
  rw [sent, ← shown]
  rfl

/-- LEAD_MILLI takes a wiring's lead resistance. -/
def leadShown (c : Nat) (lead : Option Nat) (s : State) : State :=
  match lead with
  | some m => rset (F.SLOW_STATUS.LEAD_MILLI c) m s
  | none => s

theorem leadShown_only (c : Nat) (lead : Option Nat) (s : State) : Only [] [F.SLOW_STATUS.LEAD_MILLI c] s (leadShown c lead s) := by
  cases lead
  · exact (Only.refl s).mono (by simp) (by simp)
  · exact rset_only _ _ s

/-- The word of a step stands, with its source off. -/
def stepShown (c : Nat) (x : Samp) (check centre : Nat) (lead : Option Nat) (s : State) : State :=
  s |> driveSource false c |> slowResult c x check centre |> leadShown c lead

/-- A step has ended: its word, what the board's trim makes of it, and the lane's next step. -/
def stepLeft (k : Nat) (x : Samp) (check centre : Nat) (lead : Option Nat) (s : State) : State :=
  stepShown (laneChan s k) x check centre lead s
    |> trimBoard (laneChan s k) (rgetI (stepShown (laneChan s k) x check centre lead s) (F.SLOW_STATUS.VALUE (laneChan s k))) |> advanceLane k

/-- What follows a step's word. -/
theorem stepRest_only (k c : Nat) (v : Int) (s : State) : Only [.lanes, .trim] [F.TRIM_STATUS.PENDING] s (s |> trimBoard c v |> advanceLane k) :=
  ((trimBoard_only c v s).trans (advanceLane_only k _)).mono (by simp) (by simp)

section
variable {s : State} {k : Nat}

theorem rget_driveSource_other {c : Nat} (on' : Bool) {f : Fld} (apart : f.key ≠ (F.EXC_STATUS.IN_USE (slowSrc s c)).key) :
    rget (driveSource on' c s) f = rget s f := by
  refine (driveSource_only on' c s).get ?_
  unfold sourceFields
  split
  · simpa using apart
  · simp

/-- The stamp and the index of a word are those before the source was switched off. -/
theorem resultWord_driveSource (on' : Bool) {c : Nat} (source : slowSrc s c < 16) (x : Samp) (centre : Nat) :
    resultWord c x centre (driveSource on' c s) = resultWord c x centre s := by
  have drives := driveSource_only on' c s
  have tsu : (driveSource on' c s).tsu = s.tsu := drives.1 .tsu (by simp)
  have now : strokeNow (driveSource on' c s) = strokeNow s := rget_driveSource_other on' (by simp; omega)
  have m : mLive (driveSource on' c s) = mLive s := congrArg (· + 1) (rget_driveSource_other on' (f := F.SYS_STROKE_CFG.M_MINUS1) (by simp [strokeBase]; omega))
  have count : rget (driveSource on' c s) (F.SLOW_STATUS.COUNT c) = rget s (F.SLOW_STATUS.COUNT c) := rget_driveSource_other on' (by simp; omega)
  rw [resultWord, resultWord, strikeTime, strikeTime, tsu, now, m, count]

theorem slowResult_only (c : Nat) (x : Samp) (check centre : Nat) (s : State) :
    Only [.filt, .eva] (F.EVT_PEND.PEND pSLOW :: resultFields c) s (slowResult c x check centre s) := by
  rw [slowResult_eq]
  exact ((resultShown_only c x check s).trans (resultSent_only _ _ _)).mono (by simp) (by simp)

/-- The fields that the end of a step may write. -/
def stepFields (s : State) (c : Nat) : List Fld := [F.SLOW_STATUS.VALUE c, F.SLOW_STATUS.FLAGS c, F.SLOW_STATUS.CHECK c, F.SLOW_STATUS.COUNT c,
  F.SLOW_STATUS.LEAD_MILLI c, F.EXC_STATUS.IN_USE (slowSrc s c), F.EVT_PEND.PEND pSLOW, F.TRIM_STATUS.PENDING]

theorem sourceFields_sub (s : State) (c : Nat) : sourceFields s c ⊆ [F.EXC_STATUS.IN_USE (slowSrc s c)] := by
  unfold sourceFields
  split <;> simp

theorem stepShown_only (c : Nat) (x : Samp) (check centre : Nat) (lead : Option Nat) (s : State) :
    Only [.filt, .eva] (stepFields s c) s (stepShown c x check centre lead s) := by
  have drives := (driveSource_only false c s).mono (ps' := []) (rs' := [F.EXC_STATUS.IN_USE (slowSrc s c)]) (by simp) (sourceFields_sub s c)
  exact ((drives.trans (slowResult_only c x check centre _)).trans (leadShown_only c lead _)).mono (by simp) (by simp [stepFields, resultFields])

theorem stepLeft_only (k : Nat) (x : Samp) (check centre : Nat) (lead : Option Nat) (s : State) :
    Only [.lanes, .filt, .trim, .eva] (stepFields s (laneChan s k)) s (stepLeft k x check centre lead s) :=
  ((stepShown_only _ x check centre lead s).trans (stepRest_only k _ _ _)).mono (by simp) (by simp [stepFields])

/-- What stands after a step's word, but for LEAD_MILLI. -/
theorem stepLate_only (k c : Nat) (w : TagWord) (open' : Bool) (lead : Option Nat) (v : Int) (s : State) :
    Only [.lanes, .filt, .trim, .eva] [F.EVT_PEND.PEND pSLOW, F.SLOW_STATUS.LEAD_MILLI c, F.TRIM_STATUS.PENDING] s
      (s |> pushWord w |> whenB open' (raise pSLOW 0) |> leadShown c lead |> trimBoard c v |> advanceLane k) :=
  (((resultSent_only w open' s).trans (leadShown_only c lead _)).trans (stepRest_only k c v _)).mono (by simp) (by simp)

/-- The end of a step leaves its channel's result. -/
theorem stepLeft_ends (hk : k < 4) (ch : (lane s k).ch < 16) (source : rget s (F.SLOW_CFG.SRC (laneChan s k)) < 4) (x : Samp) {check : Nat}
    (small : check < 4) (centre : Nat) (lead : Option Nat) : SlowStepEnds k check x centre s (stepLeft k x check centre lead s) := by
  have hc := laneChan_lt hk ch
  have src := slowSrc_lt hc source
  set c := laneChan s k with chan
  have count : rget (driveSource false c s) (F.SLOW_STATUS.COUNT c) = rget s (F.SLOW_STATUS.COUNT c) := rget_driveSource_other _ (by simp; omega)
  obtain ⟨value, flags, checked, counted⟩ := resultShown_shows c x small (driveSource false c s)
  rw [count] at counted
  have late : Only [.lanes, .filt, .trim, .eva] [F.EVT_PEND.PEND pSLOW, F.SLOW_STATUS.LEAD_MILLI c, F.TRIM_STATUS.PENDING]
      (resultShown c x check (driveSource false c s)) (stepLeft k x check centre lead s) :=
    stepLate_only k c (resultWord c x centre (driveSource false c s)) (bitSet x.fl flOPEN) lead
      (rgetI (stepShown c x check centre lead s) (F.SLOW_STATUS.VALUE c)) (resultShown c x check (driveSource false c s))
  have rest : Only [.lanes, .trim] [F.SLOW_STATUS.LEAD_MILLI c, F.TRIM_STATUS.PENDING] (slowResult c x check centre (driveSource false c s))
      (stepLeft k x check centre lead s) :=
    ((leadShown_only c lead _).trans (stepRest_only k c _ _)).mono (by simp) (by simp)
  have whole := stepLeft_only k x check centre lead s
  refine ⟨?_, (late.get (by simp; omega)).trans value, (late.get (by simp; omega)).trans flags, (late.get (by simp; omega)).trans checked,
    (late.get (by simp; omega)).trans counted, fun driven => ?_, whole⟩
  · have filt : (stepLeft k x check centre lead s).filt = (slowResult c x check centre (driveSource false c s)).filt := rest.1 .filt (by simp)
    have before : (driveSource false c s).filt = s.filt := (driveSource_only false c s).1 .filt (by simp)
    rw [filt, slowResult_words, before, resultWord_driveSource false src]
    rfl
  · rw [late.get (by simp [pSLOW]; omega), (resultShown_only c x check _).get (by simp [resultFields]; omega), rget_driveSource driven]
    rfl

/-- An OPEN word raises its source. -/
theorem stepLeft_pends {x : Samp} (open' : bitSet x.fl flOPEN = true) (check centre : Nat) (lead : Option Nat) :
    Pends pSLOW 0 (stepLeft k x check centre lead s) := by
  have raised : Pends pSLOW 0 (slowResult (laneChan s k) x check centre (driveSource false (laneChan s k) s)) := by
    rw [slowResult_eq, open', whenB_true]
    exact raise_pends _ (by decide)
  exact raised.only ((leadShown_only _ lead _).trans (stepRest_only k _ _ _)) (by simp; omega)

/-- LEAD_MILLI as a step leaves it. -/
theorem rget_stepLeft_lead (x : Samp) (check centre m : Nat) :
    rget (stepLeft k x check centre (some m) s) (F.SLOW_STATUS.LEAD_MILLI (laneChan s k)) = m % 2 ^ 16 := by
  have rest := stepRest_only k (laneChan s k) (rgetI (stepShown (laneChan s k) x check centre (some m) s) (F.SLOW_STATUS.VALUE (laneChan s k)))
    (stepShown (laneChan s k) x check centre (some m) s)
  rw [stepLeft, rest.get (by simp; omega), stepShown, leadShown, rget_rset_same]

/-- The result of a step holds of the state before its first window's value was taken. -/
theorem SlowStepEnds.of_setLane {f : Lane → Lane} (same : (f (lane s k)).ch = (lane s k).ch) {check centre : Nat} {x : Samp} {t : State}
    (h : SlowStepEnds k check x centre (setLane k f s) t) : SlowStepEnds k check x centre s t := by
  have chan : laneChan (setLane k f s) k = laneChan s k := by rw [laneChan, lane_setLane_same, same, laneChan]
  unfold SlowStepEnds at h
  rw [chan] at h
  obtain ⟨words, value, flags, checked, counted, off, only⟩ := h
  exact ⟨words, value, flags, checked, counted, off, ((setLane_only k f s).trans only).mono (by simp) (List.Subset.refl _)⟩

theorem SlowStepEnds.keepAll (hk : k < 4) (ch : (lane s k).ch < 16) (source : rget s (F.SLOW_CFG.SRC (laneChan s k)) < 4) {check centre : Nat} {x : Samp}
    {t : State} (h : SlowStepEnds k check x centre s t) : SlowStepEnds k check x centre s (Machine.keepAll s t) := by
  have hc := laneChan_lt hk ch
  have src := slowSrc_lt hc source
  obtain ⟨words, value, flags, checked, counted, off, only⟩ := h
  have lt (f : Fld) (mem : f ∈ F.EXC_STATUS.IN_USE (slowSrc s (laneChan s k)) :: resultFields (laneChan s k)) : f.key < strokeBase := by
    simp only [resultFields, List.mem_cons, List.not_mem_nil, or_false] at mem
    rcases mem with rfl | rfl | rfl | rfl | rfl <;> simp [strokeBase] <;> omega
  refine ⟨words, ?_, ?_, ?_, ?_, fun driven => ?_, only.keepAll⟩
  · rw [rget_keepAll _ _ (lt _ (by simp [resultFields])), value]
  · rw [rget_keepAll _ _ (lt _ (by simp [resultFields])), flags]
  · rw [rget_keepAll _ _ (lt _ (by simp [resultFields])), checked]
  · rw [rget_keepAll _ _ (lt _ (by simp [resultFields])), counted]
  · rw [rget_keepAll _ _ (lt _ (by simp)), off driven]

end

end Sys2Proof.Machine

/-! SUPPORT. The three ends of a slow-scan step, and the obligation on its results (R59 to R63, R104). -/

namespace Sys2Proof.Machine

/-! ### The three ends of a step -/

section
variable {s : State} {k : Nat}

/-- The channel of lane `k` needs no source, or its source drives a current. -/
def Driven (s : State) (c : Nat) : Prop := needsExc (wiring s c) = true → rget s (F.EXC_CFG.ICODE (slowSrc s c)) ≠ 0

theorem Driven.noSkip {c : Nat} (driven : Driven s c) : (needsExc (wiring s c) && rget s (F.EXC_CFG.ICODE (slowSrc s c)) == 0) = false := by
  cases needs : needsExc (wiring s c)
  · rfl
  · simpa using driven needs

/-- The stroke that a step's stamp stands for. -/
def stepCentre (s : State) (k : Nat) : Nat := ((lane s k).w1Start + (lane s k).w1End) / 2

/-- A step whose source drives no current ends with a SKIP word. -/
theorem endStep_skip (w2 : Samp) (needs : needsExc (wiring s (laneChan s k)) = true) (off : rget s (F.EXC_CFG.ICODE (slowSrc s (laneChan s k))) = 0) :
    endStep k w2 s = stepLeft k { v := 0, fl := 1 <<< flSKIP, rng := 0 } (lane s k).chk (stepCentre s k) none s := by
  have skip : (nServ s == 0 || needsExc (wiring s (laneChan s k)) && rget s (F.EXC_CFG.ICODE (slowSrc s (laneChan s k))) == 0) = true := by simp [needs, off]
  unfold endStep
  dsimp only
  rw [if_pos skip]
  rfl

/-- A step whose check failed, or whose source left compliance, ends with an OPEN word. -/
theorem endStep_open (w2 : Samp) (served : nServ s ≠ 0) (driven : Driven s (laneChan s k)) (bad : ((lane s k).chk != 0 || (lane s k).compl) = true) :
    endStep k w2 s = stepLeft k { v := 0, fl := 1 <<< flOPEN, rng := 0 } (if (lane s k).chk != 0 then (lane s k).chk else 3) (stepCentre s k) none s := by
  have noSkip : ¬ (nServ s == 0 || needsExc (wiring s (laneChan s k)) && rget s (F.EXC_CFG.ICODE (slowSrc s (laneChan s k))) == 0) = true := by
    rw [driven.noSkip]
    simpa using served
  unfold endStep
  dsimp only
  rw [if_neg noSkip, if_pos bad]
  rfl

/-- LEAD_MILLI where the wiring measures its leads. -/
def stepLead (s : State) (c m : Nat) : Option Nat := if wiring s c = 2 then some m else none

/-- A good step ends with its value, where no division by zero leaves it open. -/
theorem endStep_value {w2 : Samp} (served : nServ s ≠ 0) (driven : Driven s (laneChan s k)) (checked : (lane s k).chk = 0) (within : (lane s k).compl = false)
    (sure : (slowValue s (laneChan s k) (lane s k).w1 w2).2.2 = false) : endStep k w2 s =
      stepLeft k (slowValue s (laneChan s k) (lane s k).w1 w2).1 0 (stepCentre s k)
        (stepLead s (laneChan s k) (slowValue s (laneChan s k) (lane s k).w1 w2).2.1) s := by
  have noSkip : ¬ (nServ s == 0 || needsExc (wiring s (laneChan s k)) && rget s (F.EXC_CFG.ICODE (slowSrc s (laneChan s k))) == 0) = true := by
    rw [driven.noSkip]
    simpa using served
  have good : ¬ ((lane s k).chk != 0 || (lane s k).compl) = true := by simp [checked, within]
  have lead (m : Nat) (b : State) : whenB (wiring s (laneChan s k) == 2) (rset (F.SLOW_STATUS.LEAD_MILLI (laneChan s k)) m) b =
      leadShown (laneChan s k) (stepLead s (laneChan s k) m) b := by
    unfold stepLead
    split
    case isTrue two =>
      rw [two]
      rfl
    case isFalse other =>
      rw [beq_false_of_ne other]
      rfl
  unfold endStep
  dsimp only
  rw [if_neg noSkip, if_neg good, sure, if_neg Bool.false_ne_true, whenB_false, lead]
  rfl

theorem excCurrent_pos {c : Nat} (driven : Driven s c) (needs : needsExc (wiring s c) = true) : excCurrent s c ≠ 0 := by
  have code := driven needs
  unfold excCurrent
  dsimp only
  split
  · omega
  · assumption

/-- The value of a resistance or of a voltage leaves nothing open where its source drives a current. -/
theorem slowValue_sure {c : Nat} (driven : Driven s c) (wired : wiring s c = 1 ∨ wiring s c = 2 ∨ wiring s c = 3 ∨ wiring s c = 5) (w1 w2 : Samp) :
    (slowValue s c w1 w2).2.2 = false := by
  have current (needs : needsExc (wiring s c) = true) : (excCurrent s c == 0) = false := by simpa using excCurrent_pos driven needs
  unfold slowValue
  dsimp only
  rcases wired with e | e | e | e
  · rw [e] at current ⊢
    exact current rfl
  · rw [e] at current ⊢
    exact current rfl
  · rw [e] at current ⊢
    exact current rfl
  · rw [e]
    rfl

/-! ### Window 2 ends -/

theorem slowWindow2End_eq (stage : (lane s k).stage = .window2) (full : windowFull s k = true) : slowWindow2End k s = endStep k (windowValue s k) s :=
  if_neg (by simp [stage, full])

/-- A step that ends in window 2 completes with its result. -/
theorem runs_window2 (u : Up s) (hk : k < 4) (ch : (lane s k).ch < 16) (source : rget s (F.SLOW_CFG.SRC (laneChan s k)) < 4)
    (stage : (lane s k).stage = .window2) (full : windowFull s k = true) {x : Samp} {check centre : Nat} {lead : Option Nat} (small : check < 4)
    (ends : endStep k (windowValue s k) s = stepLeft k x check centre lead s) : Runs (.slowWindow2End k) s fun t =>
      SlowStepEnds k check x centre s t ∧ (bitSet x.fl flOPEN = true → Pends pSLOW 0 t)
        ∧ ∀ m, lead = some m → rget t (F.SLOW_STATUS.LEAD_MILLI (laneChan s k)) = m % 2 ^ 16 := by
  have hc := laneChan_lt hk ch
  refine runs_act (f := slowWindow2End k) (ok := decide (k < 4)) rfl u (by simp [hk]) ?_
  rw [slowWindow2End_eq stage full, ends]
  refine ⟨(stepLeft_ends hk ch source x small centre lead).keepAll hk ch source, fun open' => Pends.keepAll (by decide) (stepLeft_pends open' check centre lead),
    ?_⟩
  rintro m rfl
  rw [rget_keepAll _ _ (by simp [strokeBase]; omega), rget_stepLeft_lead]

/-! ### Window 1 ends -/

theorem laneChan_window1Taken (s : State) (k : Nat) : laneChan (window1Taken k s) k = laneChan s k := by
  rw [laneChan, window1Taken, lane_setLane_same, laneChan]

theorem lane_window1Taken (s : State) (k : Nat) : lane (window1Taken k s) k = { lane s k with w1 := windowValue s k, w1End := strokeNow s } := by
  rw [window1Taken, lane_setLane_same]

/-- What the end of a step reads beside the lane is as before. -/
theorem window1Taken_reads (s : State) (k c : Nat) : nServ (window1Taken k s) = nServ s ∧ wiring (window1Taken k s) c = wiring s c
    ∧ (Driven s c → Driven (window1Taken k s) c) ∧ ∀ a b, slowValue (window1Taken k s) c a b = slowValue s c a b :=
  ⟨rfl, rfl, id, fun _ _ => rfl⟩

theorem runs_window1Value (u : Up s) (hk : k < 4) (ch : (lane s k).ch < 16) (source : rget s (F.SLOW_CFG.SRC (laneChan s k)) < 4)
    (stage : (lane s k).stage = .window1) (full : windowFull s k = true)
    (wired : wiring s (laneChan s k) = 1 ∨ wiring s (laneChan s k) = 3 ∨ wiring s (laneChan s k) = 5) (served : nServ s ≠ 0)
    (driven : Driven s (laneChan s k)) (checked : (lane s k).chk = 0) (within : (lane s k).compl = false) : Runs (.slowWindow1End k) s
      (SlowStepEnds k 0 (slowValue s (laneChan s k) (windowValue s k) { v := 0, fl := 0, rng := 0 }).1 (((lane s k).w1Start + strokeNow s) / 2) s) := by
  obtain ⟨serves, wires, drives, values⟩ := window1Taken_reads s k (laneChan s k)
  have own := lane_window1Taken s k
  have chan := laneChan_window1Taken s k
  have one : twoWindows (wiring s (laneChan s k)) = false := by rcases wired with e | e | e <;> rw [e] <;> rfl
  have sure := slowValue_sure driven (by omega) (windowValue s k) { v := 0, fl := 0, rng := 0 }
  have ends : slowWindow1End k s = stepLeft k (slowValue s (laneChan s k) (windowValue s k) { v := 0, fl := 0, rng := 0 }).1 0
      (((lane s k).w1Start + strokeNow s) / 2) none (window1Taken k s) := by
    have noLead (m : Nat) : stepLead s (laneChan s k) m = none := if_neg (by omega)
    rw [slowWindow1End_eq stage full, one, if_neg Bool.false_ne_true, endStep_value (serves ▸ served) (by rw [chan]; exact drives driven) (by rw [own]; exact checked)
      (by rw [own]; exact within) (by rw [chan, own, values]; exact sure), chan, own, values, stepCentre, own]
    congr 1
    exact noLead _
  refine runs_act (f := slowWindow1End k) (ok := decide (k < 4)) rfl u (by simp [hk]) ?_
  rw [ends]
  have ch' : (lane (window1Taken k s) k).ch < 16 := by rw [own]; exact ch
  have source' : rget (window1Taken k s) (F.SLOW_CFG.SRC (laneChan (window1Taken k s) k)) < 4 := by rw [chan]; exact source
  have result := stepLeft_ends hk ch' source' (slowValue s (laneChan s k) (windowValue s k) { v := 0, fl := 0, rng := 0 }).1 (check := 0) (by decide)
    (((lane s k).w1Start + strokeNow s) / 2) none
  exact (SlowStepEnds.of_setLane rfl result).keepAll hk ch source

/-! ### Compliance -/

/-- A source's loss of compliance is shown. -/
def complShown (src : Nat) (s : State) : State := s |> rset (F.EXC_STATUS.COMPL src) 1 |> raise pEXC 0

theorem complShown_only (src : Nat) (s : State) : Only [.eva] [F.EXC_STATUS.COMPL src, F.EVT_PEND.PEND pEXC] s (complShown src s) :=
  ((rset_only _ _ s).trans (raise_only _ _ _)).mono (by simp) (by simp)

/-- Whether a loss of compliance falls into a window of a step that the source drives. -/
def complCounts (src : Nat) (s : State) : Bool :=
  ((lane s (src / 4)).stage == .window1 || (lane s (src / 4)).stage == .window2) && needsExc (wiring s (laneChan s (src / 4)))
    && slowSrc s (laneChan s (src / 4)) == src && !(lane s (src / 4)).compl

theorem complianceLoss_eq (src : Nat) (s : State) : complianceLoss src s = whenB (complCounts src s)
    (fun s => s |> setLane (src / 4) (fun l => { l with compl := true }) |> inc (F.EXC_STATUS.COMPL_CNT src)) (complShown src s) := rfl

theorem complianceLoss_drives {src : Nat} (lane' : src / 4 = k) (window : (lane s k).stage = .window1 ∨ (lane s k).stage = .window2)
    (needs : needsExc (wiring s (laneChan s k)) = true) (own : slowSrc s (laneChan s k) = src) (within : (lane s k).compl = false) :
    complianceLoss src s = inc (F.EXC_STATUS.COMPL_CNT src) (setLane k (fun l => { l with compl := true }) (complShown src s)) := by
  subst lane'
  have counts : complCounts src s = true := by
    unfold complCounts
    rw [needs, own, within]
    rcases window with e | e <;> rw [e] <;> simp
  rw [complianceLoss_eq, counts]
  rfl

theorem runs_complianceLoss {src : Nat} (u : Up s) (small : src < 16) (lane' : src / 4 = k)
    (window : (lane s k).stage = .window1 ∨ (lane s k).stage = .window2) (needs : needsExc (wiring s (laneChan s k)) = true)
    (own : slowSrc s (laneChan s k) = src) (within : (lane s k).compl = false) : Runs (.excComplianceLoss src) s fun t =>
      lane t k = { lane s k with compl := true } ∧ rget t (F.EXC_STATUS.COMPL src) = 1
        ∧ rget t (F.EXC_STATUS.COMPL_CNT src) = min 65535 (rget s (F.EXC_STATUS.COMPL_CNT src) + 1) ∧ Pends pEXC 0 t
        ∧ Only [.lanes, .eva] [F.EXC_STATUS.COMPL src, F.EXC_STATUS.COMPL_CNT src, F.EVT_PEND.PEND pEXC] s t := by
  refine runs_act (f := complianceLoss src) (ok := decide (src < 16)) rfl u (by simp [small]) ?_
  rw [complianceLoss_drives lane' window needs own within]
  have shown := complShown_only src s
  have rest := (setLane_only k (fun l => { l with compl := true }) (complShown src s)).trans (inc_only (F.EXC_STATUS.COMPL_CNT src) _)
  refine ⟨?_, ?_, ?_, Pends.keepAll (by decide) ((raise_pends _ (by decide)).only rest (by simp [pEXC]; omega)),
    ((shown.trans rest).mono (by simp) (by simp)).keepAll⟩
  · rw [lane_keepAll, lane_of_only (inc_only _ _) (by simp), lane_setLane_same, lane_of_only shown (by simp)]
  · rw [rget_keepAll _ _ (by simp [strokeBase]; omega), rest.get (by simp), complShown, (raise_only _ _ _).get (by simp [pEXC]; omega), rget_rset_same]
    rfl
  · rw [rget_keepAll _ _ (by simp [strokeBase]; omega), rget_inc_same, rget_setLane, shown.get (by simp [pEXC]; omega)]
    rfl

/-! ### Calibration steps (R104) -/

theorem runs_calWindow (u : Up s) (hk : k < 4) (stage : (lane s k).stage = .cal) (more : 1 < (lane s k).calLeft) : Runs (.laneCalWindowEnd k) s fun t =>
    lane t k = { lane s k with calLeft := (lane s k).calLeft - 1 } ∧ Only [.lanes] [] s t := by
  refine runs_act (f := laneCalEnd k) (ok := decide (k < 4)) rfl u (by simp [hk]) ?_
  have counts : laneCalEnd k s = setLane k (fun l => { l with calLeft := (lane s k).calLeft - 1 }) s := by
    unfold laneCalEnd
    dsimp only
    rw [if_neg (not_not.mpr stage), if_neg (by omega)]
    rfl
  rw [counts]
  exact ⟨by rw [lane_keepAll, lane_setLane_same], (setLane_only _ _ s).keepAll⟩

theorem runs_calEnd (u : Up s) (hk : k < 4) (stage : (lane s k).stage = .cal) (last : (lane s k).calLeft = 1) (notDue : (lane s k).calDue = false) :
    Runs (.laneCalWindowEnd k) s fun t => (lane t k).calLeft = 0 ∧ ((lane t k).stage = .mux ∨ (lane t k).stage = .idle) ∧ Only [.lanes] [] s t := by
  refine runs_act (f := laneCalEnd k) (ok := decide (k < 4)) rfl u (by simp [hk]) ?_
  have scans : laneCalEnd k s = startStep k (setLane k (fun l => { l with calLeft := 0 }) s) := by
    unfold laneCalEnd
    dsimp only
    rw [if_neg (not_not.mpr stage), if_pos (by omega)]
  obtain ⟨left, stage'⟩ := startStep_scans (k := k) (s := setLane k (fun l => { l with calLeft := 0 }) s) (by rw [lane_setLane_same]; exact notDue)
  rw [scans]
  refine ⟨?_, stage', ((setLane_only _ _ s).seq (startStep_only _ _)).keepAll⟩
  rw [lane_keepAll, left, lane_setLane_same]

end

/-- Settles O23: the ends of a step by the branches of `endStep`, the others by a lemma each. -/
theorem slowStepResults : Obligations.SlowStepResults := by
  intro s k src u hk ch source c l driven w2 w1 none
  refine ⟨fun stage full wired served drives checked within => runs_window1Value u hk ch source stage full wired served drives checked within,
    fun stage full wired served drives checked within => ?_, fun stage full served drives failed => ?_, fun stage full served drives checked left => ?_,
    fun stage full needs off small => ?_, fun small lane' window needs own within => runs_complianceLoss u small lane' window needs own within,
    fun stage more => runs_calWindow u hk stage more, fun stage last notDue => runs_calEnd u hk stage last notDue⟩
  case refine_1 =>
    have ends := endStep_value (w2 := w2) served drives checked within (slowValue_sure drives (by omega) _ _)
    rw [stepLead, if_pos wired] at ends
    obtain ⟨t, next, result, -, lead⟩ := runs_window2 u hk ch source stage full (by decide) ends
    exact ⟨t, next, result, lead _ rfl⟩
  case refine_2 =>
    have bad : (l.chk != 0 || l.compl) = true := by rcases failed with e | e <;> simp [e]
    have code : (if l.chk != 0 then l.chk else 3) = l.chk := if_pos (by rcases failed with e | e <;> simp [e])
    have ends := endStep_open w2 served drives bad
    rw [code] at ends
    obtain ⟨t, next, result, pends, -⟩ := runs_window2 u hk ch source stage full (by omega) ends
    exact ⟨t, next, result, pends (by decide)⟩
  case refine_3 =>
    have bad : (l.chk != 0 || l.compl) = true := by simp [left]
    have code : (if l.chk != 0 then l.chk else 3) = 3 := if_neg (by simp [checked])
    have ends := endStep_open w2 served drives bad
    rw [code] at ends
    obtain ⟨t, next, result, pends, -⟩ := runs_window2 u hk ch source stage full (by decide) ends
    exact ⟨t, next, result, pends (by decide)⟩
  case refine_4 =>
    obtain ⟨t, next, result, -⟩ := runs_window2 u hk ch source stage full small (endStep_skip w2 needs off)
    exact ⟨t, next, result⟩

end Sys2Proof.Machine

/-! SUPPORT. The front-end monitors of AC channels and the acquisition window (R54, R56, R100). -/

namespace Sys2Proof.Machine

/-! ### Channels -/

theorem setChanFe_only (c : Nat) (x : ChanFe) (s : State) : Only [.chanFe] [] s (setChanFe c x s) := chanFe_only _ s

theorem chanFe_of_only {ps : List Part} {rs : List Fld} {s t : State} (o : Only ps rs s t) (own : Part.chanFe ∉ ps) (c : Nat) : chanFe t c = chanFe s c := by
  have same : t.chanFe = s.chanFe := o.1 .chanFe own
  rw [chanFe, chanFe, same]

theorem chanFe_keepAll (s t : State) (c : Nat) : chanFe (keepAll s t) c = chanFe t c := rfl

/-- The fields of a channel's monitor. -/
def monitorFields (c : Nat) : List Fld := [fcOpen c, fcFault c, F.FEGRP_STATUS.OPEN_NOW (c / 16), F.EVT_PEND.PEND (fechPage c)]

/-- A fast channel's field stands on its page, FECH0 or FECH1. -/
theorem fech_key (lo w : Nat) {c : Nat} (hc : c < 512) :
    (fech lo w c).key = fechPage c * 32768 + 1024 + 64 * (c % 256) + lo ∧ (fechPage c = 17 ∨ fechPage c = 18) := by
  by_cases low : c < 256
  · simp [fechPage, low, pFECH0]
    omega
  · simp [fechPage, low, pFECH1]
    omega

theorem fechPage_lt {c : Nat} (hc : c < 512) : fechPage c < 64 := by
  have := (fech_key 0 0 hc).2
  omega

/-- The four fields of a monitor stand apart, below the live copies. -/
theorem monitor_places {c : Nat} (hc : c < 512) : (∀ f ∈ monitorFields c, f.key < strokeBase) ∧ (fcFault c).key ≠ (fcOpen c).key
    ∧ (∀ f ∈ [fcOpen c, fcFault c], f.key ≠ (F.FEGRP_STATUS.OPEN_NOW (c / 16)).key ∧ f.key ≠ (F.EVT_PEND.PEND (fechPage c)).key)
    ∧ (F.FEGRP_STATUS.OPEN_NOW (c / 16)).key ≠ (F.EVT_PEND.PEND (fechPage c)).key := by
  have opens := (fech_key 50 1 hc).1
  obtain ⟨faults, page⟩ := fech_key 52 2 hc
  have now : (F.FEGRP_STATUS.OPEN_NOW (c / 16)).key < 17 * 32768 := by simp; omega
  have pend : (F.EVT_PEND.PEND (fechPage c)).key = fechPage c * 32768 + 320 := by simp; omega
  simp only [monitorFields, List.mem_cons, List.not_mem_nil, or_false, forall_eq_or_imp, forall_eq, strokeBase] at opens faults now pend ⊢
  omega

/-! ### The monitor trips -/

/-- The monitor's fields show a channel OPEN with a cause. -/
def openShown (cause c : Nat) (s : State) : State :=
  s |> rset (fcOpen c) 1 |> rset (fcFault c) cause |> setBitOf (F.FEGRP_STATUS.OPEN_NOW (c / 16)) (c % 16)

theorem openTrip_eq {n cause c : Nat} {s : State} (closed : on s (fcOpen c) = false) : openTrip n cause c s =
    raise (fechPage c) 0 (setChanFe c { chanFe s c with openFrom := n, inRun := 0 } (openShown cause c s)) := by
  rw [openTrip, closed, if_neg Bool.false_ne_true]
  rfl

theorem openShown_only (cause c : Nat) (s : State) : Only [] [fcOpen c, fcFault c, F.FEGRP_STATUS.OPEN_NOW (c / 16)] s (openShown cause c s) :=
  (((rset_only _ _ s).trans (rset_only _ _ _)).trans (setBitOf_only _ _ _)).mono (by simp) (by simp)

theorem openShown_shows {cause c : Nat} (hc : c < 512) (code : cause < 4) (s : State) : rget (openShown cause c s) (fcOpen c) = 1
    ∧ rget (openShown cause c s) (fcFault c) = cause ∧ bitSet (rget (openShown cause c s) (F.FEGRP_STATUS.OPEN_NOW (c / 16))) (c % 16) = true := by
  obtain ⟨-, apart, fields, -⟩ := monitor_places hc
  obtain ⟨openNow, -⟩ := fields (fcOpen c) (by simp)
  obtain ⟨faultNow, -⟩ := fields (fcFault c) (by simp)
  unfold openShown
  refine ⟨?_, ?_, ?_⟩
  · rw [(setBitOf_only _ _ _).get (by simpa using openNow), rget_rset_other _ _ (Ne.symm apart), rget_rset_same]
    rfl
  · rw [(setBitOf_only _ _ _).get (by simpa using faultNow), rget_rset_same]
    exact Nat.mod_eq_of_lt code
  · rw [setBitOf, rget_rset_same, bitSet_mod _ _ _ (show c % 16 < 16 by omega), bitSet_setBit]
    simp

/-- What follows the monitor's fields. -/
theorem openRest_only (c b : Nat) (x : ChanFe) (s : State) : Only [.chanFe, .eva] [F.EVT_PEND.PEND (fechPage c)] s (raise (fechPage c) b (setChanFe c x s)) :=
  ((setChanFe_only c x s).trans (raise_only _ _ _)).mono (by simp) (by simp)

theorem lineOutside_self (c mV : Nat) (s : State) : lineOutside [(c, mV)] c s =
    (decide (10 * rget s (F.FEGRP_CFG.AC_HI (c / 16)) < mV) || decide (mV < 10 * rget s (F.FEGRP_CFG.AC_LO (c / 16)))) := by
  simp only [lineOutside, groupOf, List.any_cons, List.any_nil, Bool.or_false, beq_self_eq_true, Bool.true_and]
  rfl

theorem runs_acOpenTrip {s : State} {c mV : Nat} (u : Up s) (hc : c < 512) (ac : rget s (fcMode c) = 2) (closed : on s (fcOpen c) = false)
    (left : mV < 10 * rget s (F.FEGRP_CFG.AC_LO (c / 16)) ∨ 10 * rget s (F.FEGRP_CFG.AC_HI (c / 16)) < mV) : Runs (.acOpenTrip c mV) s fun t =>
      rget t (fcOpen c) = 1 ∧ rget t (fcFault c) = (if mV < 10 * rget s (F.FEGRP_CFG.AC_LO (c / 16)) then 1 else 2)
        ∧ bitSet (rget t (F.FEGRP_STATUS.OPEN_NOW (c / 16))) (c % 16) = true ∧ (chanFe t c).openFrom = nextStroke s ∧ Pends (fechPage c) 0 t
        ∧ Only [.chanFe, .eva] (monitorFields c) s t := by
  obtain ⟨lt, -, fields, nowApart⟩ := monitor_places hc
  refine runs_act (f := acOpenTrip c mV) (ok := decide (c < 512)) rfl u (by simp [hc]) ?_
  have outside : lineOutside [(c, mV)] c s = true := by
    rw [lineOutside_self]
    rcases left with h | h <;> simp [h]
  have trips : acOpenTrip c mV s = openTrip (nextStroke s) (if mV < 10 * rget s (F.FEGRP_CFG.AC_LO (c / 16)) then 1 else 2) c s := if_pos ⟨ac, outside⟩
  rw [trips, openTrip_eq closed]
  set cause := if mV < 10 * rget s (F.FEGRP_CFG.AC_LO (c / 16)) then 1 else 2 with code
  have small : cause < 4 := by rw [code]; split <;> decide
  have shown := openShown_only cause c s
  obtain ⟨open', fault, now⟩ := openShown_shows hc small s
  generalize openShown cause c s = b at *
  have rest := openRest_only c 0 { chanFe s c with openFrom := nextStroke s, inRun := 0 } b
  refine ⟨?_, ?_, ?_, ?_, Pends.keepAll (fechPage_lt hc) (raise_pends _ (by decide)), ((shown.trans rest).mono (by simp) (by simp [monitorFields])).keepAll⟩
  · rw [rget_keepAll _ _ (lt _ (by simp [monitorFields])), rest.get (by simpa using (fields (fcOpen c) (by simp)).2), open']
  · rw [rget_keepAll _ _ (lt _ (by simp [monitorFields])), rest.get (by simpa using (fields (fcFault c) (by simp)).2), fault]
  · rw [rget_keepAll _ _ (lt _ (by simp [monitorFields])), rest.get (by simpa using nowApart), now]
  · rw [chanFe_keepAll, chanFe_of_only (raise_only _ _ _) (by simp), chanFe_setChanFe_same]

/-! ### OPEN ends -/

/-- The monitor's fields show a channel closed. -/
def closedShown (c : Nat) (s : State) : State :=
  s |> rset (fcOpen c) 0 |> rset (fcFault c) 0 |> clrBitOf (F.FEGRP_STATUS.OPEN_NOW (c / 16)) (c % 16)

theorem openEnd_eq (c : Nat) (s : State) : openEnd c s = raise (fechPage c) 1 (setChanFe c { chanFe s c with outRun := 0, inRun := 0 } (closedShown c s)) := rfl

theorem closedShown_only (c : Nat) (s : State) : Only [] [fcOpen c, fcFault c, F.FEGRP_STATUS.OPEN_NOW (c / 16)] s (closedShown c s) :=
  (((rset_only _ _ s).trans (rset_only _ _ _)).trans (clrBitOf_only _ _ _)).mono (by simp) (by simp)

theorem closedShown_shows {c : Nat} (hc : c < 512) (s : State) : rget (closedShown c s) (fcOpen c) = 0 ∧ rget (closedShown c s) (fcFault c) = 0 := by
  obtain ⟨-, apart, fields, -⟩ := monitor_places hc
  unfold closedShown
  constructor
  · rw [(clrBitOf_only _ _ _).get (by simpa using (fields (fcOpen c) (by simp)).1), rget_rset_other _ _ (Ne.symm apart), rget_rset_same, Nat.zero_mod]
  · rw [(clrBitOf_only _ _ _).get (by simpa using (fields (fcFault c) (by simp)).1), rget_rset_same, Nat.zero_mod]

theorem settleFor_only (n k c : Nat) (s : State) : Only [.chanFe] [] s (settleFor n k c s) :=
  Only.ite (fun _ => setChanFe_only _ _ s) fun _ => (Only.refl s).mono (by simp) (by simp)

/-- SETTLE lasts at least the strokes asked for. -/
theorem settleFor_lasts (n k c : Nat) (s : State) : n + k ≤ (chanFe (settleFor n k c s) c).settleUntil := by
  unfold settleFor
  dsimp only
  split
  · rw [chanFe_setChanFe_same]
  · omega

theorem runs_openClear {s : State} {c : Nat} (u : Up s) (hc : c < 512) (isOpen : on s (fcOpen c) = true) (inside : 16 ≤ (chanFe s c).inRun) :
    Runs (.openClear c) s fun t => rget t (fcOpen c) = 0 ∧ rget t (fcFault c) = 0 ∧ Pends (fechPage c) 1 t ∧ strokeNow s + 3 ≤ (chanFe t c).settleUntil
      ∧ Only [.chanFe, .eva] (monitorFields c) s t := by
  obtain ⟨lt, -, fields, -⟩ := monitor_places hc
  refine runs_act (f := openClear c) (ok := decide (c < 512)) rfl u (by simp [hc]) ?_
  have clears : openClear c s = settleFor (strokeNow s) 3 c (openEnd c s) := if_pos ⟨isOpen, inside⟩
  rw [clears, openEnd_eq]
  have shown := closedShown_only c s
  obtain ⟨closed, noFault⟩ := closedShown_shows hc s
  generalize closedShown c s = b at *
  have rest := openRest_only c 1 { chanFe s c with outRun := 0, inRun := 0 } b
  have pends : Pends (fechPage c) 1 (raise (fechPage c) 1 (setChanFe c { chanFe s c with outRun := 0, inRun := 0 } b)) := raise_pends _ (by decide)
  generalize raise (fechPage c) 1 (setChanFe c { chanFe s c with outRun := 0, inRun := 0 } b) = d at *
  have settles := settleFor_only (strokeNow s) 3 c d
  refine ⟨?_, ?_, Pends.keepAll (fechPage_lt hc) (pends.only settles (by simp)), settleFor_lasts _ _ _ _,
    (((shown.trans rest).trans settles).mono (by simp) (by simp [monitorFields])).keepAll⟩
  · rw [rget_keepAll _ _ (lt _ (by simp [monitorFields])), settles.get (by simp), rest.get (by simpa using (fields (fcOpen c) (by simp)).2), closed]
  · rw [rget_keepAll _ _ (lt _ (by simp [monitorFields])), settles.get (by simp), rest.get (by simpa using (fields (fcFault c) (by simp)).2), noFault]

/-! ### The acquisition window -/

/-- A table into which a function has been written below `n`. -/
theorem mget_written (g : Nat → Nat) (n : Nat) (t : Table Nat) (d : Nat) :
    mget zeroAt ((List.range n).foldl (fun t c => mput zeroAt c (g c) t) t) d = if d < n then g d else mget zeroAt t d := by
  induction n with
  | zero => rfl
  | succ n ih =>
    rw [List.range_succ, List.foldl_append, List.foldl_cons, List.foldl_nil]
    by_cases same : d = n
    · subst same
      rw [mget_mput_same, if_pos (Nat.lt_succ_self d)]
    · rw [mget_mput_other _ _ same, ih]
      exact if_congr (by omega) rfl rfl

/-- The range that a PGA takes for the coming stroke (R54). -/
def comingRange (s : State) (d : Nat) : Nat := if (committing (nextStroke s) s).contains (fechPage d) then sget s (fcRange d) else rget s (fcRange d)

theorem acquisitionWindow_gains (s : State) :
    (acquisitionWindow s).acq.gains = (List.range 512).foldl (fun t c => mput zeroAt c (comingRange s c) t) s.acq.gains := by
  unfold acquisitionWindow
  simp only [comingRange]

theorem acquisitionWindow_only (s : State) : Only [.acq] [] s (acquisitionWindow s) := acq_only _ s

theorem keepAll_acq (s t : State) : (keepAll s t).acq = t.acq := rfl

theorem runs_acquisitionWindow {s : State} (u : Up s) : Runs .acquisitionWindow s fun t =>
    Only [.acq] [] s t ∧ ∀ d, d < 512 → mget zeroAt t.acq.gains d = comingRange s d := by
  refine runs_act (ok := true) (f := acquisitionWindow) rfl u rfl ?_
  refine ⟨(acquisitionWindow_only s).keepAll, fun d hd => ?_⟩
  rw [keepAll_acq, acquisitionWindow_gains, mget_written, if_pos hd]

/-- Settles O14: one lemma for each command. -/
theorem frontEndMonitors : Obligations.FrontEndMonitors := by
  intro s c mV u hc g
  exact ⟨fun ac closed left => runs_acOpenTrip u hc ac closed left, fun isOpen inside => runs_openClear u hc isOpen inside, runs_acquisitionWindow u⟩

end Sys2Proof.Machine

/-! SUPPORT. What a strike does to the stroke counter and to the strokes' own time (R45, R376). -/

namespace Sys2Proof.Machine

theorem setStage_only (v : Nat) (s : State) : Only [.eva] [F.SYS_STAGE.STAGE, F.EVT_PEND.PEND pSYS] s (setStage v s) := by
  unfold setStage
  split
  · exact (Only.refl s).mono (by simp) (by simp)
  · exact ((rset_only _ _ s).trans (raise_only _ _ _)).mono (by simp) (by simp)

/-- The register that the stroke counter stands in is 64 bits wide. -/
theorem strokeNow_rset (v : Nat) (s : State) : strokeNow (rset F.SYS_STROKE_NOW.STROKE v s) = v % 2 ^ 64 := rget_rset_same _ _ _

/-- Whatever else a strike brings, the counter and the time of the strike are those it began with. -/
theorem keepStroke_time (s u x : State) : strokeNow (keepStrike s (keepStroke u x)) = strokeNow u % 2 ^ 64
    ∧ (keepStrike s (keepStroke u x)).strikeDclk = u.strikeDclk ∧ (keepStrike s (keepStroke u x)).struck = u.struck := by
  have time := (rset_only F.SYS_STROKE_NOW.STROKE (strokeNow u) { x with struck := u.struck, strikeDclk := u.strikeDclk }).1 .time (by simp)
  exact ⟨strokeNow_rset _ _, time.2, time.1⟩

/-! ### A later strike -/

theorem closeAside_only (s : State) : Only [.trg, .filt] [] s (closeAside s) :=
  ⟨fun p out => by
    cases p with
    | trg => exact absurd (by simp) out
    | filt => exact absurd (by simp) out
    | time => exact ⟨rfl, rfl⟩
    | _ => rfl, fun _ _ => rfl⟩

/-- The time of a stroke that begins one stroke after the latest. -/
def strokeOn (s : State) : State :=
  { s with strikeDclk := s.strikeDclk + strokeLen s, tsu := { s.tsu with t := tsuAt s (strokeLen s), cyc := 0, strike := tsuAt s (strokeLen s) } }

theorem nextStrike_eq (s : State) :
    nextStrike s = rset F.SYS_STROKE_NOW.STROKE (strokeNow (closeAside s) + 1) (strokeOn (closeAside s)) := rfl

theorem nextStrike_time (s : State) : strokeNow (nextStrike s) = (strokeNow s + 1) % 2 ^ 64
    ∧ (nextStrike s).strikeDclk = s.strikeDclk + strokeLen s ∧ (nextStrike s).struck = s.struck := by
  have counter : strokeNow (closeAside s) = strokeNow s := (closeAside_only s).get (by simp)
  have length : strokeLen (closeAside s) = strokeLen s := rfl
  have before := (closeAside_only s).1 .time (by simp)
  have time := (rset_only F.SYS_STROKE_NOW.STROKE (strokeNow (closeAside s) + 1) (strokeOn (closeAside s))).1 .time (by simp)
  rw [nextStrike_eq]
  refine ⟨by rw [strokeNow_rset, counter], ?_, ?_⟩
  · rw [time.2, strokeOn, before.2, length]
  · rw [time.1]; exact before.1

/-! ### The first strike -/

/-- The state in which the strokes begin, `us` microseconds after the release of PORST_N. -/
def strokesBegun (us : Nat) (s : State) : State :=
  { s with struck := true, strikeDclk := us * 512, tsu := { s.tsu with cyc := 0, strike := s.tsu.t } }

/-- What the first strike does after the strokes have begun: STAGE, STRIKE_US, and the slow lanes start. -/
theorem firstStrike_only (us : Nat) (s : State) :
    Only [.eva, .lanes] [F.SYS_STAGE.STRIKE_US, F.SYS_STAGE.STAGE, F.EVT_PEND.PEND pSYS] (strokesBegun us s) (firstStrike us s) := by
  have lanes := Only.forAll (ps := [.lanes]) (rs := [])
    (f := fun k (s : State) => if (lane s k).stage == .idle then startStep k s else s) (List.range 4)
    (fun k _ u => Only.ite (fun _ => startStep_only k u) (fun _ => (Only.refl u).mono (by simp) (by simp)))
  exact (((rset_only _ _ _).trans (setStage_only _ _)).trans (lanes _)).mono (by simp) (by simp)

theorem firstStrike_time (us : Nat) (s : State) : strokeNow (firstStrike us s) = strokeNow s
    ∧ (firstStrike us s).strikeDclk = us * 512 ∧ (firstStrike us s).struck = true := by
  have time := (firstStrike_only us s).1 .time (by simp)
  exact ⟨(firstStrike_only us s).get (by simp [pSYS]), time.2, time.1⟩

/-- Settles O13: `keepStroke` keeps the counter and the time that `nextStrike` and `firstStrike` set. -/
theorem strikesFollow : Obligations.StrikesFollow := by
  intro s e up
  refine ⟨fun may struck => ?_, fun may unstruck small => ?_, fun no => ?_⟩
  · have first : strike e s = keepStroke (nextStrike s) (strikeAll (nextStroke s) e (nextStrike s)) := by simp only [strike, may, struck]; rfl
    refine runs_actIn (keep := keepStrike) (ok := true) (f := strike e) rfl up rfl ?_
    obtain ⟨counter, dclk, on'⟩ := keepStroke_time s (nextStrike s) (strikeAll (nextStroke s) e (nextStrike s))
    obtain ⟨counter', dclk', on''⟩ := nextStrike_time s
    rw [first, counter, dclk, on', counter', dclk', on'']
    exact ⟨Nat.mod_mod _ _, congrArg (s.strikeDclk + ·) rfl, struck⟩
  · have first : strike e s = keepStroke (firstStrike e.us s) (strikeAll (nextStroke s) e (firstStrike e.us s)) := by
      simp only [strike, may, unstruck]; rfl
    refine runs_actIn (keep := keepStrike) (ok := true) (f := strike e) rfl up rfl ?_
    obtain ⟨counter, dclk, on'⟩ := keepStroke_time s (firstStrike e.us s) (strikeAll (nextStroke s) e (firstStrike e.us s))
    obtain ⟨counter', dclk', on''⟩ := firstStrike_time e.us s
    rw [first, counter, dclk, on', counter', dclk', on'']
    exact ⟨Nat.mod_eq_of_lt small, Nat.mul_comm _ _, rfl⟩
  · have none' : strike e s = s := by simp [strike, no]
    refine runs_actIn (keep := keepStrike) (ok := true) (f := strike e) rfl up rfl ?_
    rw [none']
    rfl

end Sys2Proof.Machine

/-! SUPPORT. What PORST_N, a brownout, the release and the stroke PLL leave (R365, R366, R380, R417). -/

namespace Sys2Proof.Machine

/-! ### Reset -/

/-- The state that a reset leaves before its cause and the rails are recorded. -/
def resetBase (s : State) : State :=
  { State.reset with
      pending := s.pending
      out := (s |> allOff).out ++ (if irqLow s then [.irqLevel false] else [])
      free := s.free
      nibs := { State.reset.nibs with ledger := s.nibs.ledger }
      boot := { State.reset.boot with held := true, fuses := s.boot.fuses } }

theorem porstReset_eq (cause rails : Nat) (s : State) :
    porstReset cause rails s = (resetBase s |> rset F.SYS_RST.CAUSE cause |> rset F.SYS_RST.RAILS rails) := rfl

theorem porstReset_only (cause rails : Nat) (s : State) :
    Only [] [F.SYS_RST.CAUSE, F.SYS_RST.RAILS] (resetBase s) (porstReset cause rails s) :=
  ((rset_only _ _ _).trans (rset_only _ _ _)).mono (by simp) (by simp)

/-- The two fields that a reset writes do not commit on a stroke. -/
theorem porstReset_live (cause rails : Nat) (s : State) : (porstReset cause rails s).live = [] := rfl

/-- `t` is `s` after a reset with this cause and the rails that fell. -/
def IsReset (s : State) (cause fell : Nat) (t : State) : Prop := t.boot.held = true ∧ t.struck = false ∧ t.live = [] ∧ t.shad = [] ∧ t.queues = []
  ∧ t.halves = [] ∧ t.caps = [] ∧ t.boot.fuses = s.boot.fuses ∧ t.nibs.ledger = s.nibs.ledger ∧ t.pending = s.pending
  ∧ rget t F.SYS_RST.CAUSE = cause ∧ rget t F.SYS_RST.RAILS = fell
  ∧ ∀ f : Fld, f.key ∉ [F.SYS_RST.CAUSE.key, F.SYS_RST.RAILS.key] → rget t f = rget State.reset f

theorem porstReset_isReset {cause rails : Nat} (cause_lt : cause < 2 ^ F.SYS_RST.CAUSE.width) (rails_lt : rails < 2 ^ F.SYS_RST.RAILS.width) (s : State) :
    IsReset s cause rails (porstReset cause rails s) := by
  have kept := porstReset_only cause rails s
  have boot : (porstReset cause rails s).boot = { State.reset.boot with held := true, fuses := s.boot.fuses } := kept.1 .boot (by simp)
  refine ⟨congrArg (·.held) boot, (kept.1 .time (by simp)).1, porstReset_live cause rails s, kept.1 .shad (by simp), kept.1 .queues (by simp),
    kept.1 .halves (by simp), kept.1 .caps (by simp), congrArg (·.fuses) boot, porstReset_ledger cause rails s, kept.1 .pending (by simp), ?_, ?_,
    fun f other => kept.2 f other⟩
  · rw [porstReset_eq, rget_rset_other _ _ (by decide), rget_rset_same, Nat.mod_eq_of_lt cause_lt]
  · rw [porstReset_eq, rget_rset_same, Nat.mod_eq_of_lt rails_lt]

/-! ### Release -/

theorem rget_wear_same (f : Fld) (v : Nat) (s : State) (notPend : f.key ≠ (F.EVT_PEND.PEND pMON).key) : rget (wear f v s) f = v % 2 ^ f.width := by
  unfold wear
  split
  case isTrue e => exact e
  case isFalse => rw [(raise_only _ _ _).get (by simpa using notPend), rget_rset_same]

/-- A half's boot ROM starts (R367). -/
def romStarts (h : Nat) (s : State) : State :=
  s |> setHalfState h 1 |> setBootStatus h 0x0100 |> inc (sf h F.SCRR_COUNT.BOOTS) |> inc F.SYS_COUNT.BOOTS

/-- The fields that a half's start writes. -/
def romFields (h : Nat) : List Fld :=
  [sf h F.SCRR_STATE.STATE, F.EVT_PEND.PEND (halfPage h), F.MON_WEAR.HALVES_OK, F.EVT_PEND.PEND pMON, sf h F.SCRR_BOOT.STATUS,
    sf h F.SCRR_COUNT.BOOTS, F.SYS_COUNT.BOOTS]

theorem romStarts_only (h : Nat) (s : State) : Only [.eva] (romFields h) s (romStarts h s) :=
  ((((setHalfState_only _ _ s).trans (rset_only _ _ _)).trans (inc_only _ _)).trans (inc_only _ _)).mono (by simp) (by simp [romFields])

theorem halfState_romStarts {h : Nat} (hh : h < 2) (s : State) : halfState (romStarts h s) h = 1 := by
  have late : Only [] [sf h F.SCRR_BOOT.STATUS, sf h F.SCRR_COUNT.BOOTS, F.SYS_COUNT.BOOTS] (setHalfState h 1 s) (romStarts h s) :=
    (((rset_only _ _ _).trans (inc_only _ _)).trans (inc_only _ _)).mono (by simp) (by simp)
  rw [halfState, late.get (by simp; omega)]
  exact halfState_setHalfState hh (by decide) s

/-- The state at the release before the boot ROMs start: the strap and the fuses show. -/
def releaseShown (bootNet : Bool) (s : State) : State :=
  setBoot (fun b => { b with held := false }) s |> rset F.SYS_FUSE.BOOT_NET bootNet.toNat
    |> rset F.SYS_FUSE.KEY_REVOKED (rget s F.SYS_FUSE.KEY_REVOKED ||| slice 4 4 s.boot.fuses)
    |> rset F.SYS_FUSE.SEC_VER (rget s F.SYS_FUSE.SEC_VER ||| slice 8 6 s.boot.fuses)
    |> whenB bootNet (rset F.SYS_EBOOT.STATE 1) |> wear F.MON_WEAR.PEN_OK 1

theorem porstRelease_held {s : State} (held : s.boot.held = true) (bootNet : Bool) :
    porstRelease bootNet s = romStarts 1 (romStarts 0 (releaseShown bootNet s)) := by
  simp only [porstRelease, held, Bool.not_true, Bool.false_and, Bool.false_eq_true, if_false]
  rfl

theorem releaseShown_only (bootNet : Bool) (s : State) :
    Only [.eva] [F.SYS_FUSE.KEY_REVOKED, F.SYS_FUSE.SEC_VER, F.SYS_EBOOT.STATE, F.MON_WEAR.PEN_OK, F.EVT_PEND.PEND pMON]
      (rset F.SYS_FUSE.BOOT_NET bootNet.toNat (setBoot (fun b => { b with held := false }) s)) (releaseShown bootNet s) :=
  ((((rset_only _ _ _).trans (rset_only _ _ _)).trans (Only.whenB (rset_only _ _ _))).trans (wear_only _ _ _)).mono (by simp) (by simp)

/-- The release starts both boot ROMs and samples BOOT_NET (R366, R367). -/
theorem runs_release {s : State} (held : s.boot.held = true) (b : Bool) : Runs (.porstNRelease b) s (fun t => t.boot.held = false
    ∧ rget t F.SYS_FUSE.BOOT_NET = b.toNat ∧ halfState t 0 = 1 ∧ halfState t 1 = 1 ∧ rget t F.MON_WEAR.PEN_OK = 1 ∧ t.boot.fuses = s.boot.fuses) := by
  refine ⟨keepRelease s (romStarts 1 (romStarts 0 (releaseShown b s))), by rw [← porstRelease_held held]; rfl, ?_⟩
  have roms := ((romStarts_only 0 (releaseShown b s)).trans (romStarts_only 1 _)).mono (ps' := [.eva]) (rs' := romFields 0 ++ romFields 1)
    (by simp) (by simp)
  have get {f : Fld} (low : f.key < strokeBase) (x : State) : rget (keepRelease s x) f = rget x f := by
    unfold rget; rw [if_neg (Nat.not_le.mpr low), if_neg (Nat.not_le.mpr low)]; rfl
  have boot : (romStarts 1 (romStarts 0 (releaseShown b s))).boot = { s.boot with held := false } :=
    (roms.1 .boot (by simp)).trans ((releaseShown_only b s).1 .boot (by simp))
  refine ⟨congrArg (·.held) boot, ?_, ?_, ?_, ?_, rfl⟩
  · rw [get (by decide), roms.get (by decide), (releaseShown_only b s).get (by decide), rget_rset_same]
    exact Nat.mod_eq_of_lt (Bool.toNat_lt b)
  · rw [halfState, get (by decide), (romStarts_only 1 _).get (by decide)]
    exact halfState_romStarts (by decide) _
  · rw [halfState, get (by decide)]
    exact halfState_romStarts (by decide) _
  · rw [get (by decide), roms.get (by decide)]
    exact rget_wear_same _ _ _ (by decide)

/-! ### The stroke PLL -/

/-- Where the PLL locks from, 1 for a member's parent lane (R376). -/
def pllSource (s : State) : Bool := rget s F.ILK_CFG.ROLE == 0

/-- The PLL has locked and the time of it is shown; STAGE is still 1. -/
def pllShown (us : Nat) (s : State) : State :=
  s |> rset F.SYS_CLK.SRC (pllSource s).toNat |> rset F.SYS_CLK.LOCKED 1 |> whenB (!pllSource s) (rset F.SYS_CLK.REF_PRESENT 1) |> rset F.SYS_CLK.LOCK_US us

theorem pllShown_only (us : Nat) (s : State) :
    Only [] [F.SYS_CLK.SRC, F.SYS_CLK.LOCKED, F.SYS_CLK.REF_PRESENT, F.SYS_CLK.LOCK_US] s (pllShown us s) :=
  ((((rset_only _ _ s).trans (rset_only _ _ _)).trans (Only.whenB (rset_only _ _ _))).trans (rset_only _ _ _)).mono (by simp) (by simp)

theorem pllLock_eq {s : State} (stage : rget s F.SYS_STAGE.STAGE = 1) (us : Nat) :
    pllLock us s = raise pSYS 0 (rset F.SYS_STAGE.STAGE 2 (pllShown us s)) := by
  have still : rget (pllShown us s) F.SYS_STAGE.STAGE ≠ 2 := by rw [(pllShown_only us s).get (by decide), stage]; decide
  have lock : pllLock us s = setStage 2 (pllShown us s) := if_neg (not_not_intro stage)
  rw [lock]
  exact if_neg still

theorem runs_pllLock {s : State} (up : Up s) (stage : rget s F.SYS_STAGE.STAGE = 1) {us : Nat} (small : us < 2 ^ 32) :
    Runs (.pllLock us) s (fun t => rget t F.SYS_CLK.LOCKED = 1 ∧ rget t F.SYS_CLK.LOCK_US = us ∧ rget t F.SYS_STAGE.STAGE = 2
      ∧ rget t F.SYS_CLK.SRC = (if rget s F.ILK_CFG.ROLE = 0 then 1 else 0) ∧ Pends pSYS 0 t) := by
  refine runs_act (ok := true) (f := pllLock us) rfl up rfl ?_
  rw [pllLock_eq stage]
  have staged : Only [.eva] [F.SYS_STAGE.STAGE, F.EVT_PEND.PEND pSYS] (pllShown us s) (raise pSYS 0 (rset F.SYS_STAGE.STAGE 2 (pllShown us s))) :=
    ((rset_only _ _ _).trans (raise_only _ _ _)).mono (by simp) (by simp)
  have afterLock : Only [] [F.SYS_CLK.REF_PRESENT, F.SYS_CLK.LOCK_US]
      (s |> rset F.SYS_CLK.SRC (pllSource s).toNat |> rset F.SYS_CLK.LOCKED 1) (pllShown us s) :=
    ((Only.whenB (rset_only _ _ _)).trans (rset_only _ _ _)).mono (by simp) (by simp)
  refine ⟨?_, ?_, ?_, ?_, (raise_pends _ (by decide)).keepAll (by decide)⟩
  · rw [rget_keepAll _ _ (by decide), staged.get (by decide), afterLock.get (by decide), rget_rset_same]; rfl
  · rw [rget_keepAll _ _ (by decide), staged.get (by decide), pllShown, rget_rset_same]
    exact Nat.mod_eq_of_lt small
  · rw [rget_keepAll _ _ (by decide), (raise_only _ _ _).get (by decide), rget_rset_same]; rfl
  · rw [rget_keepAll _ _ (by decide), staged.get (by decide), afterLock.get (by decide), rget_rset_other _ _ (by decide), rget_rset_same]
    by_cases member : rget s F.ILK_CFG.ROLE = 0
    · rw [if_pos member, pllSource, member]; rfl
    · rw [if_neg member, pllSource, beq_eq_false_iff_ne.mpr member]; rfl

theorem runs_refinLoss {s : State} (up : Up s) (striking : 3 ≤ rget s F.SYS_STAGE.STAGE) (present : on s F.SYS_CLK.REF_PRESENT = true) :
    Runs .refinLoss s (fun t => rget t F.SYS_CLK.REF_PRESENT = 0 ∧ rget t F.SYS_CLK.LOCKED = 0 ∧ Pends pSYS 5 t
      ∧ Only [.eva] [F.SYS_CLK.REF_PRESENT, F.SYS_CLK.LOCKED, F.EVT_PEND.PEND pSYS] s t) := by
  have lost : refinLoss s = (s |> rset F.SYS_CLK.REF_PRESENT 0 |> rset F.SYS_CLK.LOCKED 0 |> raise pSYS 5) :=
    if_neg (by simp [present]; omega)
  refine runs_act (ok := true) (f := refinLoss) rfl up rfl ?_
  rw [lost]
  refine ⟨?_, ?_, (raise_pends _ (by decide)).keepAll (by decide),
    ((((rset_only _ _ s).trans (rset_only _ _ _)).trans (raise_only _ _ _)).mono (by simp) (by simp)).keepAll⟩
  · rw [rget_keepAll _ _ (by decide), (raise_only _ _ _).get (by decide), rget_rset_other _ _ (by decide), rget_rset_same]; rfl
  · rw [rget_keepAll _ _ (by decide), (raise_only _ _ _).get (by decide), rget_rset_same]; rfl

theorem runs_refinReturn {s : State} (up : Up s) (striking : 3 ≤ rget s F.SYS_STAGE.STAGE) (absent : on s F.SYS_CLK.REF_PRESENT = false) :
    Runs .refinReturn s (fun t => rget t F.SYS_CLK.REF_PRESENT = 1 ∧ rget t F.SYS_CLK.LOCKED = 1
      ∧ Only [] [F.SYS_CLK.REF_PRESENT, F.SYS_CLK.LOCKED] s t) := by
  have back : refinReturn s = (s |> rset F.SYS_CLK.REF_PRESENT 1 |> rset F.SYS_CLK.LOCKED 1) := if_neg (by simp [absent]; omega)
  refine runs_act (ok := true) (f := refinReturn) rfl up rfl ?_
  rw [back]
  refine ⟨?_, ?_, (((rset_only _ _ s).trans (rset_only _ _ _)).mono (by simp) (by simp)).keepAll⟩
  · rw [rget_keepAll _ _ (by decide), rget_rset_other _ _ (by decide), rget_rset_same]; rfl
  · rw [rget_keepAll _ _ (by decide), rget_rset_same]; rfl

/-- Settles O12: one clause for each of the power commands and for each event of the PLL. -/
theorem powerAndPll : Obligations.PowerAndPll := by
  intro s b us rails
  refine ⟨⟨_, rfl, porstReset_isReset (by decide) (by decide) s⟩, fun up small => ⟨porstReset 2 rails s, ?_, porstReset_isReset (by decide) small s⟩,
    fun held _ _ => runs_release held b, fun up stage small => runs_pllLock up stage small, fun up striking present => runs_refinLoss up striking present,
    fun up striking absent => runs_refinReturn up striking absent⟩
  have high : s.boot.held = false := up
  show execBrownoutReset rails s = _
  rw [execBrownoutReset, high]
  rfl

end Sys2Proof.Machine

/-! SUPPORT. The command executor: a command leaves CMDQ and its response enters RSPQ (R236 to R240, R253, R254). -/

namespace Sys2Proof.Machine

theorem cmdTake_only (s : State) : Only [.queues] [] s (cmdTake s) := setQueue_only _ _ s

/-! ### A command taken and answered -/

/-- The command `w` has left CMDQ, and its response stands in RSPQ with a result and two arguments. -/
def AnsweredAs (s : State) (w result a0 a1 : Nat) (t : State) : Prop :=
  (queue t qRSP).words = (queue s qRSP).words ++ tagItem (rspItem (slice 48 8 w) (slice 40 8 w) result (slice 0 32 w) a0 a1)
    ∧ (queue t qCMD).words = dropItem (queue s qCMD).words

/-- What a command's answer changes: the queues, the sessions, and the fields `rs` beside the queues' sources. -/
def AnswerOnly (rs : List Fld) (s t : State) : Prop := Only [.queues, .duc, .eva] (F.EVT_PEND.PEND pQUE :: rs) s t

/-- From the state `u` that the command's own work leaves, `t` differs by the response and its source alone. -/
structure Answered (s u : State) (t : State) : Prop where
  sessions : t.duc.st = u.duc.st
  duc : u.duc = s.duc → t.duc = s.duc
  get : ∀ f : Fld, f.key < strokeBase → f.key ≠ (F.EVT_PEND.PEND pQUE).key → rget t f = rget u f

section
variable {s : State} {w a b : Nat}
variable (up : Up s) (head : headItem (queue s qCMD).words = [w, a, b]) (len : slice 56 8 w = 2) (fits : qFits s qRSP 3 = true)

include head len fits

/-- The executor places the response of a command that it accepts. -/
theorem cmdAnswer_accepted {p : Nat → Nat → List Nat → Bool} {work : List Nat → State → Nat × Nat × Nat × State} {r a0 a1 : Nat} {u : State}
    (accepts : p (slice 48 8 w) 2 [w, a, b] = true) (works : work [w, a, b] (cmdTake s) = (r, a0, a1, u)) (queues : u.queues = (cmdTake s).queues) :
    cmdAnswer p work s = placeItem qRSP (rspItem (slice 48 8 w) (slice 40 8 w) r (slice 0 32 w) a0 a1) u := by
  have same : queue u qRSP = queue s qRSP := (congrArg (mget _ · qRSP) queues).trans (queue_setQueue_other _ _ (by decide))
  have room : qFits u qRSP 3 = true := by rw [← fits, qFits, qFits, same]
  have take : cmdAnswer p work s = pushItem qRSP (rspItem (slice 48 8 w) (slice 40 8 w) r (slice 0 32 w) a0 a1) u := by
    simp only [cmdAnswer, head, fits, List.isEmpty_cons, Bool.not_true, Bool.or_self, Bool.false_eq_true, if_false, works]
    show (if (!p (slice 48 8 w) (slice 56 8 w) [w, a, b]) = true then s else _) = _
    rw [len, accepts]
    rfl
  rw [take, pushItem, if_neg (by decide)]
  exact if_pos room

include up

/-- A command of the executor completes with its response and with what its own work, from the state with the command taken, leaves. -/
theorem runs_answer {c : Instr} {p : Nat → Nat → List Nat → Bool} {work : List Nat → State → Nat × Nat × Nat × State} {r a0 a1 : Nat} {u : State}
    {rs : List Fld} {P : State → Prop} (e : exec c s = act true (cmdAnswer p work) s) (accepts : p (slice 48 8 w) 2 [w, a, b] = true)
    (works : work [w, a, b] (cmdTake s) = (r, a0, a1, u)) (frame : Only [.duc, .eva] rs (cmdTake s) u)
    (next : ∀ t, AnsweredAs s w r a0 a1 t → AnswerOnly rs s t → Answered s u t → P t) : Runs c s P := by
  have queues : u.queues = (cmdTake s).queues := frame.1 .queues (by simp)
  refine runs_act e up rfl ?_
  rw [cmdAnswer_accepted head len fits accepts works queues]
  have placed := placeItem_only qRSP (rspItem (slice 48 8 w) (slice 40 8 w) r (slice 0 32 w) a0 a1) u
  have duc := placed.1 .duc (by simp)
  have rsp : queue u qRSP = queue s qRSP := (congrArg (mget _ · qRSP) queues).trans (queue_setQueue_other _ _ (by decide))
  have cmd : queue u qCMD = { queue s qCMD with words := dropItem (queue s qCMD).words } :=
    (congrArg (mget _ · qCMD) queues).trans (queue_setQueue_same _ _ _)
  refine next _ ⟨?_, ?_⟩ (((((cmdTake_only s).trans frame).trans placed).mono (by simp) (by simp)).keepAll) ⟨?_, fun same => ?_, fun f low notPend => ?_⟩
  · exact (congrArg QueueSt.words (queue_placeItem_same _ _ u)).trans (by rw [rsp])
  · exact (congrArg QueueSt.words (queue_placeItem_other _ u (by decide))).trans (by rw [cmd])
  · show (placeItem qRSP _ u).duc.st = u.duc.st
    rw [duc]
  · show ({ (placeItem qRSP _ u).duc with sess := s.duc.sess, keys := s.duc.keys } : Duc) = s.duc
    rw [duc, same]
  · rw [rget_keepAll _ _ low, placed.get (by simpa using notPend)]

/-- A command that only answers changes nothing else. -/
theorem runs_plainAnswer {c : Instr} {p : Nat → Nat → List Nat → Bool} {work : List Nat → State → Nat × Nat × Nat × State} {r a0 a1 : Nat}
    (e : exec c s = act true (cmdAnswer p work) s) (accepts : p (slice 48 8 w) 2 [w, a, b] = true)
    (works : work [w, a, b] (cmdTake s) = (r, a0, a1, cmdTake s)) :
    Runs c s (fun t => AnsweredAs s w r a0 a1 t ∧ t.duc = s.duc ∧ AnswerOnly [] s t) :=
  runs_answer up head len fits e accepts works ((Only.refl _).mono (by simp) (by simp)) fun _ answers only more => ⟨answers, more.duc rfl, only⟩

end

/-! ### What the commands answer -/

theorem cmdForm_accepts {op w a b : Nat} (is : slice 48 8 w = op) : cmdForm op (slice 48 8 w) 2 [w, a, b] = true := by
  simp [cmdForm, is]

/-- A session that is off is answered with 0x01. -/
theorem cmdOn_off {s : State} {w a b : Nat} (off : cEN (cfgNow s (slice 40 8 w)) = false) (ask : Cfg → Nat → Nat → State → Nat × Nat × Nat × State) :
    cmdOn ask [w, a, b] (cmdTake s) = (0x01, 0, 0, cmdTake s) :=
  if_pos (by rw [Bool.not_eq_true']; exact off)

/-- A session that is on is asked. -/
theorem cmdOn_on {s : State} {w a b : Nat} (enabled : cEN (cfgNow s (slice 40 8 w)) = true) (ask : Cfg → Nat → Nat → State → Nat × Nat × Nat × State) :
    cmdOn ask [w, a, b] (cmdTake s) = ask (cfgNow s (slice 40 8 w)) a b (cmdTake s) :=
  if_neg (by rw [Bool.not_eq_true', Bool.not_eq_false]; exact enabled)

/-! ### REPLAY -/

theorem showReplays_only (s : State) : Only [] [F.DUC_REPLAY_STATE.ACTIVE, F.DUC_REPLAY_STATE.QUEUED] s (showReplays s) :=
  ((rset_only _ _ s).trans (rset_only _ _ _)).mono (by simp) (by simp)

theorem setSess_only (n : Nat) (f : Sess → Sess) (s : State) : Only [.duc] [] s (setSess n f s) :=
  ⟨fun p out => by
    cases p with
    | duc => exact absurd (by simp) out
    | time => exact ⟨rfl, rfl⟩
    | _ => rfl, fun _ _ => rfl⟩

theorem sessSt_setSess_same (n : Nat) (f : Sess → Sess) (s : State) : sessSt (setSess n f s) n = f (sessSt s n) := mget_mput_same _ _ _ _

/-- The session with another replay queued. -/
def replayQueued (x : Replay) (e : Sess) : Sess :=
  { e with replays := e.replays ++ [x], nextId := if e.nextId = 65535 then 1 else e.nextId + 1 }

/-- A replay of session `n` is accepted. -/
def replayAccepted (n : Nat) (x : Replay) (s : State) : State :=
  s |> setSess n (replayQueued x) |> inc F.DUC_COUNT_REPLAY.ACCEPTED |> showReplays

theorem replayAccepted_only (n : Nat) (x : Replay) (s : State) :
    Only [.duc] [F.DUC_COUNT_REPLAY.ACCEPTED, F.DUC_REPLAY_STATE.ACTIVE, F.DUC_REPLAY_STATE.QUEUED] s (replayAccepted n x s) :=
  (((setSess_only _ _ s).trans (inc_only _ _)).trans (showReplays_only _)).mono (by simp) (by simp)

theorem sessSt_replayAccepted (n : Nat) (x : Replay) (s : State) : sessSt (replayAccepted n x s) n = replayQueued x (sessSt s n) :=
  sessSt_setSess_same n (replayQueued x) s

theorem accepted_replayAccepted (n : Nat) (x : Replay) (s : State) :
    rget (replayAccepted n x s) F.DUC_COUNT_REPLAY.ACCEPTED = min 65535 (rget s F.DUC_COUNT_REPLAY.ACCEPTED + 1) := by
  rw [replayAccepted, (showReplays_only _).get (by decide), rget_inc_same, (setSess_only _ _ s).get (by simp)]
  rfl

/-- A replay of strokes that are all held and written, of a fine session with room for it (R239, R240). -/
theorem askReplay_held {s : State} {c : Cfg} {a b low top : Nat} (newest : newestWritten s = some top) (oldest : oldestHeld s c = some low)
    (from_low : low ≤ a) (ordered : a ≤ b) (to_top : b ≤ top) (fine : cCoarse c = false) (room : (sessSt s c.n).replays.length < 4) :
    askReplay c none a b s = (0, put 48 16 (sessSt s c.n).nextId + put 0 48 a, put 0 48 b,
      replayAccepted c.n ⟨(sessSt s c.n).nextId, a, b, none, false⟩ s) := by
  have inside : ¬ (b < a ∨ top < a) := by omega
  have first : max a low = a := by omega
  have last : min b top = b := by omega
  simp only [askReplay, newest, oldest, if_neg inside, if_neg (Nat.not_le.mpr room), first, last, fine, Bool.false_eq_true, if_false,
    if_neg (Nat.not_lt.mpr from_low), if_neg (Nat.not_lt.mpr to_top)]
  rfl

/-- A replay whose strokes end before they begin, or begin after the newest written, is refused with 0x07 (R237). -/
theorem askReplay_refused {s : State} {c : Cfg} {a b : Nat} (bad : b < a ∨ ∃ top, newestWritten s = some top ∧ top < a) :
    askReplay c none a b s = (0x07, 0, 0, inc F.DUC_COUNT_REPLAY.REFUSED s) := by
  cases newest : newestWritten s with
  | none => simp only [askReplay, newest]
  | some top =>
    have out : b < a ∨ top < a := bad.imp_right fun ⟨x, e, lt⟩ => by
      rw [newest] at e
      injection e with e
      exact e ▸ lt
    simp only [askReplay, newest, if_pos out]

/-! ### CANCEL -/

/-- The session without the replays of an id. -/
def replaysLeft (id : Nat) (e : Sess) : Sess := { e with replays := e.replays.filter (fun y => y.id != id) }

/-- A replay of session `n` that waits is cancelled. -/
def replayCancelled (n id : Nat) (s : State) : State :=
  s |> setSess n (replaysLeft id) |> inc F.DUC_COUNT_REPLAY.CANCELLED |> raise pDUC 2 |> showReplays

theorem replayCancelled_only (n id : Nat) (s : State) :
    Only [.duc, .eva] [F.DUC_COUNT_REPLAY.CANCELLED, F.DUC_REPLAY_STATE.ACTIVE, F.DUC_REPLAY_STATE.QUEUED, F.EVT_PEND.PEND pDUC] s
      (replayCancelled n id s) :=
  ((((setSess_only _ _ s).trans (inc_only _ _)).trans (raise_only _ _ _)).trans (showReplays_only _)).mono (by simp) (by simp)

theorem sessSt_replayCancelled (n id : Nat) (s : State) : sessSt (replayCancelled n id s) n = replaysLeft id (sessSt s n) := by
  have after : (replayCancelled n id s).duc = (setSess n (replaysLeft id) s).duc :=
    ((((inc_only _ _).trans (raise_only pDUC 2 _)).trans (showReplays_only _)).1 .duc (by simp))
  rw [← sessSt_setSess_same n (replaysLeft id) s, sessSt, sessSt, after]

theorem cancelled_replayCancelled (n id : Nat) (s : State) :
    rget (replayCancelled n id s) F.DUC_COUNT_REPLAY.CANCELLED = min 65535 (rget s F.DUC_COUNT_REPLAY.CANCELLED + 1) := by
  rw [replayCancelled, (showReplays_only _).get (by decide), (raise_only _ _ _).get (by decide), rget_inc_same, (setSess_only _ _ s).get (by simp)]
  rfl

theorem pends_replayCancelled (n id : Nat) (s : State) : Pends pDUC 2 (replayCancelled n id s) := by
  rw [Pends, replayCancelled, (showReplays_only _).get (by decide)]
  exact raise_pends _ (by decide)

/-- The replays of a session that a CANCEL of CMDQ names. -/
def namedReplays (s : State) (n id : Nat) : List Replay := (sessSt s n).replays.filter (fun y => y.peer == none && (id == 0xFFFF || y.id == id))

/-- The one replay that a CANCEL names, where it waits, is cancelled (R240). -/
theorem askCancel_one {s : State} {c : Cfg} {id : Nat} {x : Replay} (named : namedReplays s c.n id = [x]) (waits : x.active = false) :
    askCancel c none id s = (0, 1, 0, replayCancelled c.n x.id s) := by
  unfold namedReplays at named
  simp only [askCancel, named, List.isEmpty_cons, Bool.false_eq_true, false_and, if_false, List.length_singleton, forAll_cons, forAll_nil, waits]
  rfl

/-- A CANCEL that names no replay is answered with 0x0A. -/
theorem askCancel_none {s : State} {c : Cfg} {id : Nat} (named : namedReplays s c.n id = []) (one : id ≠ 0xFFFF) :
    askCancel c none id s = (0x0A, 0, 0, s) := by
  unfold namedReplays at named
  simp only [askCancel, named, List.isEmpty_nil, true_and, ne_eq, one, not_false_eq_true, if_true]

/-! ### The clauses -/

section
variable {s : State} {w a b : Nat}
variable (up : Up s) (head : headItem (queue s qCMD).words = [w, a, b]) (len : slice 56 8 w = 2) (fits : qFits s qRSP 3 = true)
include up head len fits

theorem runs_replayHeld {low top : Nat} (op : slice 48 8 w = 4) (enabled : cEN (cfgNow s (slice 40 8 w)) = true)
    (dma : cDma (cfgNow s (slice 40 8 w)) = true) (newest : newestWritten s = some top) (oldest : oldestHeld s (cfgNow s (slice 40 8 w)) = some low)
    (from_low : low ≤ a) (ordered : a ≤ b) (to_top : b ≤ top) (fine : cCoarse (cfgNow s (slice 40 8 w)) = false)
    (room : (sessSt s (slice 40 8 w)).replays.length < 4) :
    Runs .cmdqReplay s (fun t =>
      AnsweredAs s w 0 (put 48 16 (sessSt s (slice 40 8 w)).nextId + put 0 48 a) (put 0 48 b) t
        ∧ (sessSt t (slice 40 8 w)).replays = (sessSt s (slice 40 8 w)).replays ++ [⟨(sessSt s (slice 40 8 w)).nextId, a, b, none, false⟩]
        ∧ rget t F.DUC_COUNT_REPLAY.ACCEPTED = min 65535 (rget s F.DUC_COUNT_REPLAY.ACCEPTED + 1)
        ∧ AnswerOnly [F.DUC_COUNT_REPLAY.ACCEPTED, F.DUC_REPLAY_STATE.ACTIVE, F.DUC_REPLAY_STATE.QUEUED] s t) := by
  have ask := askReplay_held (s := cmdTake s) (c := cfgNow s (slice 40 8 w)) newest oldest from_low ordered to_top fine room
  refine runs_answer up head len fits rfl (cmdForm_accepts op) ((cmdOn_on enabled _).trans ((if_pos dma).trans ask))
    ((replayAccepted_only _ _ _).mono (by simp) (fun _ h => h)) fun t answers only more => ⟨answers, ?_, ?_, only⟩
  · rw [sessSt, more.sessions]
    exact congrArg Sess.replays (sessSt_replayAccepted (slice 40 8 w) _ (cmdTake s))
  · rw [more.get _ (by decide) (by decide), accepted_replayAccepted]
    rfl

theorem runs_replayRefused (op : slice 48 8 w = 4) (enabled : cEN (cfgNow s (slice 40 8 w)) = true)
    (dma : cDma (cfgNow s (slice 40 8 w)) = true) (bad : b < a ∨ ∃ top, newestWritten s = some top ∧ top < a) :
    Runs .cmdqReplay s (fun t => AnsweredAs s w 0x07 0 0 t ∧ t.duc = s.duc
      ∧ rget t F.DUC_COUNT_REPLAY.REFUSED = min 65535 (rget s F.DUC_COUNT_REPLAY.REFUSED + 1) ∧ AnswerOnly [F.DUC_COUNT_REPLAY.REFUSED] s t) := by
  have ask := askReplay_refused (s := cmdTake s) (c := cfgNow s (slice 40 8 w)) bad
  refine runs_answer up head len fits rfl (cmdForm_accepts op) ((cmdOn_on enabled _).trans ((if_pos dma).trans ask))
    ((inc_only _ _).mono (by simp) (by simp)) fun t answers only more => ⟨answers, more.duc rfl, ?_, only⟩
  rw [more.get _ (by decide) (by decide), rget_inc_same]
  rfl

theorem runs_replayNoDma (op : slice 48 8 w = 4) (enabled : cEN (cfgNow s (slice 40 8 w)) = true)
    (noDma : cDma (cfgNow s (slice 40 8 w)) = false) :
    Runs .cmdqReplay s (fun t => AnsweredAs s w 0x02 0 0 t ∧ t.duc = s.duc ∧ AnswerOnly [F.DUC_COUNT_REPLAY.REFUSED] s t) :=
  runs_answer up head len fits rfl (cmdForm_accepts op) ((cmdOn_on enabled _).trans (if_neg (by rw [noDma]; decide)))
    ((inc_only _ _).mono (by simp) (by simp)) fun _ answers only more => ⟨answers, more.duc rfl, only⟩

theorem runs_cancelOne (op : slice 48 8 w = 5) (enabled : cEN (cfgNow s (slice 40 8 w)) = true) (dma : cDma (cfgNow s (slice 40 8 w)) = true)
    {x : Replay} (named : namedReplays s (slice 40 8 w) a = [x]) (waits : x.active = false) :
    Runs .cmdqCancel s (fun t => AnsweredAs s w 0 1 0 t
      ∧ (sessSt t (slice 40 8 w)).replays = (sessSt s (slice 40 8 w)).replays.filter (fun y => y.id != x.id)
      ∧ rget t F.DUC_COUNT_REPLAY.CANCELLED = min 65535 (rget s F.DUC_COUNT_REPLAY.CANCELLED + 1) ∧ Pends pDUC 2 t
      ∧ AnswerOnly [F.DUC_COUNT_REPLAY.CANCELLED, F.DUC_REPLAY_STATE.ACTIVE, F.DUC_REPLAY_STATE.QUEUED, F.EVT_PEND.PEND pDUC] s t) := by
  have ask := askCancel_one (s := cmdTake s) (c := cfgNow s (slice 40 8 w)) named waits
  refine runs_answer up head len fits rfl (cmdForm_accepts op) ((cmdOn_on enabled _).trans ((if_pos dma).trans ask))
    (replayCancelled_only _ _ _) fun t answers only more => ⟨answers, ?_, ?_, ?_, only⟩
  · rw [sessSt, more.sessions]
    exact congrArg Sess.replays (sessSt_replayCancelled (slice 40 8 w) x.id (cmdTake s))
  · rw [more.get _ (by decide) (by decide), cancelled_replayCancelled]
    rfl
  · rw [Pends, more.get _ (by decide) (by decide)]
    exact pends_replayCancelled _ _ _

theorem runs_cancelNone (op : slice 48 8 w = 5) (enabled : cEN (cfgNow s (slice 40 8 w)) = true) (dma : cDma (cfgNow s (slice 40 8 w)) = true)
    (one : a ≠ 0xFFFF) (named : namedReplays s (slice 40 8 w) a = []) :
    Runs .cmdqCancel s (fun t => AnsweredAs s w 0x0A 0 0 t ∧ t.duc = s.duc ∧ AnswerOnly [] s t) :=
  runs_plainAnswer up head len fits rfl (cmdForm_accepts op) ((cmdOn_on enabled _).trans ((if_pos dma).trans
    (askCancel_none (s := cmdTake s) (c := cfgNow s (slice 40 8 w)) named one)))

end

/-- Settles O31: the executor's answer (`runs_answer`) with what each OP asks of its session. -/
theorem queueCommands : Obligations.QueueCommands := by
  intro s w a b up head len fits
  refine ⟨fun op => runs_plainAnswer up head len fits rfl (cmdForm_accepts op) rfl, fun op enabled dma => ⟨?_, ?_⟩, ?_,
    fun op enabled dma one => ⟨?_, ?_⟩, ?_, ?_, ?_, fun no0 no4 no5 no6 => ?_, ?_⟩
  · exact fun low top newest oldest from_low ordered to_top fine room =>
      runs_replayHeld up head len fits op enabled dma newest oldest from_low ordered to_top fine room
  · exact runs_replayRefused up head len fits op enabled dma
  · exact fun op enabled noDma => runs_replayNoDma up head len fits op enabled noDma
  · exact fun x named waits => runs_cancelOne up head len fits op enabled dma named waits
  · exact runs_cancelNone up head len fits op enabled dma one
  · exact fun op enabled noDma =>
      runs_plainAnswer up head len fits rfl (cmdForm_accepts op) ((cmdOn_on enabled _).trans (if_neg (by rw [noDma]; decide)))
  · exact fun op enabled => runs_plainAnswer up head len fits rfl (cmdForm_accepts op) (cmdOn_on enabled _)
  · exact fun op off => runs_plainAnswer up head len fits rfl (cmdForm_accepts op) (cmdOn_off off _)
  · exact runs_plainAnswer up head len fits rfl (by simp [no0, no4, no5, no6]) rfl
  · exact runs_plainAnswer up head len fits rfl rfl rfl

end Sys2Proof.Machine
